-- ==== Sys2Proof/Word.lean ====
section
/-! DEFINITION. Widths the manual names (R8, R9). Bit-field and byte-order helpers stand in Machine/Bits.lean. -/

namespace Sys2Proof

/-- One byte of memory. -/
abbrev Byte := BitVec 8
/-- One 32-bit word; also an FP32 bit pattern. -/
abbrev Word := BitVec 32
/-- One 64-bit word. -/
abbrev DWord := BitVec 64

end Sys2Proof
end

