-- ==== Sys2Proof/Machine/Bits.lean ====
section
/-! DEFINITION. Bit fields, sign extension, byte order (R9: little-endian) and CRC-32C (R370, R65). -/

namespace Sys2Proof.Machine

/-- Bits hi down to lo of a number. -/
def bitsOf (x hi lo : Nat) : Nat := (x >>> lo) % 2 ^ (hi + 1 - lo)

/-- One bit of a number. -/
def bitOf (x n : Nat) : Bool := Nat.testBit x n

/-- The number with bits hi down to lo replaced. -/
def putBits (x hi lo v : Nat) : Nat :=
  x - (bitsOf x hi lo) <<< lo + (v % 2 ^ (hi + 1 - lo)) <<< lo

/-- A two's-complement field of w bits as an integer. -/
def signed (w x : Nat) : Int :=
  if x % 2 ^ w < 2 ^ (w - 1) then (x % 2 ^ w : Nat) else ((x % 2 ^ w : Nat) : Int) - ((2 ^ w : Nat) : Int)

/-- An integer as the w-bit two's-complement field that holds it. -/
def unsigned (w : Nat) (x : Int) : Nat := (x % ((2 ^ w : Nat) : Int)).toNat

/-- One or nought. -/
def boolNat (b : Bool) : Nat := if b then 1 else 0

/-- The least of all ones of a width and a number: what a saturating counter shows. -/
def satTo (w n : Nat) : Nat := min n (2 ^ w - 1)

/-- The low n bytes of a number, least significant first. -/
def leBytes (n x : Nat) : List Byte :=
  match n with
  | 0 => []
  | n + 1 => BitVec.ofNat 8 x :: leBytes n (x / 256)

/-- The number that bytes spell, least significant first. -/
def leNat (bs : List Byte) : Nat :=
  match bs with
  | [] => 0
  | b :: r => b.toNat + 256 * leNat r

/-- n bytes of a list from an offset; bytes past its end read 0. -/
def slice (bs : List Byte) (off n : Nat) : List Byte :=
  let t := (bs.drop off).take n
  t ++ List.replicate (n - t.length) 0

/-- The little-endian number of n bytes at an offset. -/
def fieldAt (bs : List Byte) (off n : Nat) : Nat := leNat (slice bs off n)

/-- One bit step of CRC-32C, reflected. -/
def crcBit (c : Nat) : Nat :=
  if c % 2 = 1 then Nat.xor (c / 2) 0x82F63B78 else c / 2

/-- Eight bit steps after a byte is folded in. -/
def crcByte (c : Nat) (b : Byte) : Nat :=
  crcBit (crcBit (crcBit (crcBit (crcBit (crcBit (crcBit (crcBit (Nat.xor c b.toNat))))))))

/-- CRC-32C of bytes. -/
def crc32c (bs : List Byte) : Word :=
  BitVec.ofNat 32 (Nat.xor (bs.foldl crcByte 0xFFFFFFFF) 0xFFFFFFFF)

/-- Applies f n times. -/
def iterate {α : Type} (f : α → α) (n : Nat) (x : α) : α :=
  match n with
  | 0 => x
  | n + 1 => iterate f n (f x)

/-- A fold over 0, 1, ..., n - 1. -/
def upto {α : Type} (n : Nat) (x : α) (f : Nat → α → α) : α :=
  match n with
  | 0 => x
  | n + 1 => f n (upto n x f)

/-- The least number below n from k on with a property. -/
def firstFrom (p : Nat → Bool) (n : Nat) : Option Nat :=
  (List.range n).find? p

end Sys2Proof.Machine
end

