-- ==== Sys2Proof/Machine/Types.lean ====
section
/-! DEFINITION. The operand types of the commands: who acts, which unit, and the fields of slots,
flits, packets and frames as the manual lays them out. -/

namespace Sys2Proof

/-- A host function: host die and function index of R212 (0 PF0, 1 PF1, 2 PF2, v + 2 for VF v). -/
structure Func where
  die : Fin 2
  idx : Fin 63
deriving DecidableEq, Repr

/-- Who makes an access or a request. -/
inductive Requester where
  | func (f : Func)
  | side
  | ring (n : Fin 32768)
  | chiplet (c : Fin 64)
  | upd (k : Fin 48)
  | codec (k : Fin 32)
  | coll
deriving DecidableEq, Repr

/-- The waypoint participants ("The waypoint"): 64 chiplets, 48 update engines, 32 codec engines. -/
inductive Participant where
  | chiplet (c : Fin 64)
  | upd (k : Fin 48)
  | codec (k : Fin 32)
deriving DecidableEq, Repr

/-- The units of R357. -/
inductive UnitId where
  | chiplet (c : Fin 64)
  | upd (k : Fin 48)
  | slowTier
  | codec (k : Fin 32)
  | farPort (p : Fin 2)
  | link (l : Fin 6)
  | coll
  | hostDie (d : Fin 2)
deriving DecidableEq, Repr

/-- The sources of census reports in the fixed order of R113. -/
inductive CensusSource where
  | chiplet (c : Fin 64)
  | upd (k : Fin 48)
  | codec (k : Fin 32)
deriving DecidableEq, Repr

/-- One census report (R84, R112): counts, largest finite magnitude and squared error in FP32. -/
structure CensusRep where
  elems : Nat := 0
  zeros : Nat := 0
  sats : Nat := 0
  nonfinite : Nat := 0
  amax : Word := 0
  sse : Word := 0
deriving DecidableEq, Repr

/-- A memory access carried by a command: a read of `len` bytes or a write of bytes. -/
inductive MemOp where
  | read (len : Nat)
  | write (data : List Byte)
deriving DecidableEq, Repr

/-- What the DRAM devices did during a slow-tier access (R246). -/
inductive DramErr where
  | clean
  | corrected (bursts : Nat)
  | uncorrectable (burst : BitVec 48)
deriving DecidableEq, Repr

/-- How PCIe answered a HOST descriptor or other host-memory access (R193). -/
inductive PcieResult where
  | good
  | errorCompletion
  | timeout
deriving DecidableEq, Repr

/-- Common VEC fields and the fields of arithmetic, CMP, SEL, RSUM, RMAX and BCAST (R161). -/
structure VecFields where
  eng : BitVec 2
  qp : BitVec 3
  vd : BitVec 6
  va : BitVec 6
  vb : BitVec 6 := 0
  vc : BitVec 6 := 0
  sb : Bool := false
  rtz : Bool := false
  slot : BitVec 14 := 0
deriving DecidableEq, Repr

/-- Fields of an ACCRD slot. -/
structure AccrdFields where
  eng : BitVec 2
  qp : BitVec 3
  vd : BitVec 6
  array : BitVec 6
  tile : BitVec 3
  half : Bool
deriving DecidableEq, Repr

/-- Fields of a VTOS slot. -/
structure VtosFields where
  eng : BitVec 2
  qp : BitVec 3
  sd : BitVec 5
  va : BitVec 6
  lane : BitVec 9
deriving DecidableEq, Repr

/-- Fields of a CVT slot. -/
structure CvtFields where
  eng : BitVec 2
  qp : BitVec 3
  vd : BitVec 6
  va : BitVec 6
  srcFmt : BitVec 4
  srcScale : BitVec 2
  dstFmt : BitVec 4
  dstScale : BitVec 2
  rnd : BitVec 2
  ovf : Bool
  ssreg : BitVec 5
  dslot : BitVec 14
deriving DecidableEq, Repr

/-- Fields of a MOV slot, and what memory does: whether the read meets an uncorrectable error (R162). -/
structure MovFields where
  reg : BitVec 6
  base : BitVec 7
  space : BitVec 2
  offset : BitVec 27
  eng : BitVec 2
  extra : BitVec 14
  readErr : Bool := false
deriving DecidableEq, Repr

/-- Fields of a SIG slot. -/
structure SigFields where
  counter : BitVec 14
  vs : Bool
  value : BitVec 13
deriving DecidableEq, Repr

/-- Fields of an MMA slot, and what memory does: whether an operand read meets an uncorrectable error (R162). -/
structure MmaFields where
  a0 : BitVec 6
  rowsM1 : BitVec 3
  colsM1 : BitVec 3
  tile : BitVec 3
  accum : Bool
  pd : BitVec 6
  doff : BitVec 16
  readErr : Bool := false
deriving DecidableEq, Repr

/-- Fields of a TSTORE slot. -/
structure TstoreFields where
  array : BitVec 6
  tile : BitVec 3
  pd : BitVec 6
  offset : BitVec 24
deriving DecidableEq, Repr

/-- A channel of R43. -/
inductive Chan where
  | request
  | response
  | serveRequest
  | serveResponse
deriving DecidableEq, Repr

/-- A port of an arbiter that raises its request in the present cycle. -/
structure PortRaise where
  port : Fin 64
  chan : Chan
deriving DecidableEq, Repr

/-- A flit of R248: header fields, payload and CRC word. -/
structure Flit where
  seq : BitVec 12
  ack : BitVec 12
  typ : BitVec 2
  payload : List Byte
  crc : Word
deriving DecidableEq, Repr

/-- The FEC outcome of a received flit (R249). -/
inductive Fec where
  | clean
  | corrected (codewords : Nat)
  | uncorrectable (codewords : Nat)
deriving DecidableEq, Repr

/-- A NAK or IDLE flit as it arrives, with what FEC made of its codewords. -/
structure RxFlit where
  flit : Flit
  fec : Fec
deriving DecidableEq, Repr

/-- The FEC outcome of a flit, from how many of its codewords were corrected and how many could not be. -/
def fecOf (corrected lost : Nat) : Fec :=
  if 0 < lost then .uncorrectable lost else if 0 < corrected then .corrected corrected else .clean

/-- How a tile ends: whether its residue checks, and for how many cycles its operands were short (R131, R132). -/
structure TileEnd where
  residueOk : Bool
  held : Nat
deriving DecidableEq, Repr

/-- The identity record of a CONTROL flit (R267): device number and whether a relay was passed. -/
structure IdRecord where
  devnum : BitVec 16
  relayed : Bool
deriving DecidableEq, Repr

/-- The message a torus packet carries (R252 to R263). The packet's byte form beyond its first
8 bytes is the Ebsia header, which the manual does not lay out. -/
inductive TorusMsg where
  | read (off : BitVec 48) (len : Nat)
  | write (off : BitVec 48) (data : List Byte)
  | response (status : Nat) (data : List Byte)
  | fetchReq (entry : Fin 1024) (src : BitVec 48) (tiles : Nat) (gate : BitVec 14) (gateValue : Word)
  | fetchData (entry : Fin 1024) (data : List Byte)
  | tile (entry : Fin 1024) (axis : Fin 3) (shard : Nat) (t : Nat) (high : Bool) (data : List Word)
  | bcastData (entry : Fin 1024) (axis : Fin 3) (minus : Bool) (data : List Byte)
  | flags (entry : Fin 1024) (axis : Fin 3) (pos : Nat) (word : DWord)
  | permuteData (entry : Fin 1024) (stageOff : DWord) (dstOff : DWord) (data : List Byte)
  | barrier (entry : Fin 1024)
deriving DecidableEq, Repr

/-- The 8-byte torus packet lead of R248 with the message that follows it, and the slice of the sender, by which the unit
knows that of its peer (R257; assumption 35). -/
structure TorusPacket where
  coll : Bool
  void : Bool
  vcset : BitVec 3
  dir : BitVec 3
  chan : Chan
  src : BitVec 16
  dest : BitVec 16
  msg : TorusMsg
  slice : Word
deriving DecidableEq, Repr

/-- A Fuesque frame: the 48-byte header of "Packets and erasure groups", payload and tag, and whether the Ethernet frame
around it arrived with a bad check sequence (R312). -/
structure Frame where
  typ : BitVec 4
  epoch : BitVec 2
  clear : Bool
  span : Bool
  snap : Bool
  job : BitVec 16
  sender : Word
  frame : DWord
  first : Word
  last : Word
  group : Word
  groups : Word
  index : Byte
  k : Byte
  m : Byte
  len : BitVec 16
  stream : BitVec 16
  time : Word
  payload : List Byte
  tag : List Byte
  badFcs : Bool := false
deriving DecidableEq, Repr

/-- Lane test outcome of a training (R251): lanes that passed, FEC and link-layer success, what the
cable's management memory answered (R407), the peer's answer about our transmit lanes. -/
structure Training where
  lanesGood : BitVec 17
  locked : Bool
  cableMem : Option (Byte × Byte)
  txSpared : Option (Fin 16)
deriving DecidableEq, Repr

/-- A defect built-in self-test found (R61), as the fields of a soft-repair entry (R65). -/
structure Defect where
  typ : Byte
  unit : Byte
  inst : BitVec 16
  location : Word
deriving DecidableEq, Repr

/-- What one binnacle boot finds (R344, R375, R402): straps and whether each image passes its checks. -/
structure BootInfo where
  smbAddr : BitVec 2
  clkMode : Bool
  aOk : Bool
  bOk : Bool
deriving DecidableEq, Repr

/-- Boundary-scan instructions (R415): those that drive pins, and all others. -/
inductive TapInstr where
  | extest
  | otherDriving
  | bypass
  | sample
deriving DecidableEq, Repr

end Sys2Proof
end

