-- ==== Sys2Proof/Syntax.lean ====
section
/-! DEFINITION. The commands of the block: one constructor per row of spec/opcode_table.json, in the
table's order. The manual's rows name steps, not encodings, so the operands are those the governing
rule names. A slot command carries the slot's fields at their encoded widths; `more` says that another
slot of the same bundle follows (R154, R155). -/

namespace Sys2Proof

/-- A command: a register write or read, a descriptor, a slot, a frame, a flit, a timer or a pin event. -/
inductive Instr where
  /-- PARTICIPANT_ARRIVE (R16). -/
  | participantArrive (p : Participant)
  /-- WAYPOINT_GATHER (R17). -/
  | waypointGather
  /-- PARTICIPANT_ACKNOWLEDGE (R17). -/
  | participantAcknowledge (p : Participant)
  /-- WAYPOINT_DONE (R17). -/
  | waypointDone
  /-- ARRIVAL_TIMEOUT (R22). -/
  | arrivalTimeout
  /-- SERVE_REFRESH_COPY (R28). -/
  | serveRefreshCopy
  /-- SERVING_CHANGE_APPLY (R29). -/
  | servingChangeApply (c : Fin 64)
  /-- MOD_DEVNUM_WRITE (R67). -/
  | modDevnumWrite (who : Requester) (v : Word)
  /-- REP_SOFT_CLEAR (R65). -/
  | repSoftClear (who : Requester)
  /-- BAR4_ACCESS (R57). -/
  | bar4Access (f : Func) (off : BitVec 36) (op : MemOp)
  /-- NOP (R155). -/
  | nop (c : Fin 64)
  /-- END (R144). -/
  | seqEnd (c : Fin 64) (more : Bool)
  /-- JMP (R158). -/
  | jmp (c : Fin 64) (more : Bool) (qp : BitVec 3) (target : BitVec 13)
  /-- LOOP (R158). -/
  | loop (c : Fin 64) (more : Bool) (sn : BitVec 5) (target : BitVec 13)
  /-- DEFER (R142). -/
  | defer (c : Fin 64) (more : Bool) (start : BitVec 13) (count : BitVec 13)
  /-- MARK (R143). -/
  | mark (c : Fin 64) (more : Bool) (m : BitVec 2)
  /-- ALU (R158). -/
  | alu (c : Fin 64) (more : Bool) (fn : BitVec 4) (sd : BitVec 5) (a : BitVec 7) (imm : Bool) (b : BitVec 10)
  /-- SETQ (R158). -/
  | setq (c : Fin 64) (more : Bool) (qd : BitVec 3) (cc : BitVec 3) (a : BitVec 7) (imm : Bool) (b : BitVec 13)
  /-- LDI (R158). -/
  | ldi (c : Fin 64) (more : Bool) (sd : BitVec 5) (imm : BitVec 22)
  /-- IDLE (R163). -/
  | idle (c : Fin 64) (more : Bool) (n : BitVec 22)
  /-- MMA (R159). -/
  | mma (c : Fin 64) (more : Bool) (f : MmaFields)
  /-- TSTORE (R159). -/
  | tstore (c : Fin 64) (more : Bool) (f : TstoreFields)
  /-- VEC_ADD (R72). -/
  | vecAdd (c : Fin 64) (more : Bool) (f : VecFields)
  /-- VEC_SUB (R72). -/
  | vecSub (c : Fin 64) (more : Bool) (f : VecFields)
  /-- VEC_MUL (R72). -/
  | vecMul (c : Fin 64) (more : Bool) (f : VecFields)
  /-- FMA (R72). -/
  | fma (c : Fin 64) (more : Bool) (f : VecFields)
  /-- VEC_MAX (R72). -/
  | vecMax (c : Fin 64) (more : Bool) (f : VecFields)
  /-- VEC_MIN (R72). -/
  | vecMin (c : Fin 64) (more : Bool) (f : VecFields)
  /-- SEL (R161). -/
  | sel (c : Fin 64) (more : Bool) (f : VecFields)
  /-- CMP (R156). -/
  | cmp (c : Fin 64) (more : Bool) (f : VecFields)
  /-- EXP2 (R72). -/
  | exp2 (c : Fin 64) (more : Bool) (f : VecFields)
  /-- LOG2 (R72). -/
  | log2 (c : Fin 64) (more : Bool) (f : VecFields)
  /-- RCP (R72). -/
  | rcp (c : Fin 64) (more : Bool) (f : VecFields)
  /-- RSQRT (R72). -/
  | rsqrt (c : Fin 64) (more : Bool) (f : VecFields)
  /-- RSUM (R161). -/
  | rsum (c : Fin 64) (more : Bool) (f : VecFields)
  /-- RMAX (R161). -/
  | rmax (c : Fin 64) (more : Bool) (f : VecFields)
  /-- ACCRD (R161). -/
  | accrd (c : Fin 64) (more : Bool) (f : AccrdFields)
  /-- BCAST (R161). -/
  | bcast (c : Fin 64) (more : Bool) (f : VecFields)
  /-- VTOS (R161). -/
  | vtos (c : Fin 64) (more : Bool) (f : VtosFields)
  /-- CVT (R81). -/
  | cvt (c : Fin 64) (more : Bool) (f : CvtFields)
  /-- VLD (R162). -/
  | vld (c : Fin 64) (more : Bool) (f : MovFields)
  /-- VST (R162). -/
  | vst (c : Fin 64) (more : Bool) (f : MovFields)
  /-- VSTA (R162). -/
  | vsta (c : Fin 64) (more : Bool) (f : MovFields)
  /-- SLD (R162). -/
  | sld (c : Fin 64) (more : Bool) (f : MovFields)
  /-- SST (R162). -/
  | sst (c : Fin 64) (more : Bool) (f : MovFields)
  /-- MOV_COPY (R162). -/
  | movCopy (c : Fin 64) (more : Bool) (f : MovFields)
  /-- SIG_WAIT (R203). -/
  | sigWait (c : Fin 64) (more : Bool) (f : SigFields)
  /-- SIG_ADD (R203). -/
  | sigAdd (c : Fin 64) (more : Bool) (f : SigFields)
  /-- SIG_SET (R203). -/
  | sigSet (c : Fin 64) (more : Bool) (f : SigFields)
  /-- ARRIVE (R203). -/
  | arrive (c : Fin 64) (more : Bool) (f : SigFields)
  /-- EVENT (R205). -/
  | event (c : Fin 64) (more : Bool) (f : SigFields)
  /-- SIG_READ (R203). -/
  | sigRead (c : Fin 64) (more : Bool) (f : SigFields)
  /-- SIGNAL_APPLY (R203). -/
  | signalApply (i : Nat)
  /-- WAIT_RESUME (R204). -/
  | waitResume (c : Fin 64)
  /-- DEFERRED_SECTION_START (R143). -/
  | deferredSectionStart (c : Fin 64)
  /-- ACCUMULATION_COMPLETE (R132). -/
  | accumulationComplete (c : Fin 64) (e : TileEnd)
  /-- RESIGHT_COMPLETE (R117). -/
  | resightComplete (c : Fin 64) (e : TileEnd)
  /-- STANDIN_COMPLETE (R147). -/
  | standinComplete (c : Fin 64) (e : TileEnd)
  /-- CHAIN_FORWARD (R134). -/
  | chainForward (c : Fin 64) (i : Nat)
  /-- ACCUMULATION_WRITE (R136). -/
  | accumulationWrite (die : Fin 4) (i : Nat)
  /-- ACC_INVALIDATE (R137). -/
  | accInvalidate (who : Requester) (die : Fin 4)
  /-- ACC_INVALIDATE_DONE (R137). -/
  | accInvalidateDone (die : Fin 4) (region : Fin 32)
  /-- ENG_RETIRE_REQUEST (R150). -/
  | engRetireRequest (who : Requester) (c : Fin 64) (array : BitVec 6)
  /-- CENSUS_REPORT (R112). -/
  | censusReport (src : CensusSource) (slot : Fin 16384) (r : CensusRep)
  /-- SC_SLOT_STAGE (R104). -/
  | scSlotStage (who : Requester) (clearHist : Bool)
  /-- SC_LS_LOAD (R121). -/
  | scLsLoad (who : Requester)
  /-- SC_TABLE_BASE_WRITE (R126). -/
  | scTableBaseWrite (who : Requester) (v : DWord)
  /-- RT_SWAP_REQUEST (R175). -/
  | rtSwapRequest (who : Requester) (mask : DWord)
  /-- SEQ_LOG_CLEAR (R182). -/
  | seqLogClear (who : Requester) (c : Fin 64)
  /-- RING_CREATE (R184). -/
  | ringCreate (who : Requester) (n : Fin 32768)
  /-- RING_DESTROY (R184). -/
  | ringDestroy (who : Requester) (n : Fin 32768)
  /-- RING_ENABLE (R184). -/
  | ringEnable (who : Requester) (n : Fin 32768)
  /-- RING_DISABLE (R184). -/
  | ringDisable (who : Requester) (n : Fin 32768)
  /-- RING_UNFREEZE (R199). -/
  | ringUnfreeze (who : Requester) (n : Fin 32768)
  /-- DOORBELL (R196). -/
  | doorbell (f : Func) (off : BitVec 21) (data : List Byte)
  /-- DESCRIPTOR_FETCH (R186). -/
  | descriptorFetch (n : Fin 32768)
  /-- DESCRIPTOR_COMPLETE (R192). -/
  | descriptorComplete (n : Fin 32768)
  /-- REFUSED_RETRY (R192). -/
  | refusedRetry (n : Fin 32768) (idx : BitVec 16)
  /-- RC_RETRY_EXPIRY (R192). -/
  | rcRetryExpiry (n : Fin 32768) (idx : BitVec 16)
  /-- FUNCTION_UNFREEZE (R199). -/
  | functionUnfreeze (who : Requester) (die : Fin 2) (mask : DWord)
  /-- DESCRIPTOR_NOP (R190). -/
  | descriptorNop (n : Fin 32768) (idx : BitVec 16)
  /-- COPY (R193). -/
  | copy (n : Fin 32768) (idx : BitVec 16)
  /-- FILL (R193). -/
  | fill (n : Fin 32768) (idx : BitVec 16)
  /-- TO_HOST (R193). -/
  | toHost (n : Fin 32768) (idx : BitVec 16) (r : PcieResult)
  /-- FROM_HOST (R193). -/
  | fromHost (n : Fin 32768) (idx : BitVec 16) (r : PcieResult)
  /-- SERVE_REQUEST (R200). -/
  | serveRequest (n : Fin 32768) (idx : BitVec 16)
  /-- SERVE_DISPATCH (R201). -/
  | serveDispatch (n : Fin 32768) (idx : BitVec 16)
  /-- COMPUTE_START (R194). -/
  | computeStart (n : Fin 32768) (idx : BitVec 16)
  /-- COMPUTE_STOP (R194). -/
  | computeStop (n : Fin 32768) (idx : BitVec 16)
  /-- SIG_HOSTOP_ADD (R213). -/
  | sigHostopAdd (who : Requester) (die : Fin 4) (value : Word)
  /-- SIG_HOSTOP_SET (R213). -/
  | sigHostopSet (who : Requester) (die : Fin 4) (value : Word)
  /-- SIG_EVT_POP (R213). -/
  | sigEvtPop (who : Requester) (die : Fin 4)
  /-- ARBITER_GRANT (R207). -/
  | arbiterGrant (die : Fin 4) (arb : Fin 232) (cycle : Nat) (raises : List PortRaise)
  /-- BURST_END (R206). -/
  | burstEnd (die : Fin 4) (arb : Fin 232) (cycle : Nat) (wants : Bool)
  /-- BACKOFF_EXPIRY (R206). -/
  | backoffExpiry (die : Fin 4) (arb : Fin 232) (port : Fin 64) (cycle : Nat)
  /-- MAP_VALIDATE (R222). -/
  | mapValidate (k : Fin 48)
  /-- UPDATE_PASS_START (R224). -/
  | updatePassStart (k : Fin 48)
  /-- STEP_UPDATE_BLOCK (R228). -/
  | stepUpdateBlock (k : Fin 48)
  /-- OUTER_APPLICATION_BLOCK (R241). -/
  | outerApplicationBlock (k : Fin 48)
  /-- NULL_STEP_BLOCK (R242). -/
  | nullStepBlock (k : Fin 48)
  /-- RE_DERIVATION_BLOCK (R238). -/
  | reDerivationBlock (k : Fin 48)
  /-- ROLL_FORWARD (R233). -/
  | rollForward (k : Fin 48)
  /-- UPD_VAR_STAGE (R239). -/
  | updVarStage (who : Requester)
  /-- UPD_VAR_READ (R244). -/
  | updVarRead (who : Requester)
  /-- OUTER_STEP (R242). -/
  | outerStep (n : Fin 32768) (idx : BitVec 16)
  /-- DERIVE (R238). -/
  | derive (n : Fin 32768) (idx : BitVec 16)
  /-- SWEEP (R238). -/
  | sweep (n : Fin 32768) (idx : BitVec 16)
  /-- ENGINE_UNFREEZE (R245). -/
  | engineUnfreeze (who : Requester) (k : Fin 48)
  /-- SLOW_TIER_ACCESS (R246). -/
  | slowTierAccess (who : Requester) (off : BitVec 48) (op : MemOp) (err : DramErr)
  /-- FLIT_SEND (R249). -/
  | flitSend (l : Fin 6) (typ : BitVec 2) (payload : List Byte)
  /-- DATA_FLIT (R249). -/
  | dataFlit (l : Fin 6) (f : Flit) (fec : Fec)
  /-- NAK_FLIT (R249). -/
  | nakFlit (l : Fin 6) (f : RxFlit)
  /-- CONTROL_FLIT (R249). -/
  | controlFlit (l : Fin 6) (f : Flit) (corrected lost : Nat)
  /-- IDLE_FLIT (R249). -/
  | idleFlit (l : Fin 6) (f : RxFlit)
  /-- ACK_TIMEOUT (R249). -/
  | ackTimeout (l : Fin 6)
  /-- PEER_SIGNAL_DETECT (R250). -/
  | peerSignalDetect (l : Fin 6)
  /-- TRAIN_COMPLETE (R251). -/
  | trainComplete (l : Fin 6) (t : Training)
  /-- RETRAIN_COMPLETE (R250). -/
  | retrainComplete (l : Fin 6) (t : Training)
  /-- RETRAIN (R250). -/
  | retrain (who : Requester) (l : Fin 6)
  /-- LINK_DISABLE (R250). -/
  | linkDisable (who : Requester) (l : Fin 6)
  /-- LINK_ENABLE (R250). -/
  | linkEnable (who : Requester) (l : Fin 6)
  /-- LANE_LOCK_LOSS (R251). -/
  | laneLockLoss (l : Fin 6) (lane : Fin 17)
  /-- LANE_MARGIN_CHECK (R251). -/
  | laneMarginCheck (l : Fin 6) (symbols : List Nat)
  /-- TORUS_PACKET_ARRIVE (R255). -/
  | torusPacketArrive (l : Fin 6) (p : TorusPacket)
  /-- TOR_SLICE_WRITE (R256). -/
  | torSliceWrite (who : Requester) (geom : Bool) (v : Word)
  /-- TOR_COLL_BASE_WRITE (R270). -/
  | torCollBaseWrite (who : Requester) (v : DWord)
  /-- INJECTION (R259). -/
  | injection (i : Nat)
  /-- REDUCE_SCATTER (R260). -/
  | reduceScatter (e : Fin 1024)
  /-- COLLECTIVE_TILE (R260). -/
  | collectiveTile (e : Fin 1024) (axis : Fin 3) (shard : Nat) (t : Nat)
  /-- FETCH (R261). -/
  | fetch (e : Fin 1024)
  /-- FETCH_SERVE (R261). -/
  | fetchServe (i : Nat)
  /-- BROADCAST (R261). -/
  | broadcast (e : Fin 1024)
  /-- FLAG_OR (R261). -/
  | flagOr (e : Fin 1024)
  /-- PERMUTE (R262). -/
  | permute (e : Fin 1024)
  /-- PERMUTE_COPY_PHASE (R262). -/
  | permuteCopyPhase (e : Fin 1024)
  /-- COLLECTIVE_TIMEOUT (R263). -/
  | collectiveTimeout (e : Fin 1024)
  /-- RELAY_WRITE (R264). -/
  | relayWrite (who : Requester) (v : Word)
  /-- AUTO_RELAY (R265). -/
  | autoRelay
  /-- TOR_PROBE (R267). -/
  | torProbe (who : Requester)
  /-- PROBE_RESULT (R267). -/
  | probeResult
  /-- CBL_PWR_TRIP (R406). -/
  | cblPwrTrip (l : Fin 6)
  /-- CABLE_PRESENCE (R406). -/
  | cablePresence (l : Fin 6) (present : Bool)
  /-- DELTA_FIRST_PASS (R275). -/
  | deltaFirstPass (k : Fin 32)
  /-- DELTA_SECOND_PASS (R278). -/
  | deltaSecondPass (k : Fin 32)
  /-- SPAN_STREAM_FORM (R307). -/
  | spanStreamForm (first : Word)
  /-- SNAPSHOT_STREAM_FORM (R309). -/
  | snapshotStreamForm
  /-- STREAM_ENCODE (R289). -/
  | streamEncode (p : Fin 2) (stream : BitVec 16)
  /-- PACER_SEND (R299). -/
  | pacerSend (p : Fin 256)
  /-- PACER_RATE_UPDATE (R299). -/
  | pacerRateUpdate (p : Fin 256)
  /-- DATA_PACKET (R291). -/
  | dataPacket (p : Fin 2) (f : Frame)
  /-- PARITY_PACKET (R291). -/
  | parityPacket (p : Fin 2) (f : Frame)
  /-- NACK (R293). -/
  | nack (p : Fin 2) (f : Frame)
  /-- FEEDBACK (R299). -/
  | feedback (p : Fin 2) (f : Frame)
  /-- PROBE (R296). -/
  | probe (p : Fin 2) (f : Frame)
  /-- PROBE_REPLY (R296). -/
  | probeReply (p : Fin 2) (f : Frame)
  /-- SNAP_REQ (R309). -/
  | snapReq (p : Fin 2) (f : Frame)
  /-- CHUNK_ADD (R301). -/
  | chunkAdd (k : Fin 32) (i : Nat)
  /-- NACK_TIMEOUT (R292). -/
  | nackTimeout (p : Fin 256) (stream : BitVec 16)
  /-- FEEDBACK_TIMER (R299). -/
  | feedbackTimer (p : Fin 256) (stream : BitVec 16)
  /-- PROBE_TIMER (R296). -/
  | probeTimer (p : Fin 2)
  /-- PARTNER_DOWN (R296). -/
  | partnerDown (p : Fin 256)
  /-- RESEND_RELEASE (R294). -/
  | resendRelease (stream : BitVec 16)
  /-- PARTNER_VALID (R297). -/
  | partnerValid (who : Requester) (p : Fin 256)
  /-- HANDOFF (R304). -/
  | handoff (n : Fin 32768) (idx : BitVec 16)
  /-- SNAP_FETCH (R308). -/
  | snapFetch (n : Fin 32768) (idx : BitVec 16)
  /-- SNAP_REQ_TIMER (R308). -/
  | snapReqTimer
  /-- SNAPSHOT_LOAD (R310). -/
  | snapshotLoad
  /-- COMPRESS (R288). -/
  | compress (n : Fin 32768) (idx : BitVec 16) (k : Fin 32)
  /-- EXPAND (R285). -/
  | expand (n : Fin 32768) (idx : BitVec 16) (k : Fin 32)
  /-- CIPHER_CORE_DISPATCH (R315). -/
  | cipherCoreDispatch (p : Fin 2) (core : Fin 10)
  /-- CIPHER_UNIT_DONE (R315). -/
  | cipherUnitDone (p : Fin 2) (core : Fin 10)
  /-- ENCRYPT (R320). -/
  | encrypt (n : Fin 32768) (idx : BitVec 16)
  /-- DECRYPT (R321). -/
  | decrypt (n : Fin 32768) (idx : BitVec 16)
  /-- KEY_LOAD (R318). -/
  | keyLoad (who : Requester)
  /-- KEY_ERASE (R319). -/
  | keyErase (who : Requester)
  /-- EPOCH_INSTALL (R328). -/
  | epochInstall (who : Requester) (p : Fin 2) (e : Fin 4)
  /-- EPOCH_SWITCH (R329). -/
  | epochSwitch (who : Requester)
  /-- PREVIOUS_HOLD_END (R330). -/
  | previousHoldEnd
  /-- GRACE_END (R331). -/
  | graceEnd
  /-- XSTATE_WRITE (R333). -/
  | xstateWrite (who : Requester) (v : BitVec 2)
  /-- POWER_REQUEST_DORMANT (R343). -/
  | powerRequestDormant (who : Requester)
  /-- POWER_REQUEST_WATCH (R341). -/
  | powerRequestWatch (who : Requester)
  /-- WATCH_ENTRY_COMPLETE (R341). -/
  | watchEntryComplete
  /-- POWER_REQUEST_READY (R342). -/
  | powerRequestReady (who : Requester)
  /-- READY_SEQUENCE_COMPLETE (R342). -/
  | readySequenceComplete (defects : List Defect)
  /-- MAIN_INPUT_LOSS (R340). -/
  | mainInputLoss
  /-- MAIN_UNDERVOLTAGE (R340). -/
  | mainUndervoltage (mv : BitVec 16)
  /-- MAIN_INPUT_APPLY (R416). -/
  | mainInputApply
  /-- STANDBY_LOSS (R417). -/
  | standbyLoss
  /-- WAKE_IN_HIGH (R344). -/
  | wakeInHigh
  /-- WAKE_IN_LOW (R353). -/
  | wakeInLow
  /-- BINNACLE_BOOT_COMPLETE (R344). -/
  | binnacleBootComplete (b : BootInfo)
  /-- CLOCK_START (R346). -/
  | clockStart (w : Fin 9)
  /-- PLL_LOCK_FAIL (R347). -/
  | pllLockFail (w : Fin 9)
  /-- CLOCK_IDLE_STOP (R346). -/
  | clockIdleStop (w : Fin 9)
  /-- POWER_SAMPLE (R350). -/
  | powerSample (mv : BitVec 16) (ca : BitVec 16)
  /-- FAST_LOOP (R350). -/
  | fastLoop
  /-- SLOW_LOOP (R350). -/
  | slowLoop
  /-- THERMAL_SAMPLE (R351). -/
  | thermalSample (sensor : Fin 128) (raw : BitVec 16)
  /-- THERMAL_STEP (R352). -/
  | thermalStep
  /-- THERMAL_TRIP (R353). -/
  | thermalTrip (sensor : Fin 128)
  /-- POWER_ON_RESET (R355). -/
  | powerOnReset (defects : List Defect)
  /-- FUNDAMENTAL_RESET (R356). -/
  | fundamentalReset (d : Fin 2)
  /-- MODULE_WARM_RESET (R355). -/
  | moduleWarmReset (who : Requester) (defects : List Defect)
  /-- WARD_RESET (R355). -/
  | wardReset (who : Requester) (w : Fin 9)
  /-- FUNCTION_LEVEL_RESET (R356). -/
  | functionLevelReset (f : Func)
  /-- UNIT_RESET (R357). -/
  | unitReset (who : Requester) (u : UnitId)
  /-- FENCE (R358). -/
  | fence (who : Requester) (u : UnitId) (dump : Bool)
  /-- DRAIN_END (R358). -/
  | drainEnd (u : UnitId)
  /-- DRAIN_TIMEOUT (R358). -/
  | drainTimeout (u : UnitId)
  /-- DUMP_WORD_TIMEOUT (R369). -/
  | dumpWordTimeout (addr : BitVec 48)
  /-- DUMP_COMPLETE (R369). -/
  | dumpComplete (u : UnitId)
  /-- RESET_COMPLETE (R357). -/
  | resetComplete (u : UnitId)
  /-- PROBATION_COMPLETE (R360). -/
  | probationComplete (u : UnitId) (pass : Bool)
  /-- HALT (R365). -/
  | halt (who : Requester)
  /-- WATCHDOG_SAMPLE (R368). -/
  | watchdogSample
  /-- WATCHDOG_EXPIRY (R368). -/
  | watchdogExpiry (u : UnitId)
  /-- UNQUARANTINE (R371). -/
  | unquarantine (who : Requester)
  /-- DUMP_RELEASE (R370). -/
  | dumpRelease (who : Requester)
  /-- DUMP_DATA_READ (R370). -/
  | dumpDataRead (who : Requester)
  /-- FIRMWARE_UPDATE_WRITE (R373): a piece of an image; `last` ends the transfer. -/
  | firmwareUpdateWrite (imageB : Bool) (off : Nat) (data : List Byte) (last : Bool)
  /-- FIRMWARE_ACTIVATE (R373). -/
  | firmwareActivate (who : Requester)
  /-- FIRMWARE_RUNNING (R374). -/
  | firmwareRunning
  /-- BOOT_FALLBACK (R375). -/
  | bootFallback
  /-- REGISTER_WRITE (R384). -/
  | registerWrite (who : Requester) (addr : BitVec 28) (width : Nat) (v : DWord)
  /-- APPLY_NOW (R386). -/
  | applyNow (who : Requester) (page : BitVec 28)
  /-- DISCARD (R386). -/
  | discard (who : Requester) (page : BitVec 28)
  /-- SNAP_TAKE (R390). -/
  | snapTake (who : Requester) (page : BitVec 28) (bank : BitVec 2)
  /-- SNAP_TAKE_CLEAR (R390). -/
  | snapTakeClear (who : Requester) (page : BitVec 28) (bank : BitVec 2)
  /-- COUNTER_CLEAR (R388). -/
  | counterClear (who : Requester) (addr : BitVec 28) (width : Nat) (v : DWord)
  /-- EVT_STATUS_CLEAR (R391). -/
  | evtStatusClear (who : Requester) (page : BitVec 28) (v : Word)
  /-- EVT_ENABLE_WRITE (R391). -/
  | evtEnableWrite (who : Requester) (page : BitVec 28) (v : Word)
  /-- EVT_FORCE (R391). -/
  | evtForce (who : Requester) (page : BitVec 28) (v : Word)
  /-- UNFREEZE (R198). -/
  | unfreeze (who : Requester) (page : BitVec 28)
  /-- VDM_READ (R397). -/
  | vdmRead (page : Word) (off : BitVec 16) (width : Byte)
  /-- VDM_WRITE (R397). -/
  | vdmWrite (page : Word) (off : BitVec 16) (width : Byte) (v : DWord)
  /-- VDM_SNAPSHOT (R397). -/
  | vdmSnapshot (page : Word) (bank : Byte) (clear : Byte)
  /-- MCTP_CONTROL (R396). -/
  | mctpControl (cmd : Byte)
  /-- PLDM_SENSOR_READ (R398). -/
  | pldmSensorRead (id : BitVec 16)
  /-- PLDM_EVENT_DELIVERY (R398). -/
  | pldmEventDelivery
  /-- TAP_RESET (R415). -/
  | tapReset
  /-- TAP_INSTRUCTION (R415). -/
  | tapInstruction (i : TapInstr)
  /-- PERST_RELEASE (R420). -/
  | perstRelease (d : Fin 2)
  /-- PLL_LOCK (R347). -/
  | pllLock (w : Fin 9)
  /-- SWEEP_BLOCK (R238). -/
  | sweepBlock (k : Fin 48)
  /-- FAR_PORT_LINK_CHANGE (R312). -/
  | farPortLinkChange (p : Fin 2) (up : Bool)
  /-- OSFP_CABLE_INSERT (R408). -/
  | osfpCableInsert (p : Fin 2) (over5W : Bool)
deriving DecidableEq, Repr

end Sys2Proof
end

