-- ==== Sys2Proof/Decode.lean ====
section
/-! DEFINITION. Words and commands. The opcode table of this block gives no row any bits, so no word spells a command of the
table; the bundles that a sequencer fetches (R154 to R162) are decoded slot by slot. -/

namespace Sys2Proof
open Sys2Proof.Machine

/-- The command a word spells by the table's bits: none, because no row of the table gives bits. -/
def decodeTableWord (_nbits _w : Nat) : Option Instr := none

/-! ### Bundles (R154, R155) -/

/-- What a slot holds: nothing, a command, or an opcode that the manual does not define. -/
inductive SlotWord where
  | nop
  | command (i : Instr)
  | undefined
deriving DecidableEq, Repr

/-- The slots of a bundle of 32 bytes, little-endian: CTRL, MAT, VEC, MOV and SIG at bits 31:0, 95:32, 159:96, 223:160 and
255:224. -/
def bundleSlots (bs : List Byte) : List Nat :=
  [fieldAt bs 0 4, fieldAt bs 4 8, fieldAt bs 12 8, fieldAt bs 20 8, fieldAt bs 28 4]

/-- A field of a slot. -/
def slotField (w hi lo : Nat) : BitVec (hi + 1 - lo) := BitVec.ofNat _ (bitsOf w hi lo)

/-- The CTRL slot of chiplet c; `more` when another slot of the bundle follows. -/
def ctrlSlot (c : Fin 64) (more : Bool) (w : Nat) : SlotWord :=
  match bitsOf w 31 27 with
  | 0x00 => .nop
  | 0x01 => .command (.seqEnd c more)
  | 0x02 => .command (.jmp c more (slotField w 26 24) (slotField w 12 0))
  | 0x03 => .command (.loop c more (slotField w 26 22) (slotField w 12 0))
  | 0x04 => .command (.defer c more (slotField w 25 13) (slotField w 12 0))
  | 0x05 => .command (.mark c more (slotField w 1 0))
  | 0x06 => .command (.alu c more (slotField w 26 23) (slotField w 22 18) (slotField w 17 11) (bitOf w 10) (slotField w 9 0))
  | 0x07 => .command (.setq c more (slotField w 26 24) (slotField w 23 21) (slotField w 20 14) (bitOf w 13) (slotField w 12 0))
  | 0x08 => .command (.ldi c more (slotField w 26 22) (slotField w 21 0))
  | 0x09 => .command (.idle c more (slotField w 21 0))
  | _ => .undefined

/-- The MAT slot (R159). -/
def matSlot (c : Fin 64) (more : Bool) (w : Nat) : SlotWord :=
  match bitsOf w 63 60 with
  | 0 => .nop
  | 1 => .command (.mma c more
      { a0 := slotField w 59 54, rowsM1 := slotField w 53 51, colsM1 := slotField w 50 48, tile := slotField w 47 45
        accum := bitOf w 44, pd := slotField w 43 38, doff := slotField w 37 22 })
  | 2 => .command (.tstore c more
      { array := slotField w 59 54, tile := slotField w 47 45, pd := slotField w 43 38, offset := slotField w 37 14 })
  | _ => .undefined

/-- The common and arithmetic fields of a VEC slot. -/
def vecFields (w : Nat) : VecFields :=
  { eng := slotField w 55 54, qp := slotField w 53 51, vd := slotField w 50 45, va := slotField w 44 39, vb := slotField w 38 33
    vc := slotField w 32 27, sb := bitOf w 26, rtz := bitOf w 25, slot := slotField w 18 5 }

/-- The VEC slot (R161). -/
def vecSlot (c : Fin 64) (more : Bool) (w : Nat) : SlotWord :=
  let f := vecFields w
  match bitsOf w 63 56 with
  | 0x00 => .nop
  | 0x01 => .command (.vecAdd c more f)
  | 0x02 => .command (.vecSub c more f)
  | 0x03 => .command (.vecMul c more f)
  | 0x04 => .command (.fma c more f)
  | 0x05 => .command (.vecMax c more f)
  | 0x06 => .command (.vecMin c more f)
  | 0x07 => .command (.sel c more f)
  | 0x08 => .command (.cmp c more f)
  | 0x0A => .command (.exp2 c more f)
  | 0x0B => .command (.log2 c more f)
  | 0x0C => .command (.rcp c more f)
  | 0x0D => .command (.rsqrt c more f)
  | 0x10 => .command (.rsum c more f)
  | 0x11 => .command (.rmax c more f)
  | 0x18 => .command (.accrd c more
      { eng := f.eng, qp := f.qp, vd := f.vd, array := slotField w 38 33, tile := slotField w 32 30, half := bitOf w 29 })
  | 0x19 => .command (.bcast c more f)
  | 0x1A => .command (.vtos c more { eng := f.eng, qp := f.qp, sd := slotField w 49 45, va := f.va, lane := slotField w 38 30 })
  | 0x20 => .command (.cvt c more
      { eng := f.eng, qp := f.qp, vd := f.vd, va := f.va, srcFmt := slotField w 38 35, srcScale := slotField w 34 33
        dstFmt := slotField w 32 29, dstScale := slotField w 28 27, rnd := slotField w 26 25, ovf := bitOf w 24
        ssreg := slotField w 23 19, dslot := slotField w 18 5 })
  | _ => .undefined

/-- The fields of a MOV slot; that its read meets no error is memory's to say. -/
def movFields (w : Nat) : MovFields :=
  { reg := slotField w 57 52, base := slotField w 51 45, space := slotField w 44 43, offset := slotField w 42 16
    eng := slotField w 15 14, extra := slotField w 13 0 }

/-- The MOV slot (R162). -/
def movSlot (c : Fin 64) (more : Bool) (w : Nat) : SlotWord :=
  let f := movFields w
  match bitsOf w 63 58 with
  | 0x00 => .nop
  | 0x01 => .command (.vld c more f)
  | 0x02 => .command (.vst c more f)
  | 0x03 => .command (.vsta c more f)
  | 0x04 => .command (.sld c more f)
  | 0x05 => .command (.sst c more f)
  | 0x08 => .command (.movCopy c more f)
  | _ => .undefined

/-- The SIG slot (R203, R205). -/
def sigSlot (c : Fin 64) (more : Bool) (w : Nat) : SlotWord :=
  let f : SigFields := { counter := slotField w 27 14, vs := bitOf w 13, value := slotField w 12 0 }
  match bitsOf w 31 28 with
  | 0 => .nop
  | 1 => .command (.sigWait c more f)
  | 2 => .command (.sigAdd c more f)
  | 3 => .command (.sigSet c more f)
  | 4 => .command (.arrive c more f)
  | 5 => .command (.event c more f)
  | 6 => .command (.sigRead c more f)
  | _ => .undefined

/-- Slot k of a bundle. -/
def slotWord (c : Fin 64) (k : Nat) (more : Bool) (w : Nat) : SlotWord :=
  match k with
  | 0 => ctrlSlot c more w
  | 1 => matSlot c more w
  | 2 => vecSlot c more w
  | 3 => movSlot c more w
  | _ => sigSlot c more w

/-- A slot that holds a command. -/
def SlotWord.isCommand : SlotWord → Bool
  | .command _ => true
  | _ => false

/-- The slots of a bundle of chiplet c, in order, each as it issues: the last slot that holds a command is the one that no other
follows. -/
def decodeBundle (c : Fin 64) (bs : List Byte) : List SlotWord :=
  let ws := (bundleSlots bs).zipIdx
  ws.map fun q => slotWord c q.2 (ws.any fun r => decide (q.2 < r.2) && (slotWord c r.2 false r.1).isCommand) q.1

/-- The slots of a bundle whose opcode is not defined: each is ILLEGAL (R155, R165). -/
def undefinedSlots (bs : List Byte) : List Nat :=
  ((decodeBundle 0 bs).zipIdx.filter fun q => decide (q.1 = SlotWord.undefined)).map fun q => q.2

end Sys2Proof
end

