-- ==== Sys2Proof/Machine/Fp.lean ====
section
/-! DEFINITION. Number formats and rounding (R73 to R75, R79, R82, R83, R87, R92, R93, R99, R101): every
value is taken exactly, as sign, magnitude and power of two, and rounded once. -/

namespace Sys2Proof.Machine

/-- An exact value: not a number, an infinity, or (-1)^neg m 2^e. -/
inductive Num where
  | nan
  | inf (neg : Bool)
  | fin (neg : Bool) (m : Nat) (e : Int)
deriving DecidableEq, Repr

/-- The rounding modes of R87 (`sr` carries its 16-bit draw) and the upward rounding of R81 and R108. -/
inductive Rnd where
  | rne
  | rtz
  | sr (u : Nat)
  | up
deriving DecidableEq, Repr

/-- m 2^k as a number when k is not negative, m otherwise. -/
def shlInt (m : Nat) (k : Int) : Nat := m <<< k.toNat

/-- N / D rounded to an integer in a mode (R87). -/
def roundQ (md : Rnd) (n d : Nat) : Nat :=
  let q := n / d
  let r := n % d
  match md with
  | .rne => if 2 * r > d ∨ (2 * r = d ∧ q % 2 = 1) then q + 1 else q
  | .rtz => q
  | .sr u => if u + (r <<< 16) / d ≥ 65536 then q + 1 else q
  | .up => if r = 0 then q else q + 1

/-- The exponent of num / den: the k with 2^k ≤ num / den < 2^(k + 1). -/
def ratioLog (num den : Nat) : Int :=
  let l : Int := (Nat.log2 num : Int) - (Nat.log2 den : Int)
  if shlInt num (-l) < shlInt den l then l - 1 else l

/-- The magnitude num / den 2^e on a grid of fb fraction bits, with the subnormal grid from emin where
one is given: the integer and its power of two. -/
def roundMag (md : Rnd) (fb : Nat) (emin : Option Int) (num den : Nat) (e : Int) : Nat × Int :=
  if num = 0 then (0, 0) else
  let k := ratioLog num den + e
  let k' := match emin with
    | some m => max k m
    | none => k
  let lsb := k' - (fb : Int)
  let s := e - lsb
  let q := roundQ md (shlInt num s) (shlInt den (-s))
  if q = 2 ^ (fb + 1) then (2 ^ fb, lsb + 1) else (q, lsb)

/-- The FP32 word of n 2^lsb, n below 2^24: past the largest finite value, infinity or that value. -/
def packF32 (neg : Bool) (n : Nat) (lsb : Int) (toInf : Bool) : Word :=
  let sgn := boolNat neg * 0x80000000
  if n = 0 then BitVec.ofNat 32 sgn
  else if n < 2 ^ 23 then BitVec.ofNat 32 (sgn + n)
  else
    let ex := lsb + 150
    if ex > 254 then BitVec.ofNat 32 (sgn + if toInf then 0x7F800000 else 0x7F7FFFFF)
    else BitVec.ofNat 32 (sgn + ex.toNat * 2 ^ 23 + (n - 2 ^ 23))

/-- The canonical NaN of FP32 (R73, R101). -/
def f32NaN : Word := 0x7FC00000

/-- Whether a rounding that overflows gives infinity: RNE does, RTZ does not. -/
def Rnd.overflowsToInf : Rnd → Bool
  | .rtz => false
  | _ => true

/-- num / den 2^e as FP32 with subnormals kept, or flushed with tininess found after rounding (R101). -/
def magToF32 (md : Rnd) (flush : Bool) (neg : Bool) (num den : Nat) (e : Int) : Word :=
  if flush then
    let (n, lsb) := roundMag md 23 none num den e
    if n = 0 ∨ lsb + 23 < -126 then packF32 neg 0 0 true else packF32 neg n lsb md.overflowsToInf
  else
    let (n, lsb) := roundMag md 23 (some (-126)) num den e
    packF32 neg n lsb md.overflowsToInf

/-- An exact value as FP32. -/
def Num.toF32 (md : Rnd) (flush : Bool) : Num → Word
  | .nan => f32NaN
  | .inf neg => BitVec.ofNat 32 (0x7F800000 + boolNat neg * 0x80000000)
  | .fin neg m e => magToF32 md flush neg m 1 e

/-- An exact value as A20, held in bits 31:12 of an FP32 word (R92, R93: RNE and flush). -/
def Num.toA20 : Num → Word
  | .nan => f32NaN
  | .inf neg => BitVec.ofNat 32 (0x7F800000 + boolNat neg * 0x80000000)
  | .fin neg m e =>
    let (n, lsb) := roundMag .rne 11 none m 1 e
    if n = 0 ∨ lsb + 11 < -126 then packF32 neg 0 0 true else packF32 neg (n <<< 12) (lsb - 12) true

/-- The exact value of an FP32 word. -/
def ofF32 (w : Word) : Num :=
  let x := w.toNat
  let neg := bitOf x 31
  let ex := bitsOf x 30 23
  let fr := bitsOf x 22 0
  if ex = 255 then (if fr = 0 then .inf neg else .nan)
  else if ex = 0 then .fin neg fr (-149)
  else .fin neg (fr + 2 ^ 23) ((ex : Int) - 150)

/-- A subnormal FP32 word as a zero of its sign (R101, the arrays). -/
def flushF32 (w : Word) : Word :=
  if bitsOf w.toNat 30 23 = 0 then BitVec.ofNat 32 (w.toNat / 2 ^ 31 * 2 ^ 31) else w

/-- Exact negation. -/
def Num.neg : Num → Num
  | .nan => .nan
  | .inf s => .inf (!s)
  | .fin s m e => .fin (!s) m e

/-- The value is zero. -/
def Num.isZero : Num → Bool
  | .fin _ 0 _ => true
  | _ => false

/-- The value is a number and not an infinity. -/
def Num.isFinite : Num → Bool
  | .fin _ _ _ => true
  | _ => false

/-- Exact sum; an exact zero of unlike signs is +0 (IEEE 754-2019, RNE and RTZ). -/
def Num.add : Num → Num → Num
  | .nan, _ => .nan
  | _, .nan => .nan
  | .inf a, .inf b => if a = b then .inf a else .nan
  | .inf a, .fin _ _ _ => .inf a
  | .fin _ _ _, .inf b => .inf b
  | .fin a m e, .fin b n f =>
    if m = 0 ∧ n = 0 then .fin (a && b) 0 0
    else
      let g := min e f
      let x := shlInt m (e - g)
      let y := shlInt n (f - g)
      if a = b then .fin a (x + y) g
      else if x = y then .fin false 0 0
      else if x > y then .fin a (x - y) g
      else .fin b (y - x) g

/-- Exact product. -/
def Num.mul : Num → Num → Num
  | .nan, _ => .nan
  | _, .nan => .nan
  | .inf a, .inf b => .inf (a != b)
  | .inf a, .fin b m _ => if m = 0 then .nan else .inf (a != b)
  | .fin a m _, .inf b => if m = 0 then .nan else .inf (a != b)
  | .fin a m e, .fin b n f => .fin (a != b) (m * n) (e + f)

/-- Quotient in FP32. -/
def divF32 (md : Rnd) (x y : Num) : Word :=
  match x, y with
  | .nan, _ => f32NaN
  | _, .nan => f32NaN
  | .inf _, .inf _ => f32NaN
  | .inf a, .fin b _ _ => (Num.inf (a != b)).toF32 md false
  | .fin a _ _, .inf b => packF32 (a != b) 0 0 true
  | .fin a m e, .fin b n f =>
    if n = 0 then (if m = 0 then f32NaN else (Num.inf (a != b)).toF32 md false)
    else magToF32 md false (a != b) m n (e - f)

/-- FP32 addition, with subnormals kept. -/
def fadd (md : Rnd) (a b : Word) : Word := ((ofF32 a).add (ofF32 b)).toF32 md false
/-- FP32 subtraction. -/
def fsub (md : Rnd) (a b : Word) : Word := ((ofF32 a).add (ofF32 b).neg).toF32 md false
/-- FP32 multiplication. -/
def fmul (md : Rnd) (a b : Word) : Word := ((ofF32 a).mul (ofF32 b)).toF32 md false
/-- FP32 fused multiply-add. -/
def ffma (md : Rnd) (a b c : Word) : Word := (((ofF32 a).mul (ofF32 b)).add (ofF32 c)).toF32 md false
/-- FP32 division. -/
def fdiv (md : Rnd) (a b : Word) : Word := divF32 md (ofF32 a) (ofF32 b)
/-- FP32 addition with RNE and flush (R95, R96, R98). -/
def faddFlush (a b : Word) : Word := ((ofF32 a).add (ofF32 b)).toF32 .rne true
/-- FP32 multiplication with RNE and flush (R96). -/
def fmulFlush (a b : Word) : Word := ((ofF32 a).mul (ofF32 b)).toF32 .rne true

/-- The square root of an FP32 value, RNE: the update rules' only root. -/
def fsqrt (a : Word) : Word :=
  match ofF32 a with
  | .nan => f32NaN
  | .inf neg => if neg then f32NaN else a
  | .fin neg m e =>
    if m = 0 then a
    else if neg then f32NaN
    else
      -- scale so that the exponent is even and the root has at least 26 bits; a remainder makes it odd
      let s : Int := 60 - (e % 2)
      let big := shlInt m s
      let r := Nat.sqrt big
      let st := if r * r = big then 0 else 1
      magToF32 .rne false false (2 * r + st) 1 ((e - s) / 2 - 1)

/-- The magnitude order of two FP32 words, by their bits below the sign. -/
def magOf (w : Word) : Nat := w.toNat % 2 ^ 31

/-- The word is NaN. -/
def isNaN32 (w : Word) : Bool := decide (magOf w > 0x7F800000)
/-- The word is finite. -/
def isFinite32 (w : Word) : Bool := decide (magOf w < 0x7F800000)
/-- The word is a zero. -/
def isZero32 (w : Word) : Bool := decide (magOf w = 0)
/-- FP32 order of words that are not NaN. -/
def flt (a b : Word) : Bool :=
  let na := bitOf a.toNat 31
  let nb := bitOf b.toNat 31
  if magOf a = 0 ∧ magOf b = 0 then false
  else if na && !nb then true
  else if !na && nb then false
  else if na then decide (magOf b < magOf a)
  else decide (magOf a < magOf b)

/-- The parameters of a floating-point format of R73: exponent bits, fraction bits, bias, the largest
finite value as n 2^k, and whether it has infinities. -/
structure FmtP where
  eb : Nat
  fb : Nat
  bias : Nat
  maxN : Nat
  maxE : Int
  hasInf : Bool
deriving DecidableEq, Repr

/-- Bits of a format code; 0 for a reserved code. -/
def fmtBits (f : Nat) : Nat :=
  match f with
  | 0 => 32 | 1 => 16 | 2 => 16 | 3 => 8 | 4 => 8 | 5 => 4 | 6 => 8 | 7 => 4 | 8 => 2 | 9 => 1 | _ => 0

/-- The floating-point formats of R73. -/
def fmtP (f : Nat) : Option FmtP :=
  match f with
  | 0 => some ⟨8, 23, 127, 2 ^ 24 - 1, 104, true⟩
  | 1 => some ⟨8, 7, 127, 255, 120, true⟩
  | 2 => some ⟨5, 10, 15, 2047, 5, true⟩
  | 3 => some ⟨4, 3, 7, 14, 5, false⟩
  | 4 => some ⟨5, 2, 15, 7, 13, true⟩
  | 5 => some ⟨2, 1, 1, 3, 1, false⟩
  | _ => none

/-- maxfin of R81: 6, 127, 7 and the largest finite values of R73, as an exact value. -/
def maxFin (f : Nat) : Num :=
  match fmtP f with
  | some p => .fin false p.maxN p.maxE
  | none => if f = 6 then .fin false 127 0 else if f = 7 then .fin false 7 0 else .fin false 1 0

/-- emax of R81. -/
def eMax (f : Nat) : Int :=
  match f with
  | 5 => 2 | 3 => 8 | 4 => 15 | 6 => 6 | 7 => 2 | _ => 0

/-- The exact value of an element code (R73 to R75). -/
def decodeElem (f c : Nat) : Num :=
  match fmtP f with
  | some p =>
    let neg := bitOf c (p.eb + p.fb)
    let ex := bitsOf c (p.eb + p.fb - 1) p.fb
    let fr := bitsOf c (p.fb - 1) 0
    if p.hasInf ∧ ex = 2 ^ p.eb - 1 then (if fr = 0 then .inf neg else .nan)
    else if f = 3 ∧ ex = 15 ∧ fr = 7 then .nan
    else if ex = 0 then .fin neg fr (1 - (p.bias : Int) - p.fb)
    else .fin neg (fr + 2 ^ p.fb) ((ex : Int) - p.bias - p.fb)
  | none =>
    let v : Int := if f = 6 then signed 8 c else if f = 7 then signed 4 c
      else if f = 8 then signed 2 c else if c % 2 = 0 then 1 else -1
    .fin (decide (v < 0)) v.natAbs 0

/-- The outcome of encoding one element: its code, an overflow of R82, and whether the destination asks
for a NaN block scale (E2M1 alone). -/
structure Enc where
  code : Nat
  ovf : Bool
  scaleNaN : Bool
deriving DecidableEq, Repr

/-- Encodes an exact value in a format (R82, R83); `prop` is OVF = PROPAGATE. -/
def encodeElem (f : Nat) (md : Rnd) (prop : Bool) (x : Num) : Enc :=
  match fmtP f with
  | none =>
    let w := fmtBits f
    let lim := if f = 6 then 127 else 7
    match x with
    | .nan => ⟨0, false, false⟩
    | .inf neg => ⟨unsigned w (if neg then -(lim : Int) else lim), false, false⟩
    | .fin neg m e =>
      let n := roundQ md (shlInt m e) (shlInt 1 (-e))
      let k : Int := min n lim
      ⟨unsigned w (if neg then -k else k), decide (n > lim), false⟩
  | some p =>
    let sgn (neg : Bool) : Nat := boolNat neg * 2 ^ (p.eb + p.fb)
    let inf := (2 ^ p.eb - 1) * 2 ^ p.fb
    let qnan := if f = 3 then 0x7F else inf + 2 ^ (p.fb - 1)
    let top := if p.hasInf then inf - 1 else if f = 3 then 0x7E else 7
    match x with
    | .nan => if f = 5 then ⟨0, false, true⟩ else ⟨qnan, false, false⟩
    | .inf neg =>
      if !prop then ⟨sgn neg + top, false, false⟩
      else if p.hasInf then ⟨sgn neg + inf, false, false⟩
      else if f = 3 then ⟨qnan, false, false⟩ else ⟨0, false, true⟩
    | .fin neg m e =>
      let (n, lsb) := roundMag md p.fb (some (1 - (p.bias : Int))) m 1 e
      if n = 0 then ⟨sgn neg, false, false⟩
      else if lsb > p.maxE ∨ (lsb = p.maxE ∧ n > p.maxN) then
        -- an overflow: the mode decides between the largest finite value and infinity under PROPAGATE
        let away := match md with
          | .rtz => false
          | .sr _ => decide (roundMag .rtz p.fb (some (1 - (p.bias : Int))) m 1 e ≠ (n, lsb))
          | _ => true
        if !prop then ⟨sgn neg + top, true, false⟩
        else if p.hasInf then ⟨sgn neg + (if away then inf else top), true, false⟩
        else if f = 3 then ⟨qnan, true, false⟩ else ⟨0, true, true⟩
      else if n < 2 ^ p.fb then ⟨sgn neg + n, false, false⟩
      else ⟨sgn neg + (lsb + p.fb + p.bias).toNat * 2 ^ p.fb + (n - 2 ^ p.fb), false, false⟩

/-- The value of a block scale code in form MX32 (2) or FINE16 (3) (R79). -/
def blockScale (form c : Nat) : Num :=
  if form = 2 then (if c = 255 then .nan else .fin false 1 ((c : Int) - 127))
  else if form = 3 then decodeElem 3 (c % 128)
  else .fin false 1 0

/-- The block length of a scale form (R77). -/
def blockLen (form : Nat) : Nat := if form = 2 then 32 else 16

/-- The legal pairings of R78. -/
def legalPair (f form : Nat) : Bool :=
  if f = 0 then form == 0
  else if f ≤ 2 then form ≤ 1
  else if f = 3 ∨ f = 4 ∨ f = 6 then decide (1 ≤ form)
  else decide (2 ≤ form ∧ f ≤ 9)

/-- A 64-bit product and sum of the draw generator. -/
def mul64 (a b : Nat) : Nat := a * b % 2 ^ 64

/-- The four draws of block j of a stream (R90). -/
def srBlock (seed w id j : Nat) : Nat :=
  let s := Nat.xor (Nat.xor seed (mul64 w 0x9E3779B97F4A7C15)) (mul64 id 0xD1B54A32D192ED03)
  let z := (s + mul64 (j + 1) 0x9E3779B97F4A7C15) % 2 ^ 64
  let z := mul64 (Nat.xor z (z >>> 30)) 0xBF58476D1CE4E5B9
  let z := mul64 (Nat.xor z (z >>> 27)) 0x94D049BB133111EB
  Nat.xor z (z >>> 31)

/-- Draw i of a stream (R90): SR_SEED, waypoint number, stream identifier. -/
def srDraw (seed w id i : Nat) : Nat :=
  bitsOf (srBlock seed (w % 2 ^ 64) id (i / 4)) (16 * (i % 4) + 15) (16 * (i % 4))

/-- The rounding mode a 2-bit field names, with its draw. -/
def rndOf (code u : Nat) : Rnd := if code = 0 then .rne else if code = 1 then .rtz else .sr u

/-- One round of the pairwise pattern of R99, in a rounding mode. -/
def pairRound (rnd : Rnd) : List Word → List Word
  | a :: b :: r => fadd rnd a b :: pairRound rnd r
  | l => l

/-- The pairwise sum of R99, FP32 with subnormals kept, in a rounding mode. -/
def pairSumBy (rnd : Rnd) (l : List Word) : Word := (iterate (pairRound rnd) (Nat.log2 l.length + 1) l).headD 0

/-- The pairwise sum of R99 with RNE. -/
def pairSum (l : List Word) : Word := pairSumBy .rne l

/-- A result with every NaN made canonical (R101). -/
def canonNaN (w : Word) : Word := if isNaN32 w then f32NaN else w

end Sys2Proof.Machine
end

