-- ==== Sys2Proof/Machine/Map.lean ====
section
/-! DEFINITION. Sparse tables in one canonical form: keys strictly rising and no entry equal to what an
unlisted key reads as. Registers, counters and every other numbered collection of the block are held so.
Memory (rows that have no default byte, R427) uses `Mem`, where every listed entry stays listed. -/

namespace Sys2Proof.Machine

/-- A sparse table from numbers to values. -/
abbrev Map (α : Type) := List (Nat × α)

/-- The listed value of a key. -/
def Map.find {α : Type} (m : Map α) (k : Nat) : Option α :=
  match m with
  | [] => none
  | e :: r => if e.1 = k then some e.2 else Map.find r k

/-- The value of a key; `d` gives what an unlisted key reads as. -/
def Map.get {α : Type} (d : Nat → α) (m : Map α) (k : Nat) : α :=
  (Map.find m k).getD (d k)

/-- The table without a key. -/
def Map.drop {α : Type} (m : Map α) (k : Nat) : Map α :=
  match m with
  | [] => []
  | e :: r => if e.1 = k then Map.drop r k else e :: Map.drop r k

/-- The table with an entry put in at its place. -/
def Map.add {α : Type} (m : Map α) (k : Nat) (v : α) : Map α :=
  match m with
  | [] => [(k, v)]
  | e :: r => if k < e.1 then (k, v) :: e :: r else e :: Map.add r k v

/-- Sets a key, keeping the canonical form. -/
def Map.put {α : Type} [DecidableEq α] (d : Nat → α) (m : Map α) (k : Nat) (v : α) : Map α :=
  if v = d k then Map.drop m k else Map.add (Map.drop m k) k v

/-- Lists a key whatever its value: the form memory takes, where an unlisted byte has no value. -/
def Map.set {α : Type} (m : Map α) (k : Nat) (v : α) : Map α :=
  Map.add (Map.drop m k) k v

/-- Keys strictly rising. -/
def Map.rising {α : Type} : Map α → Bool
  | [] => true
  | [_] => true
  | a :: b :: r => decide (a.1 < b.1) && Map.rising (b :: r)

/-- No entry equal to its key's default. -/
def Map.lean {α : Type} [DecidableEq α] (d : Nat → α) (m : Map α) : Bool :=
  m.all fun e => decide (e.2 ≠ d e.1)

/-- The canonical form. -/
def Map.wf {α : Type} [DecidableEq α] (d : Nat → α) (m : Map α) : Bool :=
  Map.rising m && Map.lean d m

end Sys2Proof.Machine
end

