-- ==== Sys2Proof/Machine/Parts.lean ====
section
/-! DEFINITION. The pieces of state that are no register: sequencers, chains, rings, the signal net,
arbiters, units and the waypoint in progress, each as the manual describes it. All plain data. -/

namespace Sys2Proof.Machine

/-! ### Chiplets ("Bundles, Schedules and Routes", "Matrix Arrays, Vector Engines and Chain Sums") -/

/-- Where a main stream or serving program stands. -/
inductive Run where
  /-- not started, or arrived at the waypoint (R177) -/
  | idle
  /-- issuing bundles -/
  | running
  /-- stopped at a WAIT or ARRIVE until the counter (base die × 4096 + number) reaches the value (R204) -/
  | waiting (ctr : Nat) (value : Word)
  /-- the final bundle has retired -/
  | ended
deriving DecidableEq, Repr

/-- The register classes of R182 that hold results. -/
inductive RClass where
  | s | p | v | q | tile
deriving DecidableEq, Repr

/-- A result still pending in one stream: ready at a value of that stream's schedule clock (R163, R165). -/
structure PendRes where
  cls : RClass
  idx : Nat
  ready : Nat
deriving DecidableEq, Repr

/-- One stream of a step: schedule clock, pending results, array busy times, registers written (R163 to R169). -/
structure Stream where
  clock : Nat := 0
  pend : List PendRes := []
  busy : List (Nat × Nat) := []
  written : List (RClass × Nat) := []
  marker : Nat := 0
deriving DecidableEq, Repr

/-- What ends the life of a range (R165): a schedule time, or a WAIT on a completion counter. -/
inductive RangeEnd where
  | clock (t : Nat)
  | copy (ctr : Nat) (value : Nat)
deriving DecidableEq, Repr

/-- One entry of the range table: runs of 64-byte grains of the local offset map, first and last. -/
structure Range where
  deferred : Bool
  runs : List (Nat × Nat)
  write : Bool
  until_ : RangeEnd
deriving DecidableEq, Repr

/-- One operand stream of a tile: where it lies and how it is coded (R430, R85). -/
structure Operand where
  addr : Nat
  scale : Nat
  rows : Nat
  fmt : Nat
  form : Nat
  narrow : Bool
  slot : Nat
deriving DecidableEq, Repr

/-- The phase of an accumulation that is not accepted yet. -/
inductive AccPhase where
  | running
  | resight
  | standin
deriving DecidableEq, Repr

/-- An accumulation in flight: one array's tile (R132, R116 to R119, R147). `start` is the restart
buffer, `value` the result so far, `passA` and `passB` the thresholds passed. -/
structure Accum where
  array : Nat
  tile : Nat
  a : Operand
  b : Operand
  k : Nat
  accum : Bool
  start : List Word
  value : List Word
  passA : Bool
  passB : Bool
  chain : List Byte
  pos : Nat
  phase : AccPhase
  sighted : Bool := false
deriving DecidableEq, Repr

/-- A member's accepted tile held in its chain unit, or a void (R134, R168). Chains are told apart by
their descriptor. -/
structure ChainOwn where
  desc : List Byte
  pos : Nat
  value : Option (List Word)
deriving DecidableEq, Repr

/-- A running sum that has arrived at a chain unit: the sum up to and with member `pos` (R134). -/
structure RunSum where
  desc : List Byte
  pos : Nat
  value : Option (List Word)
deriving DecidableEq, Repr

/-- A register written by a slot. -/
inductive RegWrite where
  | s (i : Nat) (v : DWord)
  | v (e i : Nat) (lanes : List Word)
  | q (e i : Nat) (mask : BitVec 512)
deriving DecidableEq, Repr

/-- What a CTRL slot does to the stream. -/
inductive Ctrl where
  | next
  | jump (target : Nat)
  | endStream
  | idle (n : Nat)
  | mark (m : Nat)
  | defer (start count : Nat)
deriving DecidableEq, Repr

/-- An accumulation write of R136: destination, tag, microbatch, data (none: void) and writer; how often it has been returned
(R138), and when its backoff ends. -/
structure AccWrite where
  die : Nat
  region : Nat
  block : Nat
  tag : Nat
  m : Nat
  data : Option (List Word)
  writer : Requester
  returns : Nat := 0
  waitTill : Nat := 0
deriving DecidableEq, Repr

/-- Two entries are one write. -/
def AccWrite.same (v w : AccWrite) : Bool :=
  v.die == w.die && v.region == w.region && v.block == w.block && v.tag == w.tag && v.m == w.m && v.writer == w.writer

/-- An operation on its way on the signal net (R203, R204). -/
inductive SigAct where
  | add (v : Nat)
  | set (v : Nat)
deriving DecidableEq, Repr

/-- A signal operation: counter (base die × 4096 + number), action, the chiplet that issued it, and the accumulation writes
of that chiplet that were still to be answered then (R45). -/
structure SigOp where
  ctr : Nat
  act : SigAct
  src : Option Nat
  after : List AccWrite := []
deriving DecidableEq, Repr

/-- A torus injection of a chain end (KIND 3): injection slot and sum. -/
structure Inject where
  slot : Nat
  data : Option (List Word)
  chiplet : Nat
deriving DecidableEq, Repr

/-- Everything one slot does, read in the issue cycle and applied when its bundle retires (R155, R167). -/
structure SlotFx where
  slot : Nat
  cause : Nat := 0
  early : Nat := 0
  rclass : Nat := 0
  rindex : Nat := 0
  dests : List (RClass × Nat) := []
  ctrl : Ctrl := .next
  regs : List RegWrite := []
  pend : List PendRes := []
  busy : List (Nat × Nat) := []
  ranges : List Range := []
  mem : List (Nat × List Byte) := []
  accums : List Accum := []
  voids : List ChainOwn := []
  accWrites : List AccWrite := []
  skipAcc : List AccWrite := []
  sigs : List SigOp := []
  events : List (Nat × Nat) := []
  wait : Option (Nat × Word) := none
  census : List (Nat × CensusRep) := []
  draws : Bool × Bool := (false, false)
  copy : Option (List Byte) := none
  copyCtr : Option Nat := none
  violation : Option Nat := none
  uncorr : Bool := false
  bads : List Nat := []
  frees : Nat := 0
deriving DecidableEq, Repr

/-- What a serving chiplet has latched of a waypoint's change set while a request ran (R29): the new waypoint
number, whether the outcome was COMMIT, the patch descriptors that name it, whether its banks swap, and of part (e) the
stand-ins it held and the retirement asked of it at the gather instant (R149, R150). -/
structure Latch where
  wpn : Nat
  commit : Bool
  patches : List (List Byte)
  swap : Bool
  standins : List (Nat × Nat) := []
  retire : Option Nat := none
deriving DecidableEq, Repr

/-- One logical chiplet: its sequencer, register files, arrays and chain unit. -/
structure Chiplet where
  run : Run := .idle
  pc : Nat := 0
  lastPc : Nat := 0
  bank : Bool := false
  tainted : Bool := false
  skipped : Bool := false
  uncorr : Bool := false
  main : Stream := {}
  dfr : Stream := {}
  mainDone : Bool := false
  section_ : Option (Nat × Nat) := none
  resumePc : Nat := 0
  fillWait : Option (Nat × Word) := none
  dwq : List (Nat × Nat) := []
  pendingDefer : Option (Nat × Nat) := none
  bundle : List SlotFx := []
  s : Map DWord := []
  p : Map DWord := []
  v : Map (List Word) := []
  q : Map (BitVec 512) := []
  acc : Map (List Word) := []
  ranges : List Range := []
  copies : List (Nat × Bool × Nat) := []
  drawIdx : Nat × Nat := (0, 0)
  accums : List Accum := []
  rsUsed : Nat := 0
  chainOwn : List ChainOwn := []
  chainIn : List RunSum := []
  standins : List (Nat × Nat) := []
  retireReq : Option Nat := none
  serve : Option (Nat × Nat) := none
  serveBuf : Bool := false
  latched : List Latch := []
  opsOut : Nat := 0
deriving DecidableEq, Repr

/-! ### Rings ("Rings, Signals and Arbitration") -/

/-- The states of a ring (R184) and of a ring whose function or ward is being fenced. -/
inductive RingState where
  | off | ready | active | frozen | fencing | draining
deriving DecidableEq, Repr

/-- A descriptor in flight: ring index, its 64 bytes, its final status and detail once it has one, the
time it was first refused, the unit that executes it, whether that unit has accepted it, and the status and detail it
gets once other modules have answered its writes, with the bytes whose STEP_BYTES signals wait for that. -/
structure Flight where
  idx : Nat
  bytes : List Byte
  status : Option (Nat × Nat) := none
  refused : Option Nat := none
  retryAt : Option Nat := none
  refusals : Nat := 0
  unit : Option Nat := none
  accepted : Bool := false
  outcome : Nat × Nat := (0, 0)
  steps : Nat := 0
deriving DecidableEq, Repr

/-- Work that runs on in the module after a function-level reset has ended its descriptor (R356): the number it goes by in place
of its ring's, past every ring, its index, the class and window set of its ring, its descriptor as it was in flight, and the
key it works with. -/
structure Ghost where
  ring : Nat
  idx : Nat
  cls : Nat
  wset : Nat
  flight : Flight
  key : List Byte
deriving DecidableEq, Repr

/-- Who waits for the answer of another module: a descriptor in flight (for `gather`, with the global address it reads
at), a COPY slot with its counter, or nobody. -/
inductive RemoteUse where
  | flight (ring idx : Nat)
  | gather (ring idx a : Nat)
  | slot (c ctr : Nat)
  | dropped
deriving DecidableEq, Repr

/-- Bytes of another module that a descriptor in flight has read: ring, index, global address. -/
structure Fetched where
  ring : Nat
  idx : Nat
  at_ : Nat
  data : List Byte
deriving DecidableEq, Repr

/-- Where the bytes of a move go: nowhere, a global address, host memory. -/
inductive MoveDest where
  | none
  | mem (a : Nat)
  | host (die a : Nat)
deriving DecidableEq, Repr

/-- An access to another module of the pod that has not been answered (R52): the module and the offset there, whether it
went on a SERVE channel, who waits; for a read its length and where its bytes go, for a write its data. -/
structure Remote where
  dev : Nat
  off : Nat
  serve : Bool
  use : RemoteUse
  dest : MoveDest
  len : Nat
  data : List Byte
deriving DecidableEq, Repr

/-- A ring: state, the state it leaves for once its flights complete, flights, next index to start, the
completion phase, whether its records, interrupts and host data are discarded (R356), when its drain began, and how many of
its flights leave a HEAD that was rewritten alone (R199). -/
structure Ring where
  st : RingState := .off
  leaving : Option RingState := none
  flights : List Flight := []
  next : Nat := 0
  phase : Bool := true
  discard : Bool := false
  drainAt : Nat := 0
  stale : Nat := 0
deriving DecidableEq, Repr

/-! ### Arbiters (R206 to R208) -/

/-- One port of an arbiter. -/
structure ArbPort where
  chan : Chan := .request
  raised : Bool := false
  losses : Nat := 0
  since : Option Nat := none
  urgentAt : Option Nat := none
  backoffAt : Option Nat := none
deriving DecidableEq, Repr

/-- One arbiter: the grant in force (port and cycle), the port granted last, its ports. -/
structure Arb where
  owner : Option (Nat × Nat) := none
  last : Nat := 63
  ports : Map ArbPort := []
deriving DecidableEq, Repr

/-! ### Units and fences ("Fences, Hangs, Dumps and Re-Entry") -/

/-- The phases of the fence sequence of R358. -/
inductive Phase where
  | normal
  | fencing
  | draining
  | dumping
  | reset
  | probation
  /-- probation has ended; admission waits for a waypoint (R361) -/
  | waiting
  | quarantined
deriving DecidableEq, Repr

/-- Why a unit is fenced. -/
inductive FenceKind where
  | host
  | unitReset
  | watchdog
  | selfTest
  | wider
deriving DecidableEq, Repr

/-- What the binnacle keeps of one unit of R357. -/
structure UnitSt where
  phase : Phase := .normal
  kind : FenceKind := .host
  frozen : Bool := false
  code : Nat := 0
  prev : Nat := 0
  since : Nat := 0
  drained : Nat := 0
  probEnd : Nat := 0
  dumpDue : Bool := false
  dumpCause : Nat := 0
  fenceAt : Nat := 0
  fenceWp : Nat := 0
  timedOut : Bool := false
  dumpTaken : Bool := false
  dumpSkipped : Bool := false
  waitsFor : List UnitId := []
  saved : List (Nat × DWord) := []
  history : List Nat := []
  lastReset : Nat := 0
  wdValue : Word := 0
  wdSince : Option Nat := none
  expired : Bool := false
deriving DecidableEq, Repr

/-- A dump being taken or held (R369, R370): the unit, the cause, the timestamp and the waypoint number at the fence,
the local offsets of words that did not answer, and the bytes once it is held. -/
structure Dump where
  unit : UnitId
  cause : Nat
  time : Nat
  waypoint : Nat
  marks : List Nat := []
  bytes : List Byte := []
deriving DecidableEq, Repr

/-! ### Power, clocks and firmware ("Power States, Clocks and the Wake Pin", "Fences, Hangs, Dumps and Re-Entry") -/

/-- A change of power state in progress (R341, R342, R344). -/
inductive Transition where
  | none
  | entering
  | leaving
  | booting
deriving DecidableEq, Repr

/-- The power controller: inputs valid, the filtered WAKE_IN level, the thermal-trip latch, THERMTRIP_N's cause for
the next WATCH, PWR_GOOD and when it rose, the transition in progress and a request that waits for its end, issue cycles in four held
by the fast loop, the clock targets of the limiter and of thermal throttling in MHz, the input samples (time, power in
10 µW units) of the averaging window, and whether some sample of the millisecond was not 50 W below the target; when the holds last
grew, the part of a held cycle that is not counted yet, in quarters of 1/1000 cycle, and the host dies whose PCIe link is still to
train. -/
structure Pwr where
  mainOk : Bool := true
  standbyOk : Bool := true
  wake : Bool := false
  tripLatch : Bool := false
  tripped : Bool := false
  good : Bool := false
  goodAt : Nat := 0
  change : Transition := .none
  waiting : Option Nat := none
  held : Nat := 0
  limit : Nat := 2200
  thermal : Nat := 2200
  samples : List (Nat × Nat) := []
  close : Bool := false
  heldAt : Nat := 0
  heldPart : Nat := 0
  untrained : List Nat := []
deriving DecidableEq, Repr

/-- A ward's fast clock (R346 to R348): starting, starts that have failed in a row, idle since, and the down-spread it was
started with, in 0.1 % steps. -/
structure WardClock where
  starting : Bool := false
  fails : Nat := 0
  idleSince : Nat := 0
  depth : Nat := 0
deriving DecidableEq, Repr

/-- A copy of the boot descriptor at the start of the flash (R372): whether it names image B active, and the states of the images, which
have passed their checks or have not. -/
structure BootDesc where
  active : Bool := false
  aOk : Bool := true
  bOk : Bool := true
deriving DecidableEq, Repr

/-- The binnacle's firmware in the 64 MiB flash (R372 to R375): the two copies of the boot descriptor, at 0x0000_0000, the bytes written
to image A, at 0x0001_0000, and to image B, at 0x0181_0000 (the soft-repair region of 0x0301_0000 is State.softRegion); which image runs,
whether the boot ROM fell back to it, and the restart in progress with its start. -/
structure Firmware where
  boot0 : BootDesc := {}
  boot1 : BootDesc := {}
  imageA : List Host.Cell := []
  imageB : List Host.Cell := []
  running : Bool := false
  fallback : Bool := false
  restart : Option Nat := none
deriving DecidableEq, Repr

/-- Both copies of the boot descriptor are written. -/
def Firmware.setBoot (f : Firmware) (d : BootDesc) : Firmware := { f with boot0 := d, boot1 := d }

/-- The bytes written to an image; B is true. -/
def Firmware.image (f : Firmware) (b : Bool) : List Host.Cell := if b then f.imageB else f.imageA

/-- An image is marked valid in a boot descriptor. -/
def BootDesc.ok (d : BootDesc) (b : Bool) : Bool := if b then d.bOk else d.aOk

/-- The straps and pins of J_SB, the TAP and the OSFP cages (R402, R408, R415): SMBus strap value, CLK_MODE, TRST_N held
low, the boundary-scan instruction loaded, the far ports whose cable is held in low-power mode. -/
structure Pads where
  smbAddr : BitVec 2 := 0
  clkMode : Bool := false
  tapReset : Bool := false
  tap : TapInstr := .bypass
  lowPower : List Nat := []
deriving DecidableEq, Repr

/-! ### The waypoint ("Legs, Fixes and Waypoints") -/

/-- One arrival message (R16): who, its non-finite and taint flags, and the registers of the pending changes that
concern it whose ready bit it sets, RT_SWAP_REQ among them for a bank swap of its own. -/
structure Arrival where
  who : Participant
  nf : Bool
  taint : Bool
  ready : List Nat := []
deriving DecidableEq, Repr

/-- One pass due after a waypoint (R224), or a sweep (R238). Outer steps carry the descriptor they come
from: ring, index, round, FP32 source, host source, source address; a null step carries the descriptor
that asked for it, if one did. -/
inductive UpdPass where
  | step
  | outer (ring idx round : Nat) (fp32 host : Bool) (src : Nat)
  | null (round : Nat) (of_ : Option (Nat × Nat))
  | derive_ (ring idx first count : Nat)
  | sweep (ring idx : Nat)
deriving DecidableEq, Repr

/-- A waypoint between its gather instant and WAYPOINT_DONE: what the controller latched (R17). -/
structure Gather where
  time : Nat
  nf : Bool
  taint : Bool
  start : Bool
  acks : List Participant := []
  deferred : Bool := false
  swaps : List Nat := []
  outers : List UpdPass := []
deriving DecidableEq, Repr

/-- The waypoint controller's own state. -/
structure Wp where
  job : Bool := false
  stopping : Bool := false
  startBy : Option (Nat × Nat) := none
  stopBy : List (Nat × Nat) := []
  arrived : List Arrival := []
  firstArrival : Option Nat := none
  timeoutRaised : Bool := false
  late : List Participant := []
  gather : Option Gather := none
  legStart : Nat := 0
  legLen : Nat := 1
  closeAt : Option (Nat × Nat) := none
  refreshCount : Nat := 0
  refreshDue : Bool := false
  flipPending : Bool := false
  flags : Nat := 0
  phases : Map Nat := []
  trained : Nat := 64
  rsTiles : Nat := 0
  serveDone : Nat := 0
  taintRead : Bool := false
deriving DecidableEq, Repr

/-- A staged slot write (R104): slot, T, CONFIG, clear history. -/
structure Staged where
  slot : Nat
  t : Word
  cfg : Word
  clear : Bool
deriving DecidableEq, Repr

/-! ### Repairs (R60, R61) -/

/-- One defect the repair map repairs: type, unit, instance, location. -/
structure Mend where
  typ : Nat
  unit : Nat
  inst : Nat
  loc : Nat
deriving DecidableEq, Repr

/-! ### Update engines ("Parameter State and the Update Engines") -/

/-- One update engine. `todo` holds while passes wait for UPDATE_PASS_START, `running` while they run;
`due` are the passes of each entry in order and the sweeps, `idx` the pass in progress, `entry` the map
entry, `block` the block within it, `pos` the position q of its first block, `wpn` the waypoint of the
passes and `exp` the EXP they unscale with; `jptr` is the journal ring pointer, `sweeping` holds once the
sweeps have come, `resumed` after an interruption (R234), `rsum` is the sum of R229; `later` are the DERIVE
and SWEEP passes accepted for the next waypoint, `mapOk` the pending map that was validated good, `held` what was left of a pass
when a halt or a reset stopped it. -/
structure UpdEng where
  todo : Bool := false
  running : Bool := false
  due : List UpdPass := []
  idx : Nat := 0
  entry : Nat := 0
  block : Nat := 0
  pos : Nat := 0
  wpn : Nat := 0
  exp : Int := 0
  jptr : Nat := 0
  sweeping : Bool := false
  resumed : Bool := false
  recovering : Bool := false
  rsum : Word := 0
  later : List UpdPass := []
  mapOk : Option Nat := none
  held : List UpdPass := []
deriving DecidableEq, Repr

/-- An UPDATE descriptor at work: ring, index, engines still to finish it, blocks its sweeps checked. -/
structure UpdOpen where
  ring : Nat
  idx : Nat
  left : List Nat
  checked : Nat := 0
deriving DecidableEq, Repr

/-- The rule parameters of a variant slot (R239). -/
structure Variant where
  ctl : Word := 0x20000001
  lr : Word := 0
  beta1 : Word := 0x3F666666
  beta2 : Word := 0x3F7FBE77
  eps : Word := 0x322BCC77
  wd : Word := 0
  step : Word := 0
deriving DecidableEq, Repr

/-! ### Torus links and the collective unit ("Pods, Torus Links and Relay Planes") -/

/-- Packets of one message on their way into DATA flits: whether they are this module's own, their virtual channel and number, whether a
flit of them has left, the message where it ends with them, and the payloads still to go (R249, R264). -/
structure OutRun where
  own : Bool
  vc : Nat
  packets : Nat
  begun : Bool
  whole : Option TorusPacket
  flits : List (List Byte)
deriving DecidableEq, Repr

/-- One torus link die: the next SEQ to send and the SEQ expected, the replay buffer (SEQ, payload) from the
oldest flit on, whether the receiver is in a discard episode, the replays begun at one SEQ in a row, failed
retrains in a row, when an ACK last advanced, credits by virtual channel, packets waiting for credits, how many packets of
the first message of a channel have gone, the credits owed, the flits waiting for room, and its cable (R249, R250, R406). -/
structure Link where
  txSeq : Nat := 0
  rxExp : Nat := 0
  replay : List (Nat × List Byte) := []
  nak : Bool := false
  replays : Nat := 0
  replayAt : Nat := 0
  fails : Nat := 0
  ackSince : Nat := 0
  credits : Map Nat := []
  txq : List (TorusPacket × Option (Nat × Nat)) := []
  sent : Map Nat := []
  owed : Map Nat := []
  outq : List OutRun := []
  present : Bool := false
  cablePower : Bool := false
  tripped : Bool := false
deriving DecidableEq, Repr

/-- A running sum that has reached a member: axis, shard, tile, whether it belongs to the chain from the
high end, value (none: void). -/
structure CollRecv where
  axis : Nat
  shard : Nat
  t : Nat
  high : Bool
  value : Option (List Word)
deriving DecidableEq, Repr

/-- The state of one collective entry in a step (R259 to R263). -/
structure CollEntry where
  started : Option Nat := none
  done : Bool := false
  failed : Bool := false
  present : List (Nat × Bool) := []
  recv : List CollRecv := []
  sums : List CollRecv := []
  tasks : List (Nat × Nat × Nat) := []
  words : List (Nat × Nat × DWord) := []
  stage : Nat := 0
  word : DWord := 0
  early : Option (Nat × Bool × List Byte) := none
  receipts : List (Nat × Nat × Nat) := []
  barrier : List Nat := []
  sent : Bool := false
deriving DecidableEq, Repr

/-- A FETCH held by the owner: entry, who asks, source, tiles, gate counter and value, when it came. -/
structure HeldFetch where
  entry : Nat
  dev : Nat
  src : Nat
  tiles : Nat
  gate : Nat
  value : Nat
  since : Nat
deriving DecidableEq, Repr

/-! ### Cipher engines ("Cipher Engine and Key Epochs") -/

/-- A key slot: USE (0 FREE, 1 HOST, 2 WIRE), owner, key, and whether it has served as an epoch key since it was
loaded (R317, R328). -/
structure KeySlot where
  use : Nat := 0
  owner : Nat := 0
  key : List Byte := []
  served : Bool := false
deriving DecidableEq, Repr

/-- A frame that waits for a cipher core before it is transmitted: one of a stream, or a control packet to a partner. -/
inductive TxUnit where
  | stream (num : Nat)
  | control (partner : Nat) (f : Frame)
deriving DecidableEq, Repr

/-- Whose unit an AES core works on (R315). -/
inductive CoreWork where
  | receive
  | transmit (u : TxUnit)
  | descriptor (ring idx : Nat)
deriving DecidableEq, Repr

/-- A CIPHER descriptor in an engine's request queue: ring, index, key slot, units not yet given to a core,
units not yet done, and whether a core has worked on it. -/
structure CipherJob where
  ring : Nat
  idx : Nat
  slot : Nat
  waiting : Nat
  open_ : Nat
  begun : Bool := false
deriving DecidableEq, Repr

/-- One cipher engine: busy cores, received and transmitted frames that wait for one, queued descriptors; and of its die's
transmitter when the line is free again, in ps, and the partner served last (R299). -/
structure CipherEng where
  cores : Map (Option CoreWork) := []
  rxWait : Nat := 0
  txWait : List TxUnit := []
  jobs : List CipherJob := []
  lineFree : Nat := 0
  lastServed : Nat := 255
deriving DecidableEq, Repr

/-! ### The far exchange ("Far Exchange: Deltas Between Sites") -/

/-- The coding parameters of a section (R276, R277): tensor scale, threshold bin, RICE_K, code lengths. -/
structure SectStat where
  t : Word
  bin : Nat
  k : Nat
  lens : List Nat
deriving DecidableEq, Repr

/-- What a TABLE chunk says (R282). -/
structure ChunkTable where
  start : Nat
  params : Nat
  t : Word
  lens : List Nat
  k : Nat
deriving DecidableEq, Repr

/-- The kinds of stream (R272). -/
inductive StreamKind where
  | round | span | snapshot
deriving DecidableEq, Repr

/-- A stream formed and not yet released: number, kind, wire rounds, joined chunks, the partners that are to
receive it, its frames once they are formed, how many of them a cipher core has done, the partners that have been sent all
of it, and when a packet of it was last transmitted. -/
structure TxStream where
  num : Nat
  kind : StreamKind
  first : Nat
  last : Nat
  bytes : List Byte
  targets : List Nat
  frames : List Frame := []
  coded : Nat := 0
  sent : List Nat := []
  lastSent : Nat := 0
deriving DecidableEq, Repr

/-- What the far-port die keeps of a partner: streams queued, the stream being sent with its next packet, packets
to re-send, when an authenticated packet last came, its TIME, and when a probe last went, when its pacer may send next, its
rate in bit/s, the rtts of the last 10 s, the base interval in progress and the smallest queuing delay in it,
and whether its SNAP_REQ waits. -/
structure Partner where
  queue : List Nat := []
  cur : Option (Nat × Nat) := none
  resend : List (Nat × Nat) := []
  heard : Nat := 0
  newest : Nat := 0
  probed : Option Nat := none
  nextSend : Nat := 0
  rate : Nat := 0
  rtts : List (Nat × Nat) := []
  interval : Nat := 0
  qmin : Option Nat := none
  snapReq : Bool := false
deriving DecidableEq, Repr

/-- One erasure group being received: K′ and M, the packets held, the indices taken so far, the data once it is recovered, or lost. -/
structure RxGroup where
  k : Nat
  m : Nat
  held : List (Nat × List Byte) := []
  got : List Nat := []
  data : Option (List Byte) := none
  lost : Bool := false
deriving DecidableEq, Repr

/-- A stream being received; `who` is none for the module's own. `size` is the length of every group but the
last, `off` how far its chunks are taken, `nackAt` when a packet or the last NACKs went, from which NACK_MS run. -/
structure RxStream where
  who : Option Nat
  num : Nat
  kind : StreamKind
  first : Nat
  last : Nat
  groups : Nat
  size : Nat
  grp : Map RxGroup := []
  off : Nat := 0
  tables : Map ChunkTable := []
  arrived : Nat := 0
  nacks : Nat := 0
  nackAt : Nat := 0
  count : Nat := 0
  unfed : Nat := 0
  fedAt : Nat := 0
  added : Bool := false
  done : Bool := false
deriving DecidableEq, Repr

/-- A partner's record of the round report (R304). -/
structure PartnerReport where
  first : Nat := 0xFFFFFFFF
  last : Nat := 0
  weight : Word := 0
  added : Nat := 0
  lost : Nat := 0
  streams : Nat := 0
deriving DecidableEq, Repr

/-- A round's delta in formation: the engines past pass 1 and past pass 2, the parameters of each section and
its chunks so far, the partners that were UP at the opening, and those whose SNAP_REQ came before pass 2. -/
structure DeltaWork where
  pass1 : List Nat := []
  pass2 : List Nat := []
  stats : Map SectStat := []
  parts : Map (List Byte) := []
  targets : List Nat := []
  snaps : Option (List Nat) := none
deriving DecidableEq, Repr

/-- A handoff in progress (R304): the HANDOFF descriptor, the local round that closed, and the recovered stream bytes that
wait in region RXQ until the accumulator is zeroed. -/
structure Handing where
  ring : Nat
  idx : Nat
  last : Nat
  queued : Nat := 0
deriving DecidableEq, Repr

/-- A SNAP_FETCH at work: ring, index, partner, when its last SNAP_REQ went, the stream that answers it. -/
structure SnapFetch where
  ring : Nat
  idx : Nat
  partner : Nat
  asked : Option Nat := none
  stream : Option Nat := none
deriving DecidableEq, Repr

/-- What the block sends out: messages, completions to a requester, frames and flits. -/
inductive Output where
  | msix (die func vector : Nat)
  | barData (f : Func) (status : Nat) (data : List Byte)
  | side (bytes : List Byte)
  | flit (link : Nat) (typ : BitVec 2) (seq ack : Nat) (payload : List Byte) (crc : Word)
  | lanes (link : Nat) (mapped : List Nat)
  | packet (link : Nat) (p : TorusPacket)
  | ident (link : Nat) (r : IdRecord)
  | frame (port : Nat) (f : Frame)
  | value (who : Requester) (v : DWord)
  | reply (who : Requester) (status : Nat) (data : List Byte)
deriving DecidableEq, Repr

end Sys2Proof.Machine
end

