-- ==== Sys2Proof/Machine/Convert.lean ====
section
/-! DEFINITION. Converts and operand narrowing (R76, R79, R81, R84, R85, R140) and the combination of
census reports (R112, R113). -/

namespace Sys2Proof.Machine

/-! ### Packing (R76) -/

/-- 16-bit elements of bytes. -/
def halves : List Byte → List Nat
  | a :: b :: r => (a.toNat + 256 * b.toNat) :: halves r
  | _ => []

/-- 32-bit elements of bytes. -/
def quads : List Byte → List Nat
  | a :: b :: c :: d :: r => (a.toNat + 256 * b.toNat + 65536 * c.toNat + 16777216 * d.toNat) :: quads r
  | _ => []

/-- The element codes packed in bytes, least significant first. -/
def codesOf (bits : Nat) (bs : List Byte) : List Nat :=
  if bits = 32 then quads bs
  else if bits = 16 then halves bs
  else if bits = 8 then bs.map BitVec.toNat
  else bs.flatMap fun b => (List.range (8 / bits)).map fun j => (b.toNat >>> (bits * j)) % 2 ^ bits

/-- A list cut into groups of n, at most fuel of them. -/
def groupsOf {α : Type} (n : Nat) (fuel : Nat) (l : List α) : List (List α) :=
  match fuel with
  | 0 => []
  | f + 1 => if l.isEmpty then [] else l.take n :: groupsOf n f (l.drop n)

/-- Element codes packed into bytes. -/
def packCodes (bits : Nat) (l : List Nat) : List Byte :=
  if 8 ≤ bits then l.flatMap fun c => leBytes (bits / 8) c
  else (groupsOf (8 / bits) l.length l).map fun g =>
    BitVec.ofNat 8 (g.foldr (fun c acc => c % 2 ^ bits + acc * 2 ^ bits) 0)

/-- The bytes of 32-bit lanes. -/
def laneBytes (l : List Word) : List Byte := l.flatMap fun w => leBytes 4 w.toNat

/-- The 32-bit lanes of bytes. -/
def bytesLanes (bs : List Byte) : List Word := (quads bs).map fun n => BitVec.ofNat 32 n

/-! ### Census -/

/-- A report with its counts held at all-ones (R113). -/
def CensusRep.capped (a : CensusRep) : CensusRep :=
  { a with elems := satTo 64 a.elems, zeros := satTo 32 a.zeros, sats := satTo 32 a.sats, nonfinite := satTo 32 a.nonfinite }

/-- Two reports combined (R113). -/
def CensusRep.merge (a b : CensusRep) : CensusRep :=
  { elems := satTo 64 (a.elems + b.elems)
    zeros := satTo 32 (a.zeros + b.zeros)
    sats := satTo 32 (a.sats + b.sats)
    nonfinite := satTo 32 (a.nonfinite + b.nonfinite)
    amax := if magOf a.amax < magOf b.amax then b.amax else a.amax
    sse := fadd .rne a.sse b.sse }

/-- The census of FP32 results (R112): no saturations, no error. -/
def resultCensus (l : List Word) : CensusRep :=
  { elems := (l.filter isFinite32).length
    zeros := (l.filter isZero32).length
    sats := 0
    nonfinite := (l.filter fun w => !isFinite32 w).length
    amax := BitVec.ofNat 32 ((l.filter isFinite32).foldl (fun m w => max m (magOf w)) 0)
    sse := 0 }

/-- One converted element: exact input, decoded result, overflow. -/
structure Conv where
  x : Num
  r : Num
  ovf : Bool
deriving DecidableEq, Repr

/-- The squared error of one element in FP32: 0 where R84 adds nothing. The exact difference is squared and rounded once by RNE
(DESIGN CHOICE: assumption 63, R84 does not say where the rounding falls). -/
def Conv.sq (c : Conv) : Word :=
  if c.x.isFinite && c.r.isFinite then
    let d := c.x.add c.r.neg
    (d.mul d).toF32 .rne false
  else 0

/-- The census of converted lanes; a disabled lane reports nothing (R84, R112, R141). The largest input magnitude is rounded to
FP32 by RNE, and the squared errors of one report are summed in the pattern of R99 also where the report is not a convert's
(DESIGN CHOICE: assumption 63). -/
def convCensus (l : List (Option Conv)) : CensusRep :=
  let on := l.filterMap id
  let fin := on.filter fun c => c.x.isFinite
  { elems := fin.length
    zeros := (on.filter fun c => c.r.isZero).length
    sats := (fin.filter fun c => c.ovf).length
    nonfinite := on.length - fin.length
    amax := BitVec.ofNat 32 (fin.foldl (fun m c => max m (magOf (c.x.toF32 .rne false))) 0)
    sse := pairSum (l.map fun o => match o with
      | some c => c.sq
      | none => 0) }

/-! ### The block procedure of R81 -/

/-- The largest finite magnitude of FP32 words. -/
def amaxOf (ys : List Word) : Word :=
  BitVec.ofNat 32 ((ys.filter isFinite32).foldl (fun m w => max m (magOf w)) 0)

/-- The MX32 scale code of a block of largest magnitude a. -/
def mxCode (f : Nat) (a : Word) : Nat :=
  match ofF32 a with
  | .fin _ m e =>
    if m = 0 then 127
    else (max (-127) (min 127 ((Nat.log2 m : Int) + e - eMax f)) + 127).toNat
  | _ => 127

/-- The FINE16 scale code: a / maxfin rounded toward +infinity to E4M3, held in 2^-6 to 448. -/
def fineCode (f : Nat) (a : Word) : Nat :=
  match ofF32 a, maxFin f with
  | .fin _ m e, .fin _ n k =>
    if m = 0 then 0x38
    else
      let (q, lsb) := roundMag .up 3 none m n (e - k)
      if lsb + 3 < -6 then 0x08
      else if lsb > 5 ∨ (lsb = 5 ∧ q > 14) then 0x7E
      else (lsb + 10).toNat * 8 + (q - 8)
  | _, _ => 0x38

/-- One block encoded: scale code and, for each element, code and overflow (R81, R82). Elements are exact
values before division by t; draws stand beside them. A finite element whose quotient by t exceeds FP32 is encoded as an
infinite one, counted as finite and as no saturation (DESIGN CHOICE: assumption 63). -/
def encodeBlock (f form : Nat) (rnd : Nat) (prop : Bool) (t : Num) (xs : List (Num × Nat)) :
    Nat × List (Nat × Bool) :=
  let ys := xs.map fun p => (divF32 .rne p.1 t, p.2)
  let nanCode := if form = 2 then 0xFF else 0x7F
  if ys.any fun p => isNaN32 p.1 then (nanCode, xs.map fun _ => (0, false))
  else
    let a := amaxOf (ys.map Prod.fst)
    let sc := if form = 2 then mxCode f a else fineCode f a
    let sv := blockScale form sc
    let es := ys.map fun p => encodeElem f (rndOf rnd p.2) prop (ofF32 (divF32 .rne (ofF32 p.1) sv))
    if es.any fun e => e.scaleNaN then (nanCode, es.map fun e => (0, e.ovf))
    else (sc, es.map fun e => (e.code, e.ovf))

/-- One element of a destination without block scales (R81). -/
def encodePlain (f form rnd : Nat) (prop : Bool) (t x : Num) (u : Nat) : Nat × Bool :=
  let y := if form = 0 then x else ofF32 (divF32 .rne x t)
  let e := encodeElem f (rndOf rnd u) prop y
  (e.code, e.ovf)

/-- Elements of a stored stream decoded exactly: element, block scale and tensor scale (R81, R86). -/
def decodeAll (f form : Nat) (t : Num) (codes scales : List Nat) : List Num :=
  if form = 0 then codes.map (decodeElem f)
  else if form = 1 then codes.map fun c => (decodeElem f c).mul t
  else
    ((groupsOf (blockLen form) codes.length codes).zip scales).flatMap fun g =>
      let sv := (blockScale form g.2).mul t
      g.1.map fun c => (decodeElem f c).mul sv

/-! ### The convert of one register (R140) -/

/-- The block-scale bytes of a register hold. -/
def scaleBytes (form : Nat) (bs : List Byte) : List Nat :=
  if form < 2 then [] else ((bs.drop 0x7C0).take (512 / blockLen form)).map BitVec.toNat

/-- A register image of codes and scale bytes (R140). -/
def registerImage (f form : Nat) (codes scales : List Nat) : List Byte :=
  let d := packCodes (fmtBits f) codes
  if form < 2 then d ++ List.replicate (2048 - d.length) 0
  else
    let m := d ++ List.replicate (0x7C0 - d.length) 0
    let e := m ++ scales.map (fun c => BitVec.ofNat 8 c)
    e ++ List.replicate (2048 - e.length) 0

/-- What a convert names. -/
structure ConvSpec where
  sf : Nat
  sform : Nat
  st : Num
  df : Nat
  dform : Nat
  dt : Num
  rnd : Nat
  prop : Bool
deriving DecidableEq, Repr

/-- One group of lanes encoded: enabled lanes take part, disabled lanes keep their old codes. The group's
scale byte is kept when no lane is enabled; where some are, it is that of the enabled lanes alone and stands for the kept codes
too (DESIGN CHOICE: assumption 63). -/
def encodeGroup (p : ConvSpec) (lanes : List (Bool × Num × Nat × Nat)) (oldScale : Nat) :
    Nat × List (Nat × Bool) :=
  let on := (lanes.filter fun l => l.1).map fun l => (l.2.1, l.2.2.1)
  if on.isEmpty then (oldScale, lanes.map fun l => (l.2.2.2, false))
  else
    let (sc, es) := if p.dform < 2 then
        (0, on.map fun q => encodePlain p.df p.dform p.rnd p.prop p.dt q.1 q.2)
      else encodeBlock p.df p.dform p.rnd p.prop p.dt on
    (sc, (lanes.foldl (fun (acc : List (Nat × Bool) × List (Nat × Bool)) l =>
      if l.1 then
        match acc.2 with
        | e :: r => (e :: acc.1, r)
        | [] => ((l.2.2.2, false) :: acc.1, [])
      else ((l.2.2.2, false) :: acc.1, acc.2)) ([], es)).1.reverse)

/-- A convert of one engine's 512 lanes: the new register and the census report. `en` holds the lane
predicate, `us` the draws. -/
def convertReg (p : ConvSpec) (src old : List Word) (en : List Bool) (us : List Nat) : List Word × CensusRep :=
  let sb := laneBytes src
  let xs := decodeAll p.sf p.sform p.st ((codesOf (fmtBits p.sf) sb).take 512) (scaleBytes p.sform sb)
  let ob := laneBytes old
  let oldCodes := (codesOf (fmtBits p.df) ob).take 512
  let lanes := en.zip (xs.zip (us.zip oldCodes))
  let len := if p.dform < 2 then 512 else blockLen p.dform
  let gs := groupsOf len 64 lanes
  let oldScales := if p.dform < 2 then [0] else scaleBytes p.dform ob
  let enc := (gs.zip oldScales).map fun g => encodeGroup p (g.1.map fun l => (l.1, l.2.1, l.2.2.1, l.2.2.2)) g.2
  let codes := enc.flatMap fun g => g.2.map Prod.fst
  let scales := enc.map Prod.fst
  let rs := decodeAll p.df p.dform p.dt codes scales
  let ovs := enc.flatMap fun g => g.2.map Prod.snd
  let img := registerImage p.df p.dform codes scales
  (bytesLanes img, convCensus ((en.zip (xs.zip (rs.zip ovs))).map fun q =>
    if q.1 then some ⟨q.2.1, q.2.2.1, q.2.2.2⟩ else none))

/-! ### Operand narrowing (R85) -/

/-- A row of an operand narrowed from E4M3 to E2M1 with the same form, block length and tensor scale: the
values that enter the array (element times block scale), and the conversions for the census. -/
def narrowRow (form : Nat) (t : Num) (codes scales : List Nat) : List Num × List Conv :=
  let gs := (groupsOf (blockLen form) codes.length codes).zip scales
  let enc := gs.map fun g =>
    let sv := (blockScale form g.2).mul t
    let xs := g.1.map fun c => (decodeElem 3 c).mul sv
    let e := encodeBlock 5 form 0 false t (xs.map fun x => (x, 0))
    (xs, e)
  let vals := enc.flatMap fun e => e.2.2.map fun c => (decodeElem 5 c.1).mul (blockScale form e.2.1)
  let convs := enc.flatMap fun e =>
    let sv := (blockScale form e.2.1).mul t
    (e.1.zip e.2.2).map fun q => Conv.mk q.1 ((decodeElem 5 q.2.1).mul sv) q.2.2
  (vals, convs)

end Sys2Proof.Machine
end

