-- ==== Sys2Proof/Config.lean ====
section
/-! DEFINITION. What the part fixes and what the manual leaves open. Every constant here has no body:
nothing can compute it, and a claim that mentions one holds whatever its value. -/

namespace Sys2Proof.Config

/-- The value of a one-time fuse field at a register address (R11, R384: "the part at hand"). DESIGN CHOICE: assumption 7. -/
opaque fuse : Nat → DWord

/-- The order code is VR-SK96-LC-1T (R2, R66). DESIGN CHOICE: assumption 8. -/
opaque orderIs1T : Bool

/-- The repairs of the part's fuse map, in its order: type, unit, instance and location of each (R61, assumption 7). -/
opaque fuseRepairs : List (Nat × Nat × Nat × Nat)

/-- The device key of the cipher engine ("Key slots and wrapped keys"). DESIGN CHOICE: assumption 9. -/
opaque deviceKey : BitVec 256

/-- What a byte of module memory that nothing has written reads as (R427), by power cycle and offset. DESIGN CHOICE: assumption 4. -/
opaque unwritten : Nat → Nat → Byte

/-- Whether a burst of DRAM that has a byte nothing has written reads UNCORRECTABLE (R427), by power cycle and burst.
DESIGN CHOICE: assumption 4. -/
opaque unwrittenBad : Nat → Nat → Bool

/-- What a byte of host memory that nothing of the block has written holds. DESIGN CHOICE: assumption 5. -/
opaque hostByte : Nat → Byte

/-- A fresh value for a result the manual leaves undefined; the number is a counter of the state.
DESIGN CHOICE: assumption 6. -/
opaque free : Nat → DWord

/-- The FP32 results of EXP2, LOG2, RCP and RSQRT, whose precision the manual does not state. DESIGN CHOICE:
assumption 31. -/
opaque exp2 : Word → Word
opaque log2 : Word → Word
opaque rcp : Word → Word
opaque rsqrt : Word → Word

/-- The SENDER of a partner (R291), by its number and its address registers: no register holds it.
DESIGN CHOICE: assumption 10. -/
opaque partnerSender : Nat → DWord → DWord → DWord → Word

/-- What the quantisers of R217 and R230 make of a group that holds NaN, on which they are silent: by the
code limit, the values and a place (0 the scale, i + 1 code i). DESIGN CHOICE: assumption 33. -/
opaque nanGroup : Nat → List Word → Nat → Nat

/-- The step direction of the SIGNED rule where c is NaN (R228 names no value). DESIGN CHOICE: assumption 33. -/
opaque signNaN : Word → Word

/-- MAX and MIN where an operand is NaN or both are zero (the manual states no order there).
DESIGN CHOICE: assumption 30. -/
opaque maxSpecial : Word → Word → Word
opaque minSpecial : Word → Word → Word

/-- CMP in a lane under LTU and GEU, which the manual defines on integers only. DESIGN CHOICE:
assumption 32. -/
opaque cmpSpecial : Nat → Word → Word → Bool

/-- A byte of a torus packet behind its 8-byte prefix (the Ebsia header of R41, which no rule lays out, and the payload): by
packet, part and place. DESIGN CHOICE: assumption 35. -/
opaque packetByte : TorusPacket → Nat → Nat → Byte

/-- What a flit holds behind the last packet in it. DESIGN CHOICE: assumption 35. -/
opaque flitFill : Nat → Byte

/-- The payload of a CONTROL flit, which no rule lays out: a byte of it by the credits it returns and the identity record; the
credits it returns on a virtual channel and the record, by its bytes. DESIGN CHOICE: assumption 35. -/
opaque controlByte : List Nat → IdRecord → Nat → Byte
opaque controlCredit : List Byte → Nat → Nat
opaque controlIdent : List Byte → BitVec 16 × Bool

/-- Packets a link's receive buffer holds on a virtual channel. DESIGN CHOICE: assumption 35. -/
opaque vcBuffer : Nat → Nat → Nat

/-- What a firmware image of the flash holds, of which no rule lays the bytes out: its version, its length, its CRC-32C, its
signature and public key, and the bytes that these cover; by the image (A is false) and the bytes written to it. DESIGN CHOICE:
assumption 56. -/
opaque imageVersion : Bool → List Host.Cell → Word
opaque imageLength : Bool → List Host.Cell → Nat
opaque imageCrc : Bool → List Host.Cell → Word
opaque imageSignature : Bool → List Host.Cell → List Byte
opaque imageKey : Bool → List Host.Cell → List Byte
opaque imageBody : Bool → List Host.Cell → List Byte

/-- The hash of a public key, the one that the fuses hold, and ECDSA P-384 verification of a message's signature under a key
(R372). DESIGN CHOICE: assumption 56. -/
opaque keyHash : List Byte → List Byte
opaque fuseKeyHash : List Byte
opaque ecdsaP384 : List Byte → List Byte → List Byte → Bool

/-- The estimated power of a ward, by its number, the EFFECTIVE values of its three power-model trims and what it is doing
(R394). DESIGN CHOICE: assumption 19. -/
opaque wardPower : Nat → List Nat → DWord → Word

/-- The IANA enterprise number of the vendor-defined message type, and the 16 bits that DSP0236 has follow it (R396). DESIGN
CHOICE: assumption 19. -/
opaque vendorIana : Word
opaque vendorSet : BitVec 16

end Sys2Proof.Config
end

