-- ==== Sys2Proof/Machine/RegNames.lean ====
section
/-! DEFINITION. The BAR0 offset of every register, by the names the register tables give them.
A register that a page repeats takes the page's index, then its own. -/

namespace Sys2Proof.Machine

/-- ID page (R399). -/
def pgID : Nat := 0x00000000

/-- ID_PART (R66). -/
def Reg.ID_PART : Nat := pgID + 0x100

/-- ID_SERIAL (R66). -/
def Reg.ID_SERIAL : Nat := pgID + 0x108

/-- MOD_DEVNUM (R66). -/
def Reg.MOD_DEVNUM : Nat := pgID + 0x110

/-- MOD_DEVNUM_LIVE (R66). -/
def Reg.MOD_DEVNUM_LIVE : Nat := pgID + 0x114

/-- ID_DEVNUM_REJECT (R67). -/
def Reg.ID_DEVNUM_REJECT : Nat := pgID + 0x118

/-- REP page (R399). -/
def pgREP : Nat := 0x00001000

/-- REP_STATUS (R68). -/
def Reg.REP_STATUS : Nat := pgREP + 0x100

/-- REP_CHIPLET (R68). -/
def Reg.REP_CHIPLET (n : Nat) : Nat := pgREP + 0x110 + 4 * n

/-- REP_SOFT_CTRL (R68). -/
def Reg.REP_SOFT_CTRL : Nat := pgREP + 0x120

/-- REP_SOFT_FULL (R68). -/
def Reg.REP_SOFT_FULL : Nat := pgREP + 0x130

/-- REP_SOFT_BADCRC (R68). -/
def Reg.REP_SOFT_BADCRC : Nat := pgREP + 0x134

/-- REP_SOFT_REDUNDANT (R68). -/
def Reg.REP_SOFT_REDUNDANT : Nat := pgREP + 0x138

/-- REP_LIVE_RETIRE (R68). -/
def Reg.REP_LIVE_RETIRE : Nat := pgREP + 0x13c

/-- PWR page (R399). -/
def pgPWR : Nat := 0x00002000

/-- PWR_CTRL (R354). -/
def Reg.PWR_CTRL : Nat := pgPWR + 0x100

/-- PWR_STATE (R354). -/
def Reg.PWR_STATE : Nat := pgPWR + 0x104

/-- PWR_CAP (R354). -/
def Reg.PWR_CAP : Nat := pgPWR + 0x108

/-- PWR_WINDOW (R354). -/
def Reg.PWR_WINDOW : Nat := pgPWR + 0x10c

/-- PWR_INPUT (R354). -/
def Reg.PWR_INPUT : Nat := pgPWR + 0x110

/-- PWR_AVG (R354). -/
def Reg.PWR_AVG : Nat := pgPWR + 0x114

/-- PWR_FAST_EVENTS (R354). -/
def Reg.PWR_FAST_EVENTS : Nat := pgPWR + 0x120

/-- PWR_SLOW_STEPS (R354). -/
def Reg.PWR_SLOW_STEPS : Nat := pgPWR + 0x124

/-- PWR_MAIN_UV (R354). -/
def Reg.PWR_MAIN_UV : Nat := pgPWR + 0x128

/-- CLK page (R399). -/
def pgCLK : Nat := 0x00003000

/-- CLK_WARD_CTRL (R354). -/
def Reg.CLK_WARD_CTRL (n : Nat) : Nat := pgCLK + 0x100 + 4 * n

/-- CLK_SPREAD (R354). -/
def Reg.CLK_SPREAD : Nat := pgCLK + 0x130

/-- CLK_FAST (R354). -/
def Reg.CLK_FAST : Nat := pgCLK + 0x134

/-- CLK_STARTS (R354). -/
def Reg.CLK_STARTS : Nat := pgCLK + 0x140

/-- CLK_LOCK_FAIL (R354). -/
def Reg.CLK_LOCK_FAIL : Nat := pgCLK + 0x144

/-- TH page (R399). -/
def pgTH : Nat := 0x00004000

/-- TH_SEL (R354). -/
def Reg.TH_SEL : Nat := pgTH + 0x100

/-- TH_TEMP (R354). -/
def Reg.TH_TEMP : Nat := pgTH + 0x104

/-- TH_MAX (R354). -/
def Reg.TH_MAX : Nat := pgTH + 0x108

/-- TH_LIMIT (R354). -/
def Reg.TH_LIMIT : Nat := pgTH + 0x10c

/-- TH_STATE (R354). -/
def Reg.TH_STATE : Nat := pgTH + 0x110

/-- TH_STEPS (R354). -/
def Reg.TH_STEPS : Nat := pgTH + 0x120

/-- TH_MS (R354). -/
def Reg.TH_MS : Nat := pgTH + 0x124

/-- FLT page (R399). -/
def pgFLT : Nat := 0x00005000

/-- FLT_DRAIN (R376). -/
def Reg.FLT_DRAIN (n : Nat) : Nat := pgFLT + 0x100 + 4 * n

/-- FLT_ESCALATE (R376). -/
def Reg.FLT_ESCALATE : Nat := pgFLT + 0x130

/-- FLT_RESET (R376). -/
def Reg.FLT_RESET : Nat := pgFLT + 0x134

/-- FLT_UNIT_SEL (R376). -/
def Reg.FLT_UNIT_SEL : Nat := pgFLT + 0x138

/-- FLT_UNIT_HIST (R376). -/
def Reg.FLT_UNIT_HIST : Nat := pgFLT + 0x13c

/-- FLT_UNIT_LAST (R376). -/
def Reg.FLT_UNIT_LAST : Nat := pgFLT + 0x140

/-- FLT_UNIT_CMD (R376). -/
def Reg.FLT_UNIT_CMD : Nat := pgFLT + 0x148

/-- FLT_JOB (R376). -/
def Reg.FLT_JOB : Nat := pgFLT + 0x150

/-- FLT_DUMP_CTRL (R376). -/
def Reg.FLT_DUMP_CTRL : Nat := pgFLT + 0x160

/-- FLT_DUMP_STATUS (R376). -/
def Reg.FLT_DUMP_STATUS : Nat := pgFLT + 0x164

/-- FLT_DUMP_ADDR (R376). -/
def Reg.FLT_DUMP_ADDR : Nat := pgFLT + 0x168

/-- FLT_DUMP_DATA (R376). -/
def Reg.FLT_DUMP_DATA : Nat := pgFLT + 0x16c

/-- FLT_WDOG_EXPIRED (R376). -/
def Reg.FLT_WDOG_EXPIRED : Nat := pgFLT + 0x180

/-- FLT_FAULT_RESETS (R376). -/
def Reg.FLT_FAULT_RESETS : Nat := pgFLT + 0x184

/-- FLT_QUARANTINES (R376). -/
def Reg.FLT_QUARANTINES : Nat := pgFLT + 0x188

/-- FLT_DRAINED_ERRORS (R376). -/
def Reg.FLT_DRAINED_ERRORS : Nat := pgFLT + 0x18c

/-- FLT_REFUSED (R376). -/
def Reg.FLT_REFUSED : Nat := pgFLT + 0x190

/-- FLT_DUMPS (R376). -/
def Reg.FLT_DUMPS : Nat := pgFLT + 0x194

/-- FLT_DUMP_SKIPPED (R376). -/
def Reg.FLT_DUMP_SKIPPED : Nat := pgFLT + 0x198

/-- FLT_DUMP_UNREADABLE (R376). -/
def Reg.FLT_DUMP_UNREADABLE : Nat := pgFLT + 0x19c

/-- FLT_JOB_FAULTS (R376). -/
def Reg.FLT_JOB_FAULTS : Nat := pgFLT + 0x1a0

/-- FW page (R399). -/
def pgFW : Nat := 0x00006000

/-- FW_STATE (R377). -/
def Reg.FW_STATE : Nat := pgFW + 0x100

/-- FW_VERSION_A (R377). -/
def Reg.FW_VERSION_A : Nat := pgFW + 0x108

/-- FW_VERSION_B (R377). -/
def Reg.FW_VERSION_B : Nat := pgFW + 0x10c

/-- FW_CTRL (R377). -/
def Reg.FW_CTRL : Nat := pgFW + 0x110

/-- FW_BOOT_FAIL (R377). -/
def Reg.FW_BOOT_FAIL : Nat := pgFW + 0x120

/-- FW_ACTIVATIONS (R377). -/
def Reg.FW_ACTIVATIONS : Nat := pgFW + 0x124

/-- CALF pages (R399). -/
def pgCALF (i : Nat) : Nat := 0x00010000 + 0x1000 * i

/-- CALF_TRIM (R394). -/
def Reg.CALF_TRIM (i : Nat) (n : Nat) : Nat := pgCALF i + 0x200 + 4 * n

/-- CALU pages (R399). -/
def pgCALU (i : Nat) : Nat := 0x00018000 + 0x1000 * i

/-- CAL_CLAMPS (R394). -/
def Reg.CAL_CLAMPS (i : Nat) : Nat := pgCALU i + 0x100

/-- CALU_TRIM (R394). -/
def Reg.CALU_TRIM (i : Nat) (n : Nat) : Nat := pgCALU i + 0x200 + 4 * n

/-- WPC page (R399). -/
def pgWPC : Nat := 0x01010000

/-- WPC_LEG (R32). -/
def Reg.WPC_LEG : Nat := pgWPC + 0x100

/-- WPC_LEG_LIVE (R32). -/
def Reg.WPC_LEG_LIVE : Nat := pgWPC + 0x104

/-- WPC_SERVE (R32). -/
def Reg.WPC_SERVE : Nat := pgWPC + 0x108

/-- WPC_SERVE_LIVE (R32). -/
def Reg.WPC_SERVE_LIVE : Nat := pgWPC + 0x10c

/-- WPC_SERVE_MASK (R32). -/
def Reg.WPC_SERVE_MASK : Nat := pgWPC + 0x110

/-- WPC_SERVE_MASK_LIVE (R32). -/
def Reg.WPC_SERVE_MASK_LIVE : Nat := pgWPC + 0x118

/-- WPC_WAYPOINT (R32). -/
def Reg.WPC_WAYPOINT : Nat := pgWPC + 0x120

/-- WPC_POSITION (R32). -/
def Reg.WPC_POSITION : Nat := pgWPC + 0x128

/-- WPC_ARRIVE_TIMEOUT (R32). -/
def Reg.WPC_ARRIVE_TIMEOUT : Nat := pgWPC + 0x130

/-- WPC_LAST_DURATION (R32). -/
def Reg.WPC_LAST_DURATION : Nat := pgWPC + 0x134

/-- PLOG_BASE (R32). -/
def Reg.PLOG_BASE : Nat := pgWPC + 0x138

/-- PLOG_CTRL (R32). -/
def Reg.PLOG_CTRL : Nat := pgWPC + 0x140

/-- PLOG_HEAD (R32). -/
def Reg.PLOG_HEAD : Nat := pgWPC + 0x144

/-- WPC_SKIP_NONFINITE (R32). -/
def Reg.WPC_SKIP_NONFINITE : Nat := pgWPC + 0x150

/-- WPC_SKIP_TAINT (R32). -/
def Reg.WPC_SKIP_TAINT : Nat := pgWPC + 0x154

/-- WPC_DEFERRED (R32). -/
def Reg.WPC_DEFERRED : Nat := pgWPC + 0x158

/-- WPC_OVER_BUDGET (R32). -/
def Reg.WPC_OVER_BUDGET : Nat := pgWPC + 0x15c

/-- WPC_OUTER_LATE (R32). -/
def Reg.WPC_OUTER_LATE : Nat := pgWPC + 0x160

/-- SC page (R399). -/
def pgSC : Nat := 0x01011000

/-- SC_TABLE_BASE (R126). -/
def Reg.SC_TABLE_BASE : Nat := pgSC + 0x100

/-- SC_SLOT_SEL (R126). -/
def Reg.SC_SLOT_SEL : Nat := pgSC + 0x108

/-- SC_SLOT_T (R126). -/
def Reg.SC_SLOT_T : Nat := pgSC + 0x10c

/-- SC_SLOT_CFG (R126). -/
def Reg.SC_SLOT_CFG : Nat := pgSC + 0x110

/-- SC_SLOT_CMD (R126). -/
def Reg.SC_SLOT_CMD : Nat := pgSC + 0x114

/-- SC_RS_BUDGET (R126). -/
def Reg.SC_RS_BUDGET : Nat := pgSC + 0x118

/-- SC_RS_BUDGET_LIVE (R126). -/
def Reg.SC_RS_BUDGET_LIVE : Nat := pgSC + 0x11c

/-- SC_LS_CTRL (R126). -/
def Reg.SC_LS_CTRL : Nat := pgSC + 0x120

/-- SC_LS_CTRL_LIVE (R126). -/
def Reg.SC_LS_CTRL_LIVE : Nat := pgSC + 0x124

/-- SC_LS_LIMITS (R126). -/
def Reg.SC_LS_LIMITS : Nat := pgSC + 0x128

/-- SC_LS_LIMITS_LIVE (R126). -/
def Reg.SC_LS_LIMITS_LIVE : Nat := pgSC + 0x12c

/-- SC_LS_STATE_LIVE (R126). -/
def Reg.SC_LS_STATE_LIVE : Nat := pgSC + 0x130

/-- SC_LS_COMMITTED (R126). -/
def Reg.SC_LS_COMMITTED : Nat := pgSC + 0x134

/-- SC_LS_SET (R126). -/
def Reg.SC_LS_SET : Nat := pgSC + 0x138

/-- SC_STEP_NF (R126). -/
def Reg.SC_STEP_NF : Nat := pgSC + 0x140

/-- SC_SLICE (R126). -/
def Reg.SC_SLICE : Nat := pgSC + 0x144

/-- SC_LS_DECREASES (R126). -/
def Reg.SC_LS_DECREASES : Nat := pgSC + 0x150

/-- SC_LS_GROWTHS (R126). -/
def Reg.SC_LS_GROWTHS : Nat := pgSC + 0x154

/-- SC_LS_FLOOR (R126). -/
def Reg.SC_LS_FLOOR : Nat := pgSC + 0x158

/-- SC_LS_CEILING (R126). -/
def Reg.SC_LS_CEILING : Nat := pgSC + 0x15c

/-- SC_RS_TILES (R126). -/
def Reg.SC_RS_TILES : Nat := pgSC + 0x160

/-- SC_RS_OVERRUN (R126). -/
def Reg.SC_RS_OVERRUN : Nat := pgSC + 0x164

/-- SC_RANGE_STEPS (R126). -/
def Reg.SC_RANGE_STEPS : Nat := pgSC + 0x168

/-- SC_STAGE_FULL (R126). -/
def Reg.SC_STAGE_FULL : Nat := pgSC + 0x16c

/-- SC_TABLE_WRITE_DROP (R126). -/
def Reg.SC_TABLE_WRITE_DROP : Nat := pgSC + 0x170

/-- SC_STAGE_PINNED (R126). -/
def Reg.SC_STAGE_PINNED : Nat := pgSC + 0x174

/-- SC_BASE_REJECT (R126). -/
def Reg.SC_BASE_REJECT : Nat := pgSC + 0x178

/-- ENGC page (R399). -/
def pgENGC : Nat := 0x01012000

/-- ENG_SEED (R151). -/
def Reg.ENG_SEED : Nat := pgENGC + 0x100

/-- ENG_SEED_LIVE (R151). -/
def Reg.ENG_SEED_LIVE : Nat := pgENGC + 0x108

/-- RT page (R399). -/
def pgRT : Nat := 0x01013000

/-- RT_SWAP_REQ (R180). -/
def Reg.RT_SWAP_REQ : Nat := pgRT + 0x100

/-- RT_LATID (R180). -/
def Reg.RT_LATID : Nat := pgRT + 0x108

/-- RT_LATID_LIVE (R180). -/
def Reg.RT_LATID_LIVE : Nat := pgRT + 0x10c

/-- RT_PATCH (R180). -/
def Reg.RT_PATCH : Nat := pgRT + 0x110

/-- RT_PATCH_LIVE (R180). -/
def Reg.RT_PATCH_LIVE : Nat := pgRT + 0x118

/-- RT_TAINT (R180). -/
def Reg.RT_TAINT : Nat := pgRT + 0x120

/-- RT_SLICE (R180). -/
def Reg.RT_SLICE : Nat := pgRT + 0x124

/-- RT_STEP_TAINT (R180). -/
def Reg.RT_STEP_TAINT : Nat := pgRT + 0x128

/-- RT_SWAPS (R180). -/
def Reg.RT_SWAPS : Nat := pgRT + 0x130

/-- RT_SWAP_REJECT (R180). -/
def Reg.RT_SWAP_REJECT : Nat := pgRT + 0x134

/-- RT_PATCH_DROP (R180). -/
def Reg.RT_PATCH_DROP : Nat := pgRT + 0x138

/-- RT_PATCH_BAD (R180). -/
def Reg.RT_PATCH_BAD : Nat := pgRT + 0x13c

/-- RT_TAINT_FAULTS (R180). -/
def Reg.RT_TAINT_FAULTS : Nat := pgRT + 0x140

/-- RT_LATE_TAINT (R180). -/
def Reg.RT_LATE_TAINT : Nat := pgRT + 0x144

/-- RT_VOID_RECEIVED (R180). -/
def Reg.RT_VOID_RECEIVED : Nat := pgRT + 0x148

/-- ACC pages (R399). -/
def pgACC (d : Nat) : Nat := 0x01014000 + 0x1000000 * d

/-- ACC_SEL (R153). -/
def Reg.ACC_SEL (d : Nat) : Nat := pgACC d + 0x100

/-- ACC_BASE (R153). -/
def Reg.ACC_BASE (d : Nat) : Nat := pgACC d + 0x108

/-- ACC_SIZE (R153). -/
def Reg.ACC_SIZE (d : Nat) : Nat := pgACC d + 0x110

/-- ACC_CMD (R153). -/
def Reg.ACC_CMD (d : Nat) : Nat := pgACC d + 0x114

/-- ACC_HELD_WRITES (R153). -/
def Reg.ACC_HELD_WRITES (d : Nat) : Nat := pgACC d + 0x120

/-- ACC_HOLD_FULL (R153). -/
def Reg.ACC_HOLD_FULL (d : Nat) : Nat := pgACC d + 0x124

/-- ACC_DUPLICATE (R153). -/
def Reg.ACC_DUPLICATE (d : Nat) : Nat := pgACC d + 0x128

/-- ACC_RANGE_VIOL (R153). -/
def Reg.ACC_RANGE_VIOL (d : Nat) : Nat := pgACC d + 0x12c

/-- ARB pages (R399). -/
def pgARB (d : Nat) : Nat := 0x01015000 + 0x1000000 * d

/-- ARB_CFG (R214). -/
def Reg.ARB_CFG (d : Nat) : Nat := pgARB d + 0x100

/-- ARB_SEL (R214). -/
def Reg.ARB_SEL (d : Nat) : Nat := pgARB d + 0x108

/-- ARB_PORT_ID (R214). -/
def Reg.ARB_PORT_ID (d : Nat) : Nat := pgARB d + 0x10c

/-- ARB_GRANTS (R214). -/
def Reg.ARB_GRANTS (d : Nat) : Nat := pgARB d + 0x110

/-- ARB_WAIT (R214). -/
def Reg.ARB_WAIT (d : Nat) : Nat := pgARB d + 0x118

/-- ARB_LONGEST (R214). -/
def Reg.ARB_LONGEST (d : Nat) : Nat := pgARB d + 0x120

/-- ARB_URGENT_WINS (R214). -/
def Reg.ARB_URGENT_WINS (d : Nat) : Nat := pgARB d + 0x124

/-- SIG pages (R399). -/
def pgSIG (d : Nat) : Nat := 0x01016000 + 0x1000000 * d

/-- SIG_SEL (R213). -/
def Reg.SIG_SEL (d : Nat) : Nat := pgSIG d + 0x100

/-- SIG_VALUE (R213). -/
def Reg.SIG_VALUE (d : Nat) : Nat := pgSIG d + 0x104

/-- SIG_HOSTOP (R213). -/
def Reg.SIG_HOSTOP (d : Nat) : Nat := pgSIG d + 0x108

/-- SIG_EVT_POP (R213). -/
def Reg.SIG_EVT_POP (d : Nat) : Nat := pgSIG d + 0x110

/-- SIG_EVT_COUNT (R213). -/
def Reg.SIG_EVT_COUNT (d : Nat) : Nat := pgSIG d + 0x118

/-- SIG_OVERFLOW (R213). -/
def Reg.SIG_OVERFLOW (d : Nat) : Nat := pgSIG d + 0x120

/-- SIG_EVT_LOST (R213). -/
def Reg.SIG_EVT_LOST (d : Nat) : Nat := pgSIG d + 0x124

/-- ENG pages (R399). -/
def pgENG (c : Nat) : Nat := 0x01020000 + 0x1000000 * (c / 16) + 0x1000 * (c % 16)

/-- ENG_ARRAY_MAP (R152). -/
def Reg.ENG_ARRAY_MAP (c : Nat) (n : Nat) : Nat := pgENG c + 0x100 + 4 * n

/-- ENG_SPARES (R152). -/
def Reg.ENG_SPARES (c : Nat) : Nat := pgENG c + 0x124

/-- ENG_RETIRED (R152). -/
def Reg.ENG_RETIRED (c : Nat) : Nat := pgENG c + 0x128

/-- ENG_RETIRE (R152). -/
def Reg.ENG_RETIRE (c : Nat) : Nat := pgENG c + 0x130

/-- ENG_STANDIN (R152). -/
def Reg.ENG_STANDIN (c : Nat) : Nat := pgENG c + 0x134

/-- ENG_DWQ (R152). -/
def Reg.ENG_DWQ (c : Nat) : Nat := pgENG c + 0x138

/-- ENG_HOLD_CYCLES (R152). -/
def Reg.ENG_HOLD_CYCLES (c : Nat) : Nat := pgENG c + 0x140

/-- ENG_RESIDUE_FAULTS (R152). -/
def Reg.ENG_RESIDUE_FAULTS (c : Nat) : Nat := pgENG c + 0x148

/-- ENG_STANDIN_TILES (R152). -/
def Reg.ENG_STANDIN_TILES (c : Nat) : Nat := pgENG c + 0x14c

/-- ENG_DWQ_FORCED (R152). -/
def Reg.ENG_DWQ_FORCED (c : Nat) : Nat := pgENG c + 0x150

/-- ENG_DWQ_FILLS (R152). -/
def Reg.ENG_DWQ_FILLS (c : Nat) : Nat := pgENG c + 0x154

/-- SEQ pages (R399). -/
def pgSEQ (c : Nat) : Nat := 0x01040000 + 0x1000000 * (c / 16) + 0x1000 * (c % 16)

/-- SEQ_ENTRY (R181). -/
def Reg.SEQ_ENTRY (c : Nat) : Nat := pgSEQ c + 0x100

/-- SEQ_ENTRY_LIVE (R181). -/
def Reg.SEQ_ENTRY_LIVE (c : Nat) : Nat := pgSEQ c + 0x104

/-- SEQ_STATE (R181). -/
def Reg.SEQ_STATE (c : Nat) : Nat := pgSEQ c + 0x108

/-- SEQ_SCHED (R181). -/
def Reg.SEQ_SCHED (c : Nat) : Nat := pgSEQ c + 0x110

/-- SEQ_LOG_CTRL (R181). -/
def Reg.SEQ_LOG_CTRL (c : Nat) : Nat := pgSEQ c + 0x118

/-- SEQ_HAZARDS (R182). -/
def Reg.SEQ_HAZARDS (c : Nat) : Nat := pgSEQ c + 0x120

/-- SEQ_ILLEGAL (R182). -/
def Reg.SEQ_ILLEGAL (c : Nat) : Nat := pgSEQ c + 0x124

/-- SEQ_INCONSISTENT (R182). -/
def Reg.SEQ_INCONSISTENT (c : Nat) : Nat := pgSEQ c + 0x128

/-- SEQ_LOG_LOST (R182). -/
def Reg.SEQ_LOG_LOST (c : Nat) : Nat := pgSEQ c + 0x12c

/-- SEQ_BANK_VIOL (R182). -/
def Reg.SEQ_BANK_VIOL (c : Nat) : Nat := pgSEQ c + 0x130

/-- SEQ_TAINTED_STEPS (R182). -/
def Reg.SEQ_TAINTED_STEPS (c : Nat) : Nat := pgSEQ c + 0x134

/-- SEQ_LOG (R182). -/
def Reg.SEQ_LOG (c : Nat) (n : Nat) : Nat := pgSEQ c + 0x180 + 8 * n

/-- SEQ_LAT (R182). -/
def Reg.SEQ_LAT (c : Nat) (n : Nat) : Nat := pgSEQ c + 0x400 + 4 * n

/-- UPDC page (R399). -/
def pgUPDC : Nat := 0x05000000

/-- UPD_CTRL (R244). -/
def Reg.UPD_CTRL : Nat := pgUPDC + 0x100

/-- UPD_CTRL_LIVE (R244). -/
def Reg.UPD_CTRL_LIVE : Nat := pgUPDC + 0x104

/-- UPD_VAR_SEL (R244). -/
def Reg.UPD_VAR_SEL : Nat := pgUPDC + 0x108

/-- UPD_RULE_CTRL (R244). -/
def Reg.UPD_RULE_CTRL : Nat := pgUPDC + 0x10c

/-- UPD_VAR_LR (R244). -/
def Reg.UPD_VAR_LR : Nat := pgUPDC + 0x110

/-- UPD_VAR_BETA1 (R244). -/
def Reg.UPD_VAR_BETA1 : Nat := pgUPDC + 0x114

/-- UPD_VAR_BETA2 (R244). -/
def Reg.UPD_VAR_BETA2 : Nat := pgUPDC + 0x118

/-- UPD_VAR_EPS (R244). -/
def Reg.UPD_VAR_EPS : Nat := pgUPDC + 0x11c

/-- UPD_VAR_WD (R244). -/
def Reg.UPD_VAR_WD : Nat := pgUPDC + 0x120

/-- UPD_VAR_STEP (R244). -/
def Reg.UPD_VAR_STEP : Nat := pgUPDC + 0x124

/-- UPD_VAR_CMD (R244). -/
def Reg.UPD_VAR_CMD : Nat := pgUPDC + 0x128

/-- UPD_DEV_CTRL (R244). -/
def Reg.UPD_DEV_CTRL : Nat := pgUPDC + 0x130

/-- UPD_SNAP0 (R244). -/
def Reg.UPD_SNAP0 : Nat := pgUPDC + 0x138

/-- UPD_SNAP1 (R244). -/
def Reg.UPD_SNAP1 : Nat := pgUPDC + 0x140

/-- UPD_SHARD (R244). -/
def Reg.UPD_SHARD : Nat := pgUPDC + 0x148

/-- UPD_OUTER_STATE (R244). -/
def Reg.UPD_OUTER_STATE : Nat := pgUPDC + 0x150

/-- UPD_OUTER_APPLIED (R244). -/
def Reg.UPD_OUTER_APPLIED : Nat := pgUPDC + 0x160

/-- UPD_OUTER_EXPIRED (R244). -/
def Reg.UPD_OUTER_EXPIRED : Nat := pgUPDC + 0x164

/-- UPD_OUTER_STALE (R244). -/
def Reg.UPD_OUTER_STALE : Nat := pgUPDC + 0x168

/-- UPD_VAR_STAGE_FULL (R244). -/
def Reg.UPD_VAR_STAGE_FULL : Nat := pgUPDC + 0x16c

/-- SLT page (R399). -/
def pgSLT : Nat := 0x05008000

/-- SLT_READ_BYTES (R246). -/
def Reg.SLT_READ_BYTES : Nat := pgSLT + 0x100

/-- SLT_WRITE_BYTES (R246). -/
def Reg.SLT_WRITE_BYTES : Nat := pgSLT + 0x108

/-- SLT_CORRECTED (R246). -/
def Reg.SLT_CORRECTED : Nat := pgSLT + 0x110

/-- SLT_UNCORRECTABLE (R246). -/
def Reg.SLT_UNCORRECTABLE : Nat := pgSLT + 0x114

/-- SLT_BEYOND (R246). -/
def Reg.SLT_BEYOND : Nat := pgSLT + 0x118

/-- SLT_ERR_ADDR (R246). -/
def Reg.SLT_ERR_ADDR : Nat := pgSLT + 0x120

/-- UPD pages (R399). -/
def pgUPD (k : Nat) : Nat := 0x05010000 + 0x1000 * k

/-- UPD_MAP (R245). -/
def Reg.UPD_MAP (k : Nat) : Nat := pgUPD k + 0x100

/-- UPD_MAP_LIVE (R245). -/
def Reg.UPD_MAP_LIVE (k : Nat) : Nat := pgUPD k + 0x108

/-- UPD_JRNL (R245). -/
def Reg.UPD_JRNL (k : Nat) : Nat := pgUPD k + 0x110

/-- UPD_ENG_WSET (R245). -/
def Reg.UPD_ENG_WSET (k : Nat) : Nat := pgUPD k + 0x118

/-- UPD_ENG_CTRL (R245). -/
def Reg.UPD_ENG_CTRL (k : Nat) : Nat := pgUPD k + 0x11c

/-- UPD_ENG_STATE (R245). -/
def Reg.UPD_ENG_STATE (k : Nat) : Nat := pgUPD k + 0x120

/-- UPD_BAD_ENTRY (R245). -/
def Reg.UPD_BAD_ENTRY (k : Nat) : Nat := pgUPD k + 0x128

/-- UPD_BLOCKS (R245). -/
def Reg.UPD_BLOCKS (k : Nat) : Nat := pgUPD k + 0x130

/-- UPD_UNTOUCHED (R245). -/
def Reg.UPD_UNTOUCHED (k : Nat) : Nat := pgUPD k + 0x138

/-- UPD_FROZEN (R245). -/
def Reg.UPD_FROZEN (k : Nat) : Nat := pgUPD k + 0x140

/-- UPD_NF_GRAD (R245). -/
def Reg.UPD_NF_GRAD (k : Nat) : Nat := pgUPD k + 0x144

/-- UPD_MOMENT_SAT (R245). -/
def Reg.UPD_MOMENT_SAT (k : Nat) : Nat := pgUPD k + 0x148

/-- UPD_MASTER_SAT (R245). -/
def Reg.UPD_MASTER_SAT (k : Nat) : Nat := pgUPD k + 0x14c

/-- UPD_ROLLFWD (R245). -/
def Reg.UPD_ROLLFWD (k : Nat) : Nat := pgUPD k + 0x150

/-- UPD_RULE_MISMATCH (R245). -/
def Reg.UPD_RULE_MISMATCH (k : Nat) : Nat := pgUPD k + 0x154

/-- UPD_DEV_CHECKED (R245). -/
def Reg.UPD_DEV_CHECKED (k : Nat) : Nat := pgUPD k + 0x158

/-- UPD_DEV_MISMATCH (R245). -/
def Reg.UPD_DEV_MISMATCH (k : Nat) : Nat := pgUPD k + 0x160

/-- LINK pages (R399). -/
def pgLINK (l : Nat) : Nat := 0x06000000 + 0x1000 * l

/-- TOR_LINK_STATE (R269). -/
def Reg.TOR_LINK_STATE (l : Nat) : Nat := pgLINK l + 0x100

/-- TOR_LINK_LANES (R269). -/
def Reg.TOR_LINK_LANES (l : Nat) : Nat := pgLINK l + 0x104

/-- TOR_LINK_CTRL (R269). -/
def Reg.TOR_LINK_CTRL (l : Nat) : Nat := pgLINK l + 0x108

/-- TOR_LANE_THRESH (R269). -/
def Reg.TOR_LANE_THRESH (l : Nat) : Nat := pgLINK l + 0x10c

/-- TOR_FEC_CORRECTED (R269). -/
def Reg.TOR_FEC_CORRECTED (l : Nat) : Nat := pgLINK l + 0x110

/-- TOR_FEC_UNCORR (R269). -/
def Reg.TOR_FEC_UNCORR (l : Nat) : Nat := pgLINK l + 0x118

/-- TOR_CRC_ERR (R269). -/
def Reg.TOR_CRC_ERR (l : Nat) : Nat := pgLINK l + 0x11c

/-- TOR_REPLAYS (R269). -/
def Reg.TOR_REPLAYS (l : Nat) : Nat := pgLINK l + 0x120

/-- TOR_RETRAINS (R269). -/
def Reg.TOR_RETRAINS (l : Nat) : Nat := pgLINK l + 0x124

/-- TOR_LANE_SPARED (R269). -/
def Reg.TOR_LANE_SPARED (l : Nat) : Nat := pgLINK l + 0x128

/-- TOR_MISROUTE (R269). -/
def Reg.TOR_MISROUTE (l : Nat) : Nat := pgLINK l + 0x12c

/-- TOR_RELAY_FLITS (R269). -/
def Reg.TOR_RELAY_FLITS (l : Nat) : Nat := pgLINK l + 0x130

/-- TOR_RELAY_DISCARD (R269). -/
def Reg.TOR_RELAY_DISCARD (l : Nat) : Nat := pgLINK l + 0x138

/-- POD page (R399). -/
def pgPOD : Nat := 0x06010000

/-- TOR_GEOM (R270). -/
def Reg.TOR_GEOM : Nat := pgPOD + 0x100

/-- TOR_SLICE (R270). -/
def Reg.TOR_SLICE : Nat := pgPOD + 0x108

/-- TOR_RELAY (R270). -/
def Reg.TOR_RELAY : Nat := pgPOD + 0x110

/-- TOR_PROBE (R270). -/
def Reg.TOR_PROBE : Nat := pgPOD + 0x114

/-- TOR_WSET (R270). -/
def Reg.TOR_WSET : Nat := pgPOD + 0x118

/-- TOR_COLL_BASE (R270). -/
def Reg.TOR_COLL_BASE : Nat := pgPOD + 0x120

/-- TOR_COLL_TIMEOUT (R270). -/
def Reg.TOR_COLL_TIMEOUT : Nat := pgPOD + 0x128

/-- TOR_COLL_STATUS (R270). -/
def Reg.TOR_COLL_STATUS : Nat := pgPOD + 0x12c

/-- TOR_COLL_DONE (R270). -/
def Reg.TOR_COLL_DONE : Nat := pgPOD + 0x130

/-- TOR_VOID_FWD (R270). -/
def Reg.TOR_VOID_FWD : Nat := pgPOD + 0x134

/-- TOR_SLICE_VIOL (R270). -/
def Reg.TOR_SLICE_VIOL : Nat := pgPOD + 0x138

/-- TOR_RELAY_ENTRIES (R270). -/
def Reg.TOR_RELAY_ENTRIES : Nat := pgPOD + 0x13c

/-- TOR_PROBE_MISMATCH (R270). -/
def Reg.TOR_PROBE_MISMATCH : Nat := pgPOD + 0x140

/-- TOR_COLL_FAIL (R270). -/
def Reg.TOR_COLL_FAIL : Nat := pgPOD + 0x144

/-- XCH page (R399). -/
def pgXCH : Nat := 0x07000000

/-- XCH_CTRL (R311). -/
def Reg.XCH_CTRL : Nat := pgXCH + 0x100

/-- XCH_CTRL_LIVE (R311). -/
def Reg.XCH_CTRL_LIVE : Nat := pgXCH + 0x104

/-- XCH_WEIGHT0 (R311). -/
def Reg.XCH_WEIGHT0 : Nat := pgXCH + 0x108

/-- XCH_WEIGHT1 (R311). -/
def Reg.XCH_WEIGHT1 : Nat := pgXCH + 0x10c

/-- XCH_WEIGHT2 (R311). -/
def Reg.XCH_WEIGHT2 : Nat := pgXCH + 0x110

/-- XCH_WEIGHT3 (R311). -/
def Reg.XCH_WEIGHT3 : Nat := pgXCH + 0x114

/-- XCH_WEIGHT4 (R311). -/
def Reg.XCH_WEIGHT4 : Nat := pgXCH + 0x118

/-- XCH_WEIGHT5 (R311). -/
def Reg.XCH_WEIGHT5 : Nat := pgXCH + 0x11c

/-- XCH_WEIGHT6 (R311). -/
def Reg.XCH_WEIGHT6 : Nat := pgXCH + 0x120

/-- XCH_WEIGHT7 (R311). -/
def Reg.XCH_WEIGHT7 : Nat := pgXCH + 0x124

/-- XCH_WEIGHT_LIVE0 (R311). -/
def Reg.XCH_WEIGHT_LIVE0 : Nat := pgXCH + 0x128

/-- XCH_WEIGHT_LIVE1 (R311). -/
def Reg.XCH_WEIGHT_LIVE1 : Nat := pgXCH + 0x12c

/-- XCH_WEIGHT_LIVE2 (R311). -/
def Reg.XCH_WEIGHT_LIVE2 : Nat := pgXCH + 0x130

/-- XCH_WEIGHT_LIVE3 (R311). -/
def Reg.XCH_WEIGHT_LIVE3 : Nat := pgXCH + 0x134

/-- XCH_WEIGHT_LIVE4 (R311). -/
def Reg.XCH_WEIGHT_LIVE4 : Nat := pgXCH + 0x138

/-- XCH_WEIGHT_LIVE5 (R311). -/
def Reg.XCH_WEIGHT_LIVE5 : Nat := pgXCH + 0x13c

/-- XCH_WEIGHT_LIVE6 (R311). -/
def Reg.XCH_WEIGHT_LIVE6 : Nat := pgXCH + 0x140

/-- XCH_WEIGHT_LIVE7 (R311). -/
def Reg.XCH_WEIGHT_LIVE7 : Nat := pgXCH + 0x144

/-- XCH_IDENT (R311). -/
def Reg.XCH_IDENT : Nat := pgXCH + 0x148

/-- XCH_ROUND_BASE (R311). -/
def Reg.XCH_ROUND_BASE : Nat := pgXCH + 0x150

/-- XCH_SECT (R311). -/
def Reg.XCH_SECT : Nat := pgXCH + 0x158

/-- XCH_REGION_SEL (R311). -/
def Reg.XCH_REGION_SEL : Nat := pgXCH + 0x160

/-- XCH_REGION_ADDR (R311). -/
def Reg.XCH_REGION_ADDR : Nat := pgXCH + 0x168

/-- XCH_REGION_SIZE (R311). -/
def Reg.XCH_REGION_SIZE : Nat := pgXCH + 0x170

/-- XCH_ROUND (R311). -/
def Reg.XCH_ROUND : Nat := pgXCH + 0x178

/-- XCH_TIMERS0 (R311). -/
def Reg.XCH_TIMERS0 : Nat := pgXCH + 0x180

/-- XCH_TIMERS1 (R311). -/
def Reg.XCH_TIMERS1 : Nat := pgXCH + 0x184

/-- XCH_PTR_SEL (R311). -/
def Reg.XCH_PTR_SEL : Nat := pgXCH + 0x188

/-- XCH_PTR_CFG (R311). -/
def Reg.XCH_PTR_CFG : Nat := pgXCH + 0x18c

/-- XCH_PTR_IP_LO (R311). -/
def Reg.XCH_PTR_IP_LO : Nat := pgXCH + 0x190

/-- XCH_PTR_IP_HI (R311). -/
def Reg.XCH_PTR_IP_HI : Nat := pgXCH + 0x198

/-- XCH_PTR_MAC (R311). -/
def Reg.XCH_PTR_MAC : Nat := pgXCH + 0x1a0

/-- XCH_PTR_RATE (R311). -/
def Reg.XCH_PTR_RATE : Nat := pgXCH + 0x1a8

/-- XCH_PTR_PACE (R311). -/
def Reg.XCH_PTR_PACE : Nat := pgXCH + 0x1b0

/-- XCH_PTR_STATUS (R311). -/
def Reg.XCH_PTR_STATUS : Nat := pgXCH + 0x1b8

/-- XCH_STALE_DROPPED (R311). -/
def Reg.XCH_STALE_DROPPED : Nat := pgXCH + 0x1c0

/-- XCH_STALE_PARTIAL (R311). -/
def Reg.XCH_STALE_PARTIAL : Nat := pgXCH + 0x1c4

/-- XCH_SPANS_SENT (R311). -/
def Reg.XCH_SPANS_SENT : Nat := pgXCH + 0x1c8

/-- XCH_SPANS_RECV (R311). -/
def Reg.XCH_SPANS_RECV : Nat := pgXCH + 0x1cc

/-- XCH_SPAN_TRIMMED (R311). -/
def Reg.XCH_SPAN_TRIMMED : Nat := pgXCH + 0x1d0

/-- XCH_HOLD_LOST (R311). -/
def Reg.XCH_HOLD_LOST : Nat := pgXCH + 0x1d4

/-- XCH_GROUPS_LOST (R311). -/
def Reg.XCH_GROUPS_LOST : Nat := pgXCH + 0x1d8

/-- XCH_CHUNKS_LOST (R311). -/
def Reg.XCH_CHUNKS_LOST : Nat := pgXCH + 0x1dc

/-- XCH_NACKS_SENT (R311). -/
def Reg.XCH_NACKS_SENT : Nat := pgXCH + 0x1e0

/-- XCH_NACK_GONE (R311). -/
def Reg.XCH_NACK_GONE : Nat := pgXCH + 0x1e4

/-- XCH_DUP (R311). -/
def Reg.XCH_DUP : Nat := pgXCH + 0x1e8

/-- XCH_HANDOFF_LATE (R311). -/
def Reg.XCH_HANDOFF_LATE : Nat := pgXCH + 0x1ec

/-- XCH_PARTNER_DOWN (R311). -/
def Reg.XCH_PARTNER_DOWN : Nat := pgXCH + 0x1f0

/-- XCH_RESEND_FULL (R311). -/
def Reg.XCH_RESEND_FULL : Nat := pgXCH + 0x1f4

/-- XCH_EARLY (R311). -/
def Reg.XCH_EARLY : Nat := pgXCH + 0x1f8

/-- XCH_SNAP_SERVED (R311). -/
def Reg.XCH_SNAP_SERVED : Nat := pgXCH + 0x1fc

/-- FP pages (R399). -/
def pgFP (p : Nat) : Nat := 0x07001000 + 0x1000 * p

/-- FP_MAC (R312). -/
def Reg.FP_MAC (p : Nat) : Nat := pgFP p + 0x100

/-- FP_IP_LO (R312). -/
def Reg.FP_IP_LO (p : Nat) : Nat := pgFP p + 0x108

/-- FP_IP_HI (R312). -/
def Reg.FP_IP_HI (p : Nat) : Nat := pgFP p + 0x110

/-- FP_CTRL (R312). -/
def Reg.FP_CTRL (p : Nat) : Nat := pgFP p + 0x118

/-- FP_TX_FRAMES (R312). -/
def Reg.FP_TX_FRAMES (p : Nat) : Nat := pgFP p + 0x120

/-- FP_RX_FRAMES (R312). -/
def Reg.FP_RX_FRAMES (p : Nat) : Nat := pgFP p + 0x128

/-- FP_RX_FCS (R312). -/
def Reg.FP_RX_FCS (p : Nat) : Nat := pgFP p + 0x130

/-- FP_RX_DISCARD (R312). -/
def Reg.FP_RX_DISCARD (p : Nat) : Nat := pgFP p + 0x134

/-- FP_GROUPS_REPAIRED (R312). -/
def Reg.FP_GROUPS_REPAIRED (p : Nat) : Nat := pgFP p + 0x138

/-- FP_RESENT (R312). -/
def Reg.FP_RESENT (p : Nat) : Nat := pgFP p + 0x13c

/-- CPH page (R399). -/
def pgCPH : Nat := 0x07010000

/-- CPH_XSTATE (R335). -/
def Reg.CPH_XSTATE : Nat := pgCPH + 0x100

/-- CPH_CLEAR (R335). -/
def Reg.CPH_CLEAR : Nat := pgCPH + 0x104

/-- CPH_EPOCH (R335). -/
def Reg.CPH_EPOCH : Nat := pgCPH + 0x108

/-- CPH_GRACE (R335). -/
def Reg.CPH_GRACE : Nat := pgCPH + 0x10c

/-- CPH_GRACE_LEFT (R335). -/
def Reg.CPH_GRACE_LEFT : Nat := pgCPH + 0x110

/-- CPH_REPLAY_WIN (R335). -/
def Reg.CPH_REPLAY_WIN : Nat := pgCPH + 0x114

/-- CPH_KEY_SEL (R335). -/
def Reg.CPH_KEY_SEL : Nat := pgCPH + 0x120

/-- CPH_KEY_WRAP (R335). -/
def Reg.CPH_KEY_WRAP (n : Nat) : Nat := pgCPH + 0x128 + 8 * n

/-- CPH_KEY_CMD (R335). -/
def Reg.CPH_KEY_CMD : Nat := pgCPH + 0x150

/-- CPH_DEVKEY_ID (R335). -/
def Reg.CPH_DEVKEY_ID : Nat := pgCPH + 0x158

/-- CPH_UNWRAP_FAIL (R335). -/
def Reg.CPH_UNWRAP_FAIL : Nat := pgCPH + 0x160

/-- CPH_XSTATE_REJECT (R335). -/
def Reg.CPH_XSTATE_REJECT : Nat := pgCPH + 0x164

/-- CPH_EPOCH_SWITCHES (R335). -/
def Reg.CPH_EPOCH_SWITCHES : Nat := pgCPH + 0x168

/-- CPH_SWITCH_REFUSED (R335). -/
def Reg.CPH_SWITCH_REFUSED : Nat := pgCPH + 0x16c

/-- CPHD pages (R399). -/
def pgCPHD (p : Nat) : Nat := 0x07011000 + 0x1000 * p

/-- CPH_EPOCH_SLOT (R336). -/
def Reg.CPH_EPOCH_SLOT (p : Nat) (n : Nat) : Nat := pgCPHD p + 0x100 + 4 * n

/-- CPH_FRAME (R336). -/
def Reg.CPH_FRAME (p : Nat) : Nat := pgCPHD p + 0x110

/-- CPH_QUEUE (R336). -/
def Reg.CPH_QUEUE (p : Nat) : Nat := pgCPHD p + 0x118

/-- CPH_HOST_MIN (R336). -/
def Reg.CPH_HOST_MIN (p : Nat) : Nat := pgCPHD p + 0x11c

/-- CPH_AUTH_FAIL (R336). -/
def Reg.CPH_AUTH_FAIL (p : Nat) : Nat := pgCPHD p + 0x120

/-- CPH_NO_KEY (R336). -/
def Reg.CPH_NO_KEY (p : Nat) : Nat := pgCPHD p + 0x124

/-- CPH_CLEAR_REJECT (R336). -/
def Reg.CPH_CLEAR_REJECT (p : Nat) : Nat := pgCPHD p + 0x128

/-- CPH_REPLAY (R336). -/
def Reg.CPH_REPLAY (p : Nat) : Nat := pgCPHD p + 0x12c

/-- CPH_EXPIRED_TX (R336). -/
def Reg.CPH_EXPIRED_TX (p : Nat) : Nat := pgCPHD p + 0x130

/-- CPH_DESC_AUTH_FAIL (R336). -/
def Reg.CPH_DESC_AUTH_FAIL (p : Nat) : Nat := pgCPHD p + 0x134

/-- CPH_INSTALL_REFUSED (R336). -/
def Reg.CPH_INSTALL_REFUSED (p : Nat) : Nat := pgCPHD p + 0x138

/-- CPH_CORE_BUSY (R336). -/
def Reg.CPH_CORE_BUSY (p : Nat) : Nat := pgCPHD p + 0x140

/-- CODEC pages (R399). -/
def pgCODEC (k : Nat) : Nat := 0x07020000 + 0x1000 * k

/-- CODEC_SEG (R313). -/
def Reg.CODEC_SEG (k : Nat) : Nat := pgCODEC k + 0x100

/-- CODEC_STATE (R313). -/
def Reg.CODEC_STATE (k : Nat) : Nat := pgCODEC k + 0x108

/-- CODEC_QUEUE (R313). -/
def Reg.CODEC_QUEUE (k : Nat) : Nat := pgCODEC k + 0x110

/-- CODEC_STALL_CYCLES (R313). -/
def Reg.CODEC_STALL_CYCLES (k : Nat) : Nat := pgCODEC k + 0x118

/-- CODEC_ESCAPES (R313). -/
def Reg.CODEC_ESCAPES (k : Nat) : Nat := pgCODEC k + 0x120

/-- CODEC_SIZE_FAULT (R313). -/
def Reg.CODEC_SIZE_FAULT (k : Nat) : Nat := pgCODEC k + 0x124

/-- CODEC_CRC_FAIL (R313). -/
def Reg.CODEC_CRC_FAIL (k : Nat) : Nat := pgCODEC k + 0x128

/-- CODEC_CHUNKS_ADDED (R313). -/
def Reg.CODEC_CHUNKS_ADDED (k : Nat) : Nat := pgCODEC k + 0x12c

/-- HOSTF pages (R399). -/
def pgHOSTF (d : Nat) : Nat := 0x08000000 + 0x1000 * d

/-- HOST_VF_SPLIT (R69). -/
def Reg.HOST_VF_SPLIT (d : Nat) : Nat := pgHOSTF d + 0x100

/-- HOST_BAR4_BASE (R69). -/
def Reg.HOST_BAR4_BASE (d : Nat) (n : Nat) : Nat := pgHOSTF d + 0x108 + 8 * n

/-- HOST_BAR0_DROPPED (R69). -/
def Reg.HOST_BAR0_DROPPED (d : Nat) : Nat := pgHOSTF d + 0x120

/-- RC page (R399). -/
def pgRC : Nat := 0x08002000

/-- RC_RETRY (R211). -/
def Reg.RC_RETRY : Nat := pgRC + 0x100

/-- RC_FUNC_FROZEN0 (R211). -/
def Reg.RC_FUNC_FROZEN0 : Nat := pgRC + 0x108

/-- RC_FUNC_FROZEN1 (R211). -/
def Reg.RC_FUNC_FROZEN1 : Nat := pgRC + 0x110

/-- RC_VIOL_ADDR (R211). -/
def Reg.RC_VIOL_ADDR : Nat := pgRC + 0x118

/-- RC_VIOL_SRC (R211). -/
def Reg.RC_VIOL_SRC : Nat := pgRC + 0x120

/-- RC_VIOLATIONS (R211). -/
def Reg.RC_VIOLATIONS : Nat := pgRC + 0x128

/-- RC_DB_DROPPED (R211). -/
def Reg.RC_DB_DROPPED : Nat := pgRC + 0x12c

/-- RC_IRQ_DROPPED (R211). -/
def Reg.RC_IRQ_DROPPED : Nat := pgRC + 0x130

/-- RC_REFUSED (R211). -/
def Reg.RC_REFUSED : Nat := pgRC + 0x134

/-- RG pages (R399). -/
def pgRG (g : Nat) : Nat := 0x08100000 + 0x1000 * g

/-- WIN pages (R399). -/
def pgWIN (g : Nat) : Nat := 0x08300000 + 0x1000 * g

/-- RING_DESC of ring n (R209). -/
def Reg.RING_DESC (n : Nat) : Nat := pgRG (n / 64) + 0x800 + 32 * (n % 64)

/-- RING_COMP of ring n (R209). -/
def Reg.RING_COMP (n : Nat) : Nat := pgRG (n / 64) + 0x808 + 32 * (n % 64)

/-- RING_CFG of ring n (R209). -/
def Reg.RING_CFG (n : Nat) : Nat := pgRG (n / 64) + 0x810 + 32 * (n % 64)

/-- RING_AUX of ring n (R209). -/
def Reg.RING_AUX (n : Nat) : Nat := pgRG (n / 64) + 0x814 + 32 * (n % 64)

/-- RING_PTR of ring n (R209). -/
def Reg.RING_PTR (n : Nat) : Nat := pgRG (n / 64) + 0x818 + 32 * (n % 64)

/-- RING_CTRL of ring n (R209). -/
def Reg.RING_CTRL (n : Nat) : Nat := pgRG (n / 64) + 0x81c + 32 * (n % 64)

/-- RG_ASSIGN of ring group g (R209). -/
def Reg.RG_ASSIGN (g : Nat) : Nat := pgRG g + 0x100

/-- WIN_BASE of window k of set s (R210). -/
def Reg.WIN_BASE (s k : Nat) : Nat := pgWIN (s / 32) + 0x800 + 64 * (s % 32) + 16 * k

/-- WIN_LIMIT of window k of set s (R210). -/
def Reg.WIN_LIMIT (s k : Nat) : Nat := pgWIN (s / 32) + 0x808 + 64 * (s % 32) + 16 * k

/-- Header word PAGE_ID (R381). -/
def Hdr.PAGE_ID : Nat := 0x0

/-- Header word PAGE_VER (R381). -/
def Hdr.PAGE_VER : Nat := 0x4

/-- Header word FEAT0 (R381). -/
def Hdr.FEAT0 : Nat := 0x8

/-- Header word FEAT1 (R381). -/
def Hdr.FEAT1 : Nat := 0xc

/-- Header word SIZE0 (R381). -/
def Hdr.SIZE0 : Nat := 0x10

/-- Header word SIZE1 (R381). -/
def Hdr.SIZE1 : Nat := 0x14

/-- Header word SIZE2 (R381). -/
def Hdr.SIZE2 : Nat := 0x18

/-- Header word SIZE3 (R381). -/
def Hdr.SIZE3 : Nat := 0x1c

/-- Header word CTRL (R381). -/
def Hdr.CTRL : Nat := 0x20

/-- Header word STATUS (R381). -/
def Hdr.STATUS : Nat := 0x24

/-- Header word EVT_STATUS (R381). -/
def Hdr.EVT_STATUS : Nat := 0x28

/-- Header word EVT_ENABLE (R381). -/
def Hdr.EVT_ENABLE : Nat := 0x2c

/-- Header word EVT_FORCE (R381). -/
def Hdr.EVT_FORCE : Nat := 0x30

/-- Header word EVT_ROUTE (R381). -/
def Hdr.EVT_ROUTE : Nat := 0x34

/-- Header word TIME (R381). -/
def Hdr.TIME : Nat := 0x38

/-- Header word WP_CTRL (R381). -/
def Hdr.WP_CTRL : Nat := 0x40

/-- Header word WP_STATE (R381). -/
def Hdr.WP_STATE : Nat := 0x44

/-- Header word FENCE_CTRL (R381). -/
def Hdr.FENCE_CTRL : Nat := 0x48

/-- Header word FENCE_STATUS (R381). -/
def Hdr.FENCE_STATUS : Nat := 0x4c

/-- Header word RESET_CTRL (R381). -/
def Hdr.RESET_CTRL : Nat := 0x50

/-- Header word PROGRESS (R381). -/
def Hdr.PROGRESS : Nat := 0x54

/-- Header word WDOG_WINDOW (R381). -/
def Hdr.WDOG_WINDOW : Nat := 0x58

/-- Header word SNAP_CTRL (R381). -/
def Hdr.SNAP_CTRL : Nat := 0x60

/-- Header word CNT_OVF (R381). -/
def Hdr.CNT_OVF : Nat := 0x68

/-- Header word SNAP_TIME (R381). -/
def Hdr.SNAP_TIME : Nat := 0x70

/-- Header word SNAP_OVF (R381). -/
def Hdr.SNAP_OVF : Nat := 0x78

/-- Header word SNAPn (R381). -/
def Hdr.SNAPn (n : Nat) : Nat := 0x80 + 8 * n

end Sys2Proof.Machine
end

