-- ==== Sys2Proof/Machine/RegTable.lean ====
section
/-! DEFINITION. The register tables of the manual: for every register its offset, its repetition, its
width and its fields with access code and reset value (R11, R384). Reserved bits are in no field. -/

namespace Sys2Proof.Machine

/-- The access codes of R11; `live` marks a field of a live mirror (R385). -/
inductive Acc where
  | ro | rw | wp | w1c | w1s | sat | wrap | fuse | live
deriving DecidableEq, Repr

/-- One field: bits hi down to lo, access, reset value. -/
structure Field where
  hi : Nat
  lo : Nat
  acc : Acc
  reset : Nat
deriving DecidableEq, Repr

/-- One register or row of equal registers: offset in the page, count, stride, bytes, the offset of
the register it mirrors, fields. -/
structure RegDesc where
  off : Nat
  cnt : Nat
  stride : Nat
  bytes : Nat
  mirrors : Option Nat
  fields : List Field
deriving DecidableEq, Repr

/-- The page types of R399. -/
inductive PageKind where
  | id | rep | pwr | clk | th | flt | fw | calf | calu | wpc | sc | engc | rt | acc | arb | sig | eng | seq | updc | slt | upd | link | pod | xch | fp | cph | cphd | codec | hostf | rc | rg | win
deriving DecidableEq, Repr

/-- The registers of a ID page (R66, R67). -/
def regsID : List RegDesc := [
  ⟨0x100, 1, 4, 4, none, [⟨31, 16, .fuse, 0x96⟩, ⟨9, 8, .fuse, 0⟩, ⟨7, 0, .fuse, 0xb1⟩]⟩,
  ⟨0x108, 1, 8, 8, none, [⟨63, 0, .fuse, 0⟩]⟩,
  ⟨0x110, 1, 4, 4, none, [⟨15, 10, .rw, 0⟩, ⟨9, 0, .rw, 0⟩]⟩,
  ⟨0x114, 1, 4, 4, some 0x110, [⟨15, 10, .ro, 0⟩, ⟨9, 0, .ro, 0⟩]⟩,
  ⟨0x118, 1, 4, 4, none, [⟨31, 0, .sat, 0⟩]⟩]

/-- The registers of a REP page (R68). -/
def regsREP : List RegDesc := [
  ⟨0x100, 1, 4, 4, none, [⟨8, 8, .ro, 0⟩, ⟨7, 4, .ro, 0⟩, ⟨3, 0, .ro, 0⟩]⟩,
  ⟨0x110, 4, 4, 4, none, [⟨27, 27, .ro, 0⟩, ⟨26, 23, .ro, 0⟩, ⟨22, 22, .ro, 0⟩, ⟨21, 18, .ro, 0⟩, ⟨17, 0, .ro, 0⟩]⟩,
  ⟨0x120, 1, 4, 4, none, [⟨31, 31, .w1s, 0⟩, ⟨12, 0, .ro, 0⟩]⟩,
  ⟨0x130, 1, 4, 4, none, [⟨31, 0, .sat, 0⟩]⟩,
  ⟨0x134, 1, 4, 4, none, [⟨31, 0, .sat, 0⟩]⟩,
  ⟨0x138, 1, 4, 4, none, [⟨31, 0, .sat, 0⟩]⟩,
  ⟨0x13c, 1, 4, 4, none, [⟨31, 0, .sat, 0⟩]⟩]

/-- The registers of a PWR page (R354). -/
def regsPWR : List RegDesc := [
  ⟨0x100, 1, 4, 4, none, [⟨31, 31, .w1s, 0⟩, ⟨30, 29, .ro, 0⟩, ⟨8, 8, .rw, 1⟩, ⟨1, 0, .rw, 2⟩]⟩,
  ⟨0x104, 1, 4, 4, none, [⟨3, 3, .ro, 0⟩, ⟨2, 2, .ro, 0⟩, ⟨1, 0, .ro, 1⟩]⟩,
  ⟨0x108, 1, 4, 4, none, [⟨11, 0, .rw, 0xaf0⟩]⟩,
  ⟨0x10c, 1, 4, 4, none, [⟨15, 0, .rw, 0x3e8⟩]⟩,
  ⟨0x110, 1, 4, 4, none, [⟨31, 16, .ro, 0⟩, ⟨15, 0, .ro, 0⟩]⟩,
  ⟨0x114, 1, 4, 4, none, [⟨11, 0, .ro, 0⟩]⟩,
  ⟨0x120, 1, 4, 4, none, [⟨31, 0, .sat, 0⟩]⟩,
  ⟨0x124, 1, 4, 4, none, [⟨31, 0, .sat, 0⟩]⟩,
  ⟨0x128, 1, 4, 4, none, [⟨31, 0, .sat, 0⟩]⟩]

/-- The registers of a CLK page (R354). -/
def regsCLK : List RegDesc := [
  ⟨0x104, 8, 4, 4, none, [⟨31, 30, .rw, 0⟩, ⟨29, 29, .ro, 0⟩, ⟨19, 0, .rw, 0x3e8⟩]⟩,
  ⟨0x130, 1, 4, 4, none, [⟨3, 0, .rw, 5⟩]⟩,
  ⟨0x134, 1, 4, 4, none, [⟨31, 16, .rw, 0x898⟩, ⟨15, 0, .ro, 0x898⟩]⟩,
  ⟨0x140, 1, 4, 4, none, [⟨31, 0, .sat, 0⟩]⟩,
  ⟨0x144, 1, 4, 4, none, [⟨31, 0, .sat, 0⟩]⟩]

/-- The registers of a TH page (R354). -/
def regsTH : List RegDesc := [
  ⟨0x100, 1, 4, 4, none, [⟨6, 0, .rw, 0⟩]⟩,
  ⟨0x104, 1, 4, 4, none, [⟨15, 0, .ro, 0⟩]⟩,
  ⟨0x108, 1, 4, 4, none, [⟨22, 16, .ro, 0⟩, ⟨15, 0, .ro, 0⟩]⟩,
  ⟨0x10c, 1, 4, 4, none, [⟨15, 8, .rw, 3⟩, ⟨7, 0, .rw, 0x69⟩]⟩,
  ⟨0x110, 1, 4, 4, none, [⟨1, 1, .w1c, 0⟩, ⟨0, 0, .ro, 0⟩]⟩,
  ⟨0x120, 1, 4, 4, none, [⟨31, 0, .sat, 0⟩]⟩,
  ⟨0x124, 1, 4, 4, none, [⟨31, 0, .sat, 0⟩]⟩]

/-- The registers of a FLT page (R376). -/
def regsFLT : List RegDesc := [
  ⟨0x100, 9, 4, 4, none, [⟨19, 0, .rw, 0x2710⟩]⟩,
  ⟨0x130, 1, 4, 4, none, [⟨31, 16, .rw, 0x258⟩, ⟨3, 0, .rw, 3⟩]⟩,
  ⟨0x134, 1, 4, 4, none, [⟨31, 31, .w1s, 0⟩, ⟨8, 1, .w1s, 0⟩]⟩,
  ⟨0x138, 1, 4, 4, none, [⟨15, 0, .rw, 0⟩]⟩,
  ⟨0x13c, 1, 4, 4, none, [⟨31, 28, .ro, 0⟩]⟩,
  ⟨0x140, 1, 8, 8, none, [⟨63, 0, .ro, 0⟩]⟩,
  ⟨0x148, 1, 4, 4, none, [⟨31, 31, .w1s, 0⟩]⟩,
  ⟨0x150, 1, 4, 4, none, [⟨31, 31, .ro, 0⟩, ⟨30, 30, .w1s, 0⟩, ⟨27, 24, .ro, 0⟩, ⟨15, 0, .ro, 0⟩]⟩,
  ⟨0x160, 1, 4, 4, none, [⟨31, 31, .rw, 1⟩, ⟨30, 30, .w1s, 0⟩, ⟨22, 16, .rw, 0x40⟩, ⟨6, 0, .rw, 0⟩]⟩,
  ⟨0x164, 1, 4, 4, none, [⟨31, 31, .ro, 0⟩, ⟨30, 30, .ro, 0⟩, ⟨23, 0, .ro, 0⟩]⟩,
  ⟨0x168, 1, 4, 4, none, [⟨22, 0, .rw, 0⟩]⟩,
  ⟨0x16c, 1, 4, 4, none, [⟨31, 0, .ro, 0⟩]⟩,
  ⟨0x180, 1, 4, 4, none, [⟨31, 0, .sat, 0⟩]⟩,
  ⟨0x184, 1, 4, 4, none, [⟨31, 0, .sat, 0⟩]⟩,
  ⟨0x188, 1, 4, 4, none, [⟨31, 0, .sat, 0⟩]⟩,
  ⟨0x18c, 1, 4, 4, none, [⟨31, 0, .sat, 0⟩]⟩,
  ⟨0x190, 1, 4, 4, none, [⟨31, 0, .sat, 0⟩]⟩,
  ⟨0x194, 1, 4, 4, none, [⟨31, 0, .sat, 0⟩]⟩,
  ⟨0x198, 1, 4, 4, none, [⟨31, 0, .sat, 0⟩]⟩,
  ⟨0x19c, 1, 4, 4, none, [⟨31, 0, .sat, 0⟩]⟩,
  ⟨0x1a0, 1, 4, 4, none, [⟨31, 0, .sat, 0⟩]⟩]

/-- The registers of a FW page (R377). -/
def regsFW : List RegDesc := [
  ⟨0x100, 1, 4, 4, none, [⟨3, 3, .ro, 0⟩, ⟨2, 2, .ro, 0⟩, ⟨1, 1, .ro, 0⟩, ⟨0, 0, .ro, 0⟩]⟩,
  ⟨0x108, 1, 4, 4, none, [⟨31, 0, .ro, 0⟩]⟩,
  ⟨0x10c, 1, 4, 4, none, [⟨31, 0, .ro, 0⟩]⟩,
  ⟨0x110, 1, 4, 4, none, [⟨31, 31, .w1s, 0⟩, ⟨30, 28, .ro, 0⟩]⟩,
  ⟨0x120, 1, 4, 4, none, [⟨31, 0, .sat, 0⟩]⟩,
  ⟨0x124, 1, 4, 4, none, [⟨31, 0, .sat, 0⟩]⟩]

/-- The registers of a CALF page (R394). -/
def regsCALF : List RegDesc := [
  ⟨0x200, 450, 4, 4, none, [⟨31, 16, .fuse, 0⟩, ⟨15, 8, .fuse, 0⟩, ⟨7, 0, .fuse, 0⟩]⟩]

/-- The registers of a CALU page (R394). -/
def regsCALU : List RegDesc := [
  ⟨0x100, 1, 4, 4, none, [⟨31, 0, .sat, 0⟩]⟩,
  ⟨0x200, 450, 4, 4, none, [⟨31, 16, .ro, 0⟩, ⟨15, 8, .ro, 0⟩, ⟨7, 0, .rw, 0⟩]⟩]

/-- The registers of a WPC page (R32). -/
def regsWPC : List RegDesc := [
  ⟨0x100, 1, 4, 4, none, [⟨31, 16, .wp, 1⟩, ⟨15, 0, .wp, 1⟩]⟩,
  ⟨0x104, 1, 4, 4, some 0x100, [⟨31, 16, .live, 1⟩, ⟨15, 0, .live, 1⟩]⟩,
  ⟨0x108, 1, 4, 4, none, [⟨31, 16, .wp, 0⟩]⟩,
  ⟨0x10c, 1, 4, 4, some 0x108, [⟨31, 16, .live, 0⟩]⟩,
  ⟨0x110, 1, 8, 8, none, [⟨63, 0, .wp, 0⟩]⟩,
  ⟨0x118, 1, 8, 8, some 0x110, [⟨63, 0, .live, 0⟩]⟩,
  ⟨0x120, 1, 8, 8, none, [⟨63, 0, .ro, 0⟩]⟩,
  ⟨0x128, 1, 8, 8, none, [⟨63, 32, .ro, 0⟩, ⟨31, 16, .ro, 0⟩, ⟨3, 2, .ro, 0⟩, ⟨1, 1, .ro, 0⟩, ⟨0, 0, .ro, 0⟩]⟩,
  ⟨0x130, 1, 4, 4, none, [⟨31, 0, .rw, 0xf4240⟩]⟩,
  ⟨0x134, 1, 4, 4, none, [⟨31, 0, .ro, 0⟩]⟩,
  ⟨0x138, 1, 8, 8, none, [⟨63, 17, .rw, 0⟩]⟩,
  ⟨0x140, 1, 4, 4, none, [⟨8, 8, .rw, 0⟩, ⟨5, 0, .rw, 0⟩]⟩,
  ⟨0x144, 1, 4, 4, none, [⟨9, 0, .ro, 0⟩]⟩,
  ⟨0x150, 1, 4, 4, none, [⟨31, 0, .sat, 0⟩]⟩,
  ⟨0x154, 1, 4, 4, none, [⟨31, 0, .sat, 0⟩]⟩,
  ⟨0x158, 1, 4, 4, none, [⟨31, 0, .sat, 0⟩]⟩,
  ⟨0x15c, 1, 4, 4, none, [⟨31, 0, .sat, 0⟩]⟩,
  ⟨0x160, 1, 4, 4, none, [⟨31, 0, .sat, 0⟩]⟩]

/-- The registers of a SC page (R126). -/
def regsSC : List RegDesc := [
  ⟨0x100, 1, 8, 8, none, [⟨63, 21, .rw, 0⟩]⟩,
  ⟨0x108, 1, 4, 4, none, [⟨13, 0, .rw, 0⟩]⟩,
  ⟨0x10c, 1, 4, 4, none, [⟨31, 0, .rw, 0x3f800000⟩]⟩,
  ⟨0x110, 1, 4, 4, none, [⟨31, 0, .rw, 0xa⟩]⟩,
  ⟨0x114, 1, 4, 4, none, [⟨31, 31, .w1s, 0⟩, ⟨30, 30, .w1s, 0⟩, ⟨29, 28, .ro, 0⟩, ⟨8, 0, .ro, 0⟩]⟩,
  ⟨0x118, 1, 4, 4, none, [⟨15, 0, .wp, 0x40⟩]⟩,
  ⟨0x11c, 1, 4, 4, some 0x118, [⟨15, 0, .live, 0x40⟩]⟩,
  ⟨0x120, 1, 4, 4, none, [⟨31, 16, .wp, 0x7d0⟩, ⟨9, 8, .wp, 0⟩]⟩,
  ⟨0x124, 1, 4, 4, some 0x120, [⟨31, 16, .live, 0x7d0⟩, ⟨9, 8, .live, 0⟩]⟩,
  ⟨0x128, 1, 4, 4, none, [⟨15, 8, .wp, 0x20⟩, ⟨7, 0, .wp, 0⟩]⟩,
  ⟨0x12c, 1, 4, 4, some 0x128, [⟨15, 8, .live, 0x20⟩, ⟨7, 0, .live, 0⟩]⟩,
  ⟨0x130, 1, 4, 4, none, [⟨31, 16, .ro, 0⟩, ⟨7, 0, .ro, 0x10⟩]⟩,
  ⟨0x134, 1, 4, 4, none, [⟨7, 0, .ro, 0x10⟩]⟩,
  ⟨0x138, 1, 4, 4, none, [⟨8, 8, .w1s, 0⟩, ⟨7, 0, .rw, 0x10⟩]⟩,
  ⟨0x140, 1, 4, 4, none, [⟨0, 0, .ro, 0⟩]⟩,
  ⟨0x144, 1, 4, 4, none, [⟨8, 8, .rw, 0⟩, ⟨0, 0, .rw, 0⟩]⟩,
  ⟨0x150, 1, 4, 4, none, [⟨31, 0, .sat, 0⟩]⟩,
  ⟨0x154, 1, 4, 4, none, [⟨31, 0, .sat, 0⟩]⟩,
  ⟨0x158, 1, 4, 4, none, [⟨31, 0, .sat, 0⟩]⟩,
  ⟨0x15c, 1, 4, 4, none, [⟨31, 0, .sat, 0⟩]⟩,
  ⟨0x160, 1, 4, 4, none, [⟨31, 0, .sat, 0⟩]⟩,
  ⟨0x164, 1, 4, 4, none, [⟨31, 0, .sat, 0⟩]⟩,
  ⟨0x168, 1, 4, 4, none, [⟨31, 0, .sat, 0⟩]⟩,
  ⟨0x16c, 1, 4, 4, none, [⟨31, 0, .sat, 0⟩]⟩,
  ⟨0x170, 1, 4, 4, none, [⟨31, 0, .sat, 0⟩]⟩,
  ⟨0x174, 1, 4, 4, none, [⟨31, 0, .sat, 0⟩]⟩,
  ⟨0x178, 1, 4, 4, none, [⟨31, 0, .sat, 0⟩]⟩]

/-- The registers of a ENGC page (R151). -/
def regsENGC : List RegDesc := [
  ⟨0x100, 1, 8, 8, none, [⟨63, 0, .wp, 0⟩]⟩,
  ⟨0x108, 1, 8, 8, some 0x100, [⟨63, 0, .live, 0⟩]⟩]

/-- The registers of a RT page (R180). -/
def regsRT : List RegDesc := [
  ⟨0x100, 1, 8, 8, none, [⟨63, 0, .w1s, 0⟩]⟩,
  ⟨0x108, 1, 4, 4, none, [⟨15, 0, .wp, 0⟩]⟩,
  ⟨0x10c, 1, 4, 4, some 0x108, [⟨15, 0, .live, 0⟩]⟩,
  ⟨0x110, 1, 8, 8, none, [⟨63, 15, .wp, 0⟩, ⟨10, 0, .wp, 0⟩]⟩,
  ⟨0x118, 1, 8, 8, some 0x110, [⟨63, 15, .live, 0⟩, ⟨10, 0, .live, 0⟩]⟩,
  ⟨0x120, 1, 4, 4, none, [⟨15, 8, .ro, 0⟩, ⟨7, 0, .rw, 3⟩]⟩,
  ⟨0x124, 1, 4, 4, none, [⟨8, 8, .rw, 0⟩, ⟨0, 0, .rw, 0⟩]⟩,
  ⟨0x128, 1, 4, 4, none, [⟨0, 0, .ro, 0⟩]⟩,
  ⟨0x130, 1, 4, 4, none, [⟨31, 0, .sat, 0⟩]⟩,
  ⟨0x134, 1, 4, 4, none, [⟨31, 0, .sat, 0⟩]⟩,
  ⟨0x138, 1, 4, 4, none, [⟨31, 0, .sat, 0⟩]⟩,
  ⟨0x13c, 1, 4, 4, none, [⟨31, 0, .sat, 0⟩]⟩,
  ⟨0x140, 1, 4, 4, none, [⟨31, 0, .sat, 0⟩]⟩,
  ⟨0x144, 1, 4, 4, none, [⟨31, 0, .sat, 0⟩]⟩,
  ⟨0x148, 1, 4, 4, none, [⟨31, 0, .sat, 0⟩]⟩]

/-- The registers of a ACC page (R153). -/
def regsACC : List RegDesc := [
  ⟨0x100, 1, 4, 4, none, [⟨4, 0, .rw, 0⟩]⟩,
  ⟨0x108, 1, 8, 8, none, [⟨63, 12, .rw, 0⟩]⟩,
  ⟨0x110, 1, 4, 4, none, [⟨16, 0, .rw, 0⟩]⟩,
  ⟨0x114, 1, 4, 4, none, [⟨31, 31, .w1s, 0⟩, ⟨5, 0, .ro, 0⟩]⟩,
  ⟨0x120, 1, 4, 4, none, [⟨31, 0, .sat, 0⟩]⟩,
  ⟨0x124, 1, 4, 4, none, [⟨31, 0, .sat, 0⟩]⟩,
  ⟨0x128, 1, 4, 4, none, [⟨31, 0, .sat, 0⟩]⟩,
  ⟨0x12c, 1, 4, 4, none, [⟨31, 0, .sat, 0⟩]⟩]

/-- The registers of a ARB page (R214). -/
def regsARB : List RegDesc := [
  ⟨0x100, 1, 4, 4, none, [⟨24, 16, .rw, 0x10⟩, ⟨12, 8, .rw, 2⟩, ⟨3, 0, .rw, 6⟩]⟩,
  ⟨0x108, 1, 4, 4, none, [⟨15, 8, .rw, 0⟩, ⟨5, 0, .rw, 0⟩]⟩,
  ⟨0x10c, 1, 4, 4, none, [⟨31, 0, .ro, 0⟩]⟩,
  ⟨0x110, 1, 8, 8, none, [⟨47, 0, .sat, 0⟩]⟩,
  ⟨0x118, 1, 8, 8, none, [⟨47, 0, .sat, 0⟩]⟩,
  ⟨0x120, 1, 4, 4, none, [⟨31, 0, .sat, 0⟩]⟩,
  ⟨0x124, 1, 4, 4, none, [⟨31, 0, .sat, 0⟩]⟩]

/-- The registers of a SIG page (R213). -/
def regsSIG : List RegDesc := [
  ⟨0x100, 1, 4, 4, none, [⟨11, 0, .rw, 0⟩]⟩,
  ⟨0x104, 1, 4, 4, none, [⟨31, 0, .ro, 0⟩]⟩,
  ⟨0x108, 1, 8, 8, none, [⟨63, 62, .rw, 0⟩, ⟨31, 0, .rw, 0⟩]⟩,
  ⟨0x110, 1, 8, 8, none, [⟨63, 0, .ro, 0⟩]⟩,
  ⟨0x118, 1, 4, 4, none, [⟨6, 0, .ro, 0⟩]⟩,
  ⟨0x120, 1, 4, 4, none, [⟨31, 0, .sat, 0⟩]⟩,
  ⟨0x124, 1, 4, 4, none, [⟨31, 0, .sat, 0⟩]⟩]

/-- The registers of a ENG page (R152). -/
def regsENG : List RegDesc := [
  ⟨0x100, 9, 4, 4, none, [⟨29, 24, .ro, 0⟩, ⟨21, 16, .ro, 0⟩, ⟨13, 8, .ro, 0⟩, ⟨5, 0, .ro, 0⟩]⟩,
  ⟨0x124, 1, 4, 4, none, [⟨7, 4, .ro, 0⟩, ⟨3, 0, .ro, 0⟩]⟩,
  ⟨0x128, 1, 8, 8, none, [⟨39, 0, .ro, 0⟩]⟩,
  ⟨0x130, 1, 4, 4, none, [⟨31, 31, .w1s, 0⟩, ⟨30, 29, .ro, 0⟩, ⟨5, 0, .rw, 0⟩]⟩,
  ⟨0x134, 1, 4, 4, none, [⟨31, 31, .ro, 0⟩, ⟨13, 8, .ro, 0⟩, ⟨5, 0, .ro, 0⟩]⟩,
  ⟨0x138, 1, 4, 4, none, [⟨6, 0, .ro, 0⟩]⟩,
  ⟨0x140, 1, 8, 8, none, [⟨63, 0, .sat, 0⟩]⟩,
  ⟨0x148, 1, 4, 4, none, [⟨31, 0, .sat, 0⟩]⟩,
  ⟨0x14c, 1, 4, 4, none, [⟨31, 0, .sat, 0⟩]⟩,
  ⟨0x150, 1, 4, 4, none, [⟨31, 0, .sat, 0⟩]⟩,
  ⟨0x154, 1, 4, 4, none, [⟨31, 0, .sat, 0⟩]⟩]

/-- The registers of a SEQ page (R181, R182). -/
def regsSEQ : List RegDesc := [
  ⟨0x8, 1, 4, 4, none, [⟨10, 0, .ro, 0x7ff⟩]⟩,
  ⟨0xc, 1, 4, 4, none, [⟨31, 16, .ro, 0xb101⟩, ⟨15, 0, .ro, 0x100⟩]⟩,
  ⟨0x10, 1, 4, 4, none, [⟨31, 16, .ro, 0x2000⟩, ⟨15, 8, .ro, 0x40⟩, ⟨7, 0, .ro, 0x10⟩]⟩,
  ⟨0x14, 1, 4, 4, none, [⟨31, 24, .ro, 0x20⟩, ⟨23, 16, .ro, 0x40⟩, ⟨15, 8, .ro, 0x40⟩, ⟨7, 4, .ro, 8⟩, ⟨3, 0, .ro, 8⟩]⟩,
  ⟨0x18, 1, 4, 4, none, [⟨31, 16, .ro, 0x2000⟩, ⟨15, 8, .ro, 0x20⟩, ⟨7, 0, .ro, 6⟩]⟩,
  ⟨0x1c, 1, 4, 4, none, [⟨31, 16, .ro, 0x400⟩, ⟨15, 8, .ro, 0x14⟩]⟩,
  ⟨0x100, 1, 4, 4, none, [⟨12, 0, .wp, 0⟩]⟩,
  ⟨0x104, 1, 4, 4, some 0x100, [⟨12, 0, .live, 0⟩]⟩,
  ⟨0x108, 1, 4, 4, none, [⟨31, 31, .ro, 0⟩, ⟨30, 30, .ro, 0⟩, ⟨29, 29, .ro, 0⟩, ⟨28, 28, .ro, 0⟩, ⟨12, 0, .ro, 0⟩]⟩,
  ⟨0x110, 1, 8, 8, none, [⟨63, 32, .ro, 0⟩, ⟨31, 0, .ro, 0⟩]⟩,
  ⟨0x118, 1, 4, 4, none, [⟨31, 31, .w1s, 0⟩, ⟨4, 0, .ro, 0⟩]⟩,
  ⟨0x120, 1, 4, 4, none, [⟨31, 0, .sat, 0⟩]⟩,
  ⟨0x124, 1, 4, 4, none, [⟨31, 0, .sat, 0⟩]⟩,
  ⟨0x128, 1, 4, 4, none, [⟨31, 0, .sat, 0⟩]⟩,
  ⟨0x12c, 1, 4, 4, none, [⟨31, 0, .sat, 0⟩]⟩,
  ⟨0x130, 1, 4, 4, none, [⟨31, 0, .sat, 0⟩]⟩,
  ⟨0x134, 1, 4, 4, none, [⟨31, 0, .sat, 0⟩]⟩,
  ⟨0x180, 16, 8, 8, none, [⟨63, 49, .ro, 0⟩, ⟨48, 48, .ro, 0⟩, ⟨47, 32, .ro, 0⟩, ⟨31, 28, .ro, 0⟩, ⟨27, 25, .ro, 0⟩, ⟨24, 22, .ro, 0⟩, ⟨21, 13, .ro, 0⟩, ⟨12, 0, .ro, 0⟩]⟩,
  ⟨0x400, 20, 4, 4, none, [⟨31, 16, .ro, 0⟩, ⟨15, 8, .ro, 0⟩, ⟨7, 0, .ro, 0⟩]⟩]

/-- The registers of a UPDC page (R244). -/
def regsUPDC : List RegDesc := [
  ⟨0x100, 1, 4, 4, none, [⟨2, 2, .wp, 1⟩, ⟨1, 1, .wp, 1⟩, ⟨0, 0, .rw, 0⟩]⟩,
  ⟨0x104, 1, 4, 4, some 0x100, [⟨2, 2, .live, 1⟩, ⟨1, 1, .live, 1⟩]⟩,
  ⟨0x108, 1, 4, 4, none, [⟨7, 0, .rw, 0⟩]⟩,
  ⟨0x10c, 1, 4, 4, none, [⟨31, 31, .rw, 0⟩, ⟨30, 30, .rw, 0⟩, ⟨29, 29, .rw, 1⟩, ⟨1, 0, .rw, 1⟩]⟩,
  ⟨0x110, 1, 4, 4, none, [⟨31, 0, .rw, 0⟩]⟩,
  ⟨0x114, 1, 4, 4, none, [⟨31, 0, .rw, 0x3f666666⟩]⟩,
  ⟨0x118, 1, 4, 4, none, [⟨31, 0, .rw, 0x3f7fbe77⟩]⟩,
  ⟨0x11c, 1, 4, 4, none, [⟨31, 0, .rw, 0x322bcc77⟩]⟩,
  ⟨0x120, 1, 4, 4, none, [⟨31, 0, .rw, 0⟩]⟩,
  ⟨0x124, 1, 4, 4, none, [⟨31, 0, .rw, 0⟩]⟩,
  ⟨0x128, 1, 4, 4, none, [⟨31, 31, .w1s, 0⟩, ⟨30, 30, .w1s, 0⟩, ⟨29, 28, .ro, 0⟩, ⟨8, 0, .ro, 0⟩]⟩,
  ⟨0x130, 1, 4, 4, none, [⟨31, 31, .rw, 1⟩, ⟨4, 0, .rw, 8⟩]⟩,
  ⟨0x138, 1, 8, 8, none, [⟨63, 12, .rw, 0⟩]⟩,
  ⟨0x140, 1, 8, 8, none, [⟨63, 12, .rw, 0⟩]⟩,
  ⟨0x148, 1, 8, 8, none, [⟨47, 0, .rw, 0⟩]⟩,
  ⟨0x150, 1, 8, 8, none, [⟨63, 32, .ro, 0xffffffff⟩, ⟨31, 0, .ro, 0xffffffff⟩]⟩,
  ⟨0x160, 1, 4, 4, none, [⟨31, 0, .sat, 0⟩]⟩,
  ⟨0x164, 1, 4, 4, none, [⟨31, 0, .sat, 0⟩]⟩,
  ⟨0x168, 1, 4, 4, none, [⟨31, 0, .sat, 0⟩]⟩,
  ⟨0x16c, 1, 4, 4, none, [⟨31, 0, .sat, 0⟩]⟩]

/-- The registers of a SLT page (R246). -/
def regsSLT : List RegDesc := [
  ⟨0x10, 1, 4, 4, none, [⟨31, 0, .ro, 0⟩]⟩,
  ⟨0x14, 1, 4, 4, none, [⟨15, 0, .ro, 0x10⟩]⟩,
  ⟨0x100, 1, 8, 8, none, [⟨63, 0, .sat, 0⟩]⟩,
  ⟨0x108, 1, 8, 8, none, [⟨63, 0, .sat, 0⟩]⟩,
  ⟨0x110, 1, 4, 4, none, [⟨31, 0, .sat, 0⟩]⟩,
  ⟨0x114, 1, 4, 4, none, [⟨31, 0, .sat, 0⟩]⟩,
  ⟨0x118, 1, 4, 4, none, [⟨31, 0, .sat, 0⟩]⟩,
  ⟨0x120, 1, 8, 8, none, [⟨63, 0, .ro, 0⟩]⟩]

/-- The registers of a UPD page (R245). -/
def regsUPD : List RegDesc := [
  ⟨0x100, 1, 8, 8, none, [⟨63, 16, .wp, 0⟩, ⟨15, 0, .wp, 0⟩]⟩,
  ⟨0x108, 1, 8, 8, some 0x100, [⟨63, 16, .live, 0⟩, ⟨15, 0, .live, 0⟩]⟩,
  ⟨0x110, 1, 8, 8, none, [⟨63, 12, .rw, 0⟩, ⟨4, 0, .rw, 0xc⟩]⟩,
  ⟨0x118, 1, 4, 4, none, [⟨9, 0, .rw, 0⟩]⟩,
  ⟨0x11c, 1, 4, 4, none, [⟨31, 31, .w1s, 0⟩]⟩,
  ⟨0x120, 1, 8, 8, none, [⟨63, 32, .ro, 0⟩, ⟨31, 16, .ro, 0⟩, ⟨6, 4, .ro, 0⟩, ⟨0, 0, .ro, 0⟩]⟩,
  ⟨0x128, 1, 4, 4, none, [⟨31, 31, .ro, 0⟩, ⟨18, 16, .ro, 0⟩, ⟨15, 0, .ro, 0⟩]⟩,
  ⟨0x130, 1, 8, 8, none, [⟨63, 0, .sat, 0⟩]⟩,
  ⟨0x138, 1, 8, 8, none, [⟨63, 0, .sat, 0⟩]⟩,
  ⟨0x140, 1, 4, 4, none, [⟨31, 0, .sat, 0⟩]⟩,
  ⟨0x144, 1, 4, 4, none, [⟨31, 0, .sat, 0⟩]⟩,
  ⟨0x148, 1, 4, 4, none, [⟨31, 0, .sat, 0⟩]⟩,
  ⟨0x14c, 1, 4, 4, none, [⟨31, 0, .sat, 0⟩]⟩,
  ⟨0x150, 1, 4, 4, none, [⟨31, 0, .sat, 0⟩]⟩,
  ⟨0x154, 1, 4, 4, none, [⟨31, 0, .sat, 0⟩]⟩,
  ⟨0x158, 1, 8, 8, none, [⟨63, 0, .sat, 0⟩]⟩,
  ⟨0x160, 1, 4, 4, none, [⟨31, 0, .sat, 0⟩]⟩]

/-- The registers of a LINK page (R269). -/
def regsLINK : List RegDesc := [
  ⟨0x100, 1, 4, 4, none, [⟨31, 16, .ro, 0⟩, ⟨15, 14, .ro, 0⟩, ⟨13, 13, .ro, 0⟩, ⟨4, 4, .ro, 0⟩, ⟨3, 0, .ro, 0⟩]⟩,
  ⟨0x104, 1, 4, 4, none, [⟨31, 31, .ro, 0⟩, ⟨29, 26, .ro, 0⟩, ⟨25, 25, .ro, 0⟩, ⟨24, 21, .ro, 0⟩, ⟨16, 0, .ro, 0⟩]⟩,
  ⟨0x108, 1, 4, 4, none, [⟨31, 31, .w1s, 0⟩, ⟨30, 30, .rw, 0⟩, ⟨11, 8, .rw, 3⟩, ⟨7, 0, .rw, 8⟩]⟩,
  ⟨0x10c, 1, 4, 4, none, [⟨31, 0, .rw, 0x10000⟩]⟩,
  ⟨0x110, 1, 8, 8, none, [⟨63, 0, .sat, 0⟩]⟩,
  ⟨0x118, 1, 4, 4, none, [⟨31, 0, .sat, 0⟩]⟩,
  ⟨0x11c, 1, 4, 4, none, [⟨31, 0, .sat, 0⟩]⟩,
  ⟨0x120, 1, 4, 4, none, [⟨31, 0, .sat, 0⟩]⟩,
  ⟨0x124, 1, 4, 4, none, [⟨31, 0, .sat, 0⟩]⟩,
  ⟨0x128, 1, 4, 4, none, [⟨31, 0, .sat, 0⟩]⟩,
  ⟨0x12c, 1, 4, 4, none, [⟨31, 0, .sat, 0⟩]⟩,
  ⟨0x130, 1, 8, 8, none, [⟨63, 0, .sat, 0⟩]⟩,
  ⟨0x138, 1, 4, 4, none, [⟨31, 0, .sat, 0⟩]⟩]

/-- The registers of a POD page (R270). -/
def regsPOD : List RegDesc := [
  ⟨0x100, 1, 4, 4, none, [⟨11, 8, .rw, 0⟩, ⟨6, 4, .rw, 0⟩, ⟨2, 0, .rw, 0⟩]⟩,
  ⟨0x108, 1, 4, 4, none, [⟨31, 31, .rw, 0⟩, ⟨27, 24, .rw, 0⟩, ⟨22, 20, .rw, 0⟩, ⟨18, 16, .rw, 0⟩, ⟨11, 8, .rw, 0⟩, ⟨6, 4, .rw, 0⟩, ⟨2, 0, .rw, 0⟩]⟩,
  ⟨0x110, 1, 4, 4, none, [⟨9, 9, .ro, 0⟩, ⟨8, 8, .rw, 1⟩, ⟨2, 0, .rw, 0⟩]⟩,
  ⟨0x114, 1, 4, 4, none, [⟨31, 31, .w1s, 0⟩, ⟨30, 29, .ro, 0⟩, ⟨5, 0, .ro, 0⟩]⟩,
  ⟨0x118, 1, 4, 4, none, [⟨9, 0, .rw, 0⟩]⟩,
  ⟨0x120, 1, 8, 8, none, [⟨63, 16, .rw, 0⟩, ⟨10, 0, .rw, 0⟩]⟩,
  ⟨0x128, 1, 4, 4, none, [⟨31, 0, .rw, 0x3e8⟩]⟩,
  ⟨0x12c, 1, 4, 4, none, [⟨31, 31, .w1c, 0⟩, ⟨30, 28, .ro, 0⟩, ⟨9, 0, .ro, 0⟩]⟩,
  ⟨0x130, 1, 4, 4, none, [⟨31, 0, .sat, 0⟩]⟩,
  ⟨0x134, 1, 4, 4, none, [⟨31, 0, .sat, 0⟩]⟩,
  ⟨0x138, 1, 4, 4, none, [⟨31, 0, .sat, 0⟩]⟩,
  ⟨0x13c, 1, 4, 4, none, [⟨31, 0, .sat, 0⟩]⟩,
  ⟨0x140, 1, 4, 4, none, [⟨31, 0, .sat, 0⟩]⟩,
  ⟨0x144, 1, 4, 4, none, [⟨31, 0, .sat, 0⟩]⟩]

/-- The registers of a XCH page (R311). -/
def regsXCH : List RegDesc := [
  ⟨0x100, 1, 4, 4, none, [⟨31, 31, .wp, 0⟩, ⟨29, 24, .wp, 0x1f⟩, ⟨23, 19, .wp, 4⟩, ⟨18, 16, .wp, 3⟩, ⟨8, 8, .wp, 1⟩, ⟨3, 0, .wp, 4⟩]⟩,
  ⟨0x104, 1, 4, 4, some 0x100, [⟨31, 31, .live, 0⟩, ⟨29, 24, .live, 0x1f⟩, ⟨23, 19, .live, 4⟩, ⟨18, 16, .live, 3⟩, ⟨8, 8, .live, 1⟩, ⟨3, 0, .live, 4⟩]⟩,
  ⟨0x108, 1, 4, 4, none, [⟨31, 0, .wp, 0x3f800000⟩]⟩,
  ⟨0x10c, 1, 4, 4, none, [⟨31, 0, .wp, 0x3f000000⟩]⟩,
  ⟨0x110, 1, 4, 4, none, [⟨31, 0, .wp, 0x3e800000⟩]⟩,
  ⟨0x114, 1, 4, 4, none, [⟨31, 0, .wp, 0x3e000000⟩]⟩,
  ⟨0x118, 1, 4, 4, none, [⟨31, 0, .wp, 0⟩]⟩,
  ⟨0x11c, 1, 4, 4, none, [⟨31, 0, .wp, 0⟩]⟩,
  ⟨0x120, 1, 4, 4, none, [⟨31, 0, .wp, 0⟩]⟩,
  ⟨0x124, 1, 4, 4, none, [⟨31, 0, .wp, 0⟩]⟩,
  ⟨0x128, 1, 4, 4, some 0x108, [⟨31, 0, .live, 0x3f800000⟩]⟩,
  ⟨0x12c, 1, 4, 4, some 0x10c, [⟨31, 0, .live, 0x3f000000⟩]⟩,
  ⟨0x130, 1, 4, 4, some 0x110, [⟨31, 0, .live, 0x3e800000⟩]⟩,
  ⟨0x134, 1, 4, 4, some 0x114, [⟨31, 0, .live, 0x3e000000⟩]⟩,
  ⟨0x138, 1, 4, 4, some 0x118, [⟨31, 0, .live, 0⟩]⟩,
  ⟨0x13c, 1, 4, 4, some 0x11c, [⟨31, 0, .live, 0⟩]⟩,
  ⟨0x140, 1, 4, 4, some 0x120, [⟨31, 0, .live, 0⟩]⟩,
  ⟨0x144, 1, 4, 4, some 0x124, [⟨31, 0, .live, 0⟩]⟩,
  ⟨0x148, 1, 8, 8, none, [⟨63, 48, .rw, 0⟩, ⟨31, 0, .rw, 0⟩]⟩,
  ⟨0x150, 1, 4, 4, none, [⟨31, 0, .rw, 0⟩]⟩,
  ⟨0x158, 1, 8, 8, none, [⟨63, 12, .rw, 0⟩, ⟨11, 0, .rw, 0⟩]⟩,
  ⟨0x160, 1, 4, 4, none, [⟨2, 0, .rw, 0⟩]⟩,
  ⟨0x168, 1, 8, 8, none, [⟨63, 12, .rw, 0⟩]⟩,
  ⟨0x170, 1, 8, 8, none, [⟨47, 12, .rw, 0⟩]⟩,
  ⟨0x178, 1, 8, 8, none, [⟨63, 32, .ro, 0xffffffff⟩, ⟨31, 0, .ro, 0⟩]⟩,
  ⟨0x180, 1, 4, 4, none, [⟨31, 16, .rw, 0x7d0⟩, ⟨15, 0, .rw, 0xfa⟩]⟩,
  ⟨0x184, 1, 4, 4, none, [⟨31, 24, .rw, 4⟩, ⟨19, 16, .rw, 4⟩, ⟨15, 0, .rw, 0x32⟩]⟩,
  ⟨0x188, 1, 4, 4, none, [⟨7, 0, .rw, 0⟩]⟩,
  ⟨0x18c, 1, 4, 4, none, [⟨31, 31, .rw, 0⟩, ⟨30, 30, .rw, 0⟩, ⟨29, 28, .ro, 0⟩]⟩,
  ⟨0x190, 1, 8, 8, none, [⟨63, 0, .rw, 0⟩]⟩,
  ⟨0x198, 1, 8, 8, none, [⟨63, 0, .rw, 0⟩]⟩,
  ⟨0x1a0, 1, 8, 8, none, [⟨63, 48, .rw, 0xb798⟩, ⟨47, 0, .rw, 0⟩]⟩,
  ⟨0x1a8, 1, 8, 8, none, [⟨47, 32, .rw, 0xc8⟩, ⟨31, 16, .rw, 0x3e80⟩, ⟨15, 0, .rw, 0xa⟩]⟩,
  ⟨0x1b0, 1, 4, 4, none, [⟨31, 24, .rw, 0x40⟩, ⟨23, 16, .rw, 0xa⟩, ⟨15, 0, .rw, 0x1f4⟩]⟩,
  ⟨0x1b8, 1, 8, 8, none, [⟨63, 32, .ro, 0xffffffff⟩, ⟨31, 16, .ro, 0⟩, ⟨15, 0, .ro, 0⟩]⟩,
  ⟨0x1c0, 1, 4, 4, none, [⟨31, 0, .sat, 0⟩]⟩,
  ⟨0x1c4, 1, 4, 4, none, [⟨31, 0, .sat, 0⟩]⟩,
  ⟨0x1c8, 1, 4, 4, none, [⟨31, 0, .sat, 0⟩]⟩,
  ⟨0x1cc, 1, 4, 4, none, [⟨31, 0, .sat, 0⟩]⟩,
  ⟨0x1d0, 1, 4, 4, none, [⟨31, 0, .sat, 0⟩]⟩,
  ⟨0x1d4, 1, 4, 4, none, [⟨31, 0, .sat, 0⟩]⟩,
  ⟨0x1d8, 1, 4, 4, none, [⟨31, 0, .sat, 0⟩]⟩,
  ⟨0x1dc, 1, 4, 4, none, [⟨31, 0, .sat, 0⟩]⟩,
  ⟨0x1e0, 1, 4, 4, none, [⟨31, 0, .sat, 0⟩]⟩,
  ⟨0x1e4, 1, 4, 4, none, [⟨31, 0, .sat, 0⟩]⟩,
  ⟨0x1e8, 1, 4, 4, none, [⟨31, 0, .sat, 0⟩]⟩,
  ⟨0x1ec, 1, 4, 4, none, [⟨31, 0, .sat, 0⟩]⟩,
  ⟨0x1f0, 1, 4, 4, none, [⟨31, 0, .sat, 0⟩]⟩,
  ⟨0x1f4, 1, 4, 4, none, [⟨31, 0, .sat, 0⟩]⟩,
  ⟨0x1f8, 1, 4, 4, none, [⟨31, 0, .sat, 0⟩]⟩,
  ⟨0x1fc, 1, 4, 4, none, [⟨31, 0, .sat, 0⟩]⟩]

/-- The registers of a FP page (R312). -/
def regsFP : List RegDesc := [
  ⟨0x100, 1, 8, 8, none, [⟨47, 0, .rw, 0⟩]⟩,
  ⟨0x108, 1, 8, 8, none, [⟨63, 0, .rw, 0⟩]⟩,
  ⟨0x110, 1, 8, 8, none, [⟨63, 0, .rw, 0⟩]⟩,
  ⟨0x118, 1, 4, 4, none, [⟨31, 31, .ro, 0⟩, ⟨16, 16, .rw, 0⟩, ⟨15, 0, .rw, 0xb798⟩]⟩,
  ⟨0x120, 1, 8, 8, none, [⟨63, 0, .sat, 0⟩]⟩,
  ⟨0x128, 1, 8, 8, none, [⟨63, 0, .sat, 0⟩]⟩,
  ⟨0x130, 1, 4, 4, none, [⟨31, 0, .sat, 0⟩]⟩,
  ⟨0x134, 1, 4, 4, none, [⟨31, 0, .sat, 0⟩]⟩,
  ⟨0x138, 1, 4, 4, none, [⟨31, 0, .sat, 0⟩]⟩,
  ⟨0x13c, 1, 4, 4, none, [⟨31, 0, .sat, 0⟩]⟩]

/-- The registers of a CPH page (R335). -/
def regsCPH : List RegDesc := [
  ⟨0x100, 1, 4, 4, none, [⟨31, 31, .ro, 0⟩, ⟨1, 0, .rw, 0⟩]⟩,
  ⟨0x104, 1, 4, 4, none, [⟨0, 0, .rw, 0⟩]⟩,
  ⟨0x108, 1, 4, 4, none, [⟨31, 31, .w1s, 0⟩, ⟨30, 29, .ro, 0⟩, ⟨2, 2, .ro, 0⟩, ⟨1, 0, .ro, 0⟩]⟩,
  ⟨0x10c, 1, 4, 4, none, [⟨7, 0, .rw, 8⟩]⟩,
  ⟨0x110, 1, 4, 4, none, [⟨31, 0, .ro, 0⟩]⟩,
  ⟨0x114, 1, 4, 4, none, [⟨4, 0, .rw, 0x14⟩]⟩,
  ⟨0x120, 1, 4, 4, none, [⟨31, 24, .rw, 0⟩, ⟨17, 16, .rw, 0⟩, ⟨10, 0, .rw, 0⟩]⟩,
  ⟨0x128, 5, 8, 8, none, [⟨63, 0, .rw, 0⟩]⟩,
  ⟨0x150, 1, 4, 4, none, [⟨31, 31, .w1s, 0⟩, ⟨30, 30, .w1s, 0⟩, ⟨29, 27, .ro, 0⟩]⟩,
  ⟨0x158, 1, 4, 4, none, [⟨31, 0, .fuse, 0⟩]⟩,
  ⟨0x160, 1, 4, 4, none, [⟨31, 0, .sat, 0⟩]⟩,
  ⟨0x164, 1, 4, 4, none, [⟨31, 0, .sat, 0⟩]⟩,
  ⟨0x168, 1, 4, 4, none, [⟨31, 0, .sat, 0⟩]⟩,
  ⟨0x16c, 1, 4, 4, none, [⟨31, 0, .sat, 0⟩]⟩]

/-- The registers of a CPHD page (R336). -/
def regsCPHD : List RegDesc := [
  ⟨0x100, 4, 4, 4, none, [⟨31, 31, .w1s, 0⟩, ⟨30, 29, .ro, 0⟩, ⟨9, 0, .rw, 0⟩]⟩,
  ⟨0x110, 1, 8, 8, none, [⟨63, 0, .ro, 0⟩]⟩,
  ⟨0x118, 1, 4, 4, none, [⟨12, 0, .ro, 0⟩]⟩,
  ⟨0x11c, 1, 4, 4, none, [⟨3, 0, .rw, 1⟩]⟩,
  ⟨0x120, 1, 4, 4, none, [⟨31, 0, .sat, 0⟩]⟩,
  ⟨0x124, 1, 4, 4, none, [⟨31, 0, .sat, 0⟩]⟩,
  ⟨0x128, 1, 4, 4, none, [⟨31, 0, .sat, 0⟩]⟩,
  ⟨0x12c, 1, 4, 4, none, [⟨31, 0, .sat, 0⟩]⟩,
  ⟨0x130, 1, 4, 4, none, [⟨31, 0, .sat, 0⟩]⟩,
  ⟨0x134, 1, 4, 4, none, [⟨31, 0, .sat, 0⟩]⟩,
  ⟨0x138, 1, 4, 4, none, [⟨31, 0, .sat, 0⟩]⟩,
  ⟨0x140, 1, 8, 8, none, [⟨63, 0, .sat, 0⟩]⟩]

/-- The registers of a CODEC page (R313). -/
def regsCODEC : List RegDesc := [
  ⟨0x100, 1, 4, 4, none, [⟨27, 16, .rw, 0⟩, ⟨11, 0, .rw, 0⟩]⟩,
  ⟨0x108, 1, 8, 8, none, [⟨63, 32, .ro, 0⟩, ⟨31, 16, .ro, 0⟩, ⟨2, 0, .ro, 0⟩]⟩,
  ⟨0x110, 1, 4, 4, none, [⟨18, 0, .ro, 0⟩]⟩,
  ⟨0x118, 1, 8, 8, none, [⟨63, 0, .sat, 0⟩]⟩,
  ⟨0x120, 1, 4, 4, none, [⟨31, 0, .sat, 0⟩]⟩,
  ⟨0x124, 1, 4, 4, none, [⟨31, 0, .sat, 0⟩]⟩,
  ⟨0x128, 1, 4, 4, none, [⟨31, 0, .sat, 0⟩]⟩,
  ⟨0x12c, 1, 4, 4, none, [⟨31, 0, .sat, 0⟩]⟩]

/-- The registers of a HOSTF page (R69). -/
def regsHOSTF : List RegDesc := [
  ⟨0x100, 1, 4, 4, none, [⟨13, 8, .rw, 0x14⟩, ⟨5, 0, .rw, 0x28⟩]⟩,
  ⟨0x108, 3, 8, 8, none, [⟨47, 36, .rw, 0⟩]⟩,
  ⟨0x120, 1, 4, 4, none, [⟨31, 0, .sat, 0⟩]⟩]

/-- The registers of a RC page (R211). -/
def regsRC : List RegDesc := [
  ⟨0x100, 1, 4, 4, none, [⟨31, 0, .rw, 0x64⟩]⟩,
  ⟨0x108, 1, 8, 8, none, [⟨63, 0, .w1c, 0⟩]⟩,
  ⟨0x110, 1, 8, 8, none, [⟨63, 0, .w1c, 0⟩]⟩,
  ⟨0x118, 1, 8, 8, none, [⟨63, 0, .ro, 0⟩]⟩,
  ⟨0x120, 1, 4, 4, none, [⟨31, 30, .ro, 0⟩, ⟨29, 0, .ro, 0⟩]⟩,
  ⟨0x128, 1, 4, 4, none, [⟨31, 0, .sat, 0⟩]⟩,
  ⟨0x12c, 1, 4, 4, none, [⟨31, 0, .sat, 0⟩]⟩,
  ⟨0x130, 1, 4, 4, none, [⟨31, 0, .sat, 0⟩]⟩,
  ⟨0x134, 1, 4, 4, none, [⟨31, 0, .sat, 0⟩]⟩]

/-- The registers of a RG page (R209). -/
def regsRG : List RegDesc := [
  ⟨0x100, 1, 4, 4, none, [⟨31, 31, .rw, 0⟩, ⟨12, 12, .rw, 0⟩, ⟨11, 10, .rw, 0⟩, ⟨9, 4, .rw, 0⟩, ⟨3, 0, .rw, 0⟩]⟩,
  ⟨0x800, 64, 32, 8, none, [⟨63, 6, .rw, 0⟩, ⟨0, 0, .rw, 0⟩]⟩,
  ⟨0x808, 64, 32, 8, none, [⟨63, 6, .rw, 0⟩, ⟨0, 0, .rw, 0⟩]⟩,
  ⟨0x810, 64, 32, 4, none, [⟨31, 29, .rw, 0⟩, ⟨28, 24, .rw, 4⟩, ⟨23, 14, .rw, 0⟩, ⟨4, 0, .rw, 0⟩]⟩,
  ⟨0x814, 64, 32, 4, none, [⟨31, 31, .rw, 0⟩, ⟨26, 16, .rw, 0⟩, ⟨7, 6, .rw, 0⟩, ⟨5, 0, .rw, 0⟩]⟩,
  ⟨0x818, 64, 32, 4, none, [⟨31, 16, .ro, 0⟩, ⟨15, 0, .rw, 0⟩]⟩,
  ⟨0x81c, 64, 32, 4, none, [⟨31, 31, .w1s, 0⟩, ⟨30, 30, .w1s, 0⟩, ⟨29, 29, .rw, 0⟩, ⟨28, 28, .w1s, 0⟩, ⟨27, 24, .ro, 0⟩, ⟨23, 16, .ro, 0⟩, ⟨15, 0, .ro, 0⟩]⟩]

/-- The registers of a WIN page (R210). -/
def regsWIN : List RegDesc := [
  ⟨0x800, 128, 16, 8, none, [⟨63, 12, .rw, 0⟩, ⟨1, 1, .rw, 0⟩, ⟨0, 0, .rw, 0⟩]⟩,
  ⟨0x808, 128, 16, 8, none, [⟨63, 12, .rw, 0⟩]⟩]

/-- The registers of the common header (R381). -/
def regsHDR : List RegDesc := [
  ⟨0x0, 1, 4, 4, none, [⟨31, 24, .ro, 0⟩, ⟨23, 12, .ro, 0⟩, ⟨11, 0, .ro, 0⟩]⟩,
  ⟨0x4, 1, 4, 4, none, [⟨15, 8, .ro, 1⟩, ⟨7, 0, .ro, 0⟩]⟩,
  ⟨0x20, 1, 4, 4, none, [⟨31, 31, .w1s, 0⟩]⟩,
  ⟨0x24, 1, 4, 4, none, [⟨31, 16, .ro, 0⟩, ⟨7, 4, .ro, 0⟩, ⟨3, 0, .ro, 0⟩]⟩,
  ⟨0x28, 1, 4, 4, none, [⟨31, 0, .w1c, 0⟩]⟩,
  ⟨0x2c, 1, 4, 4, none, [⟨31, 0, .rw, 0⟩]⟩,
  ⟨0x30, 1, 4, 4, none, [⟨31, 0, .w1s, 0⟩]⟩,
  ⟨0x34, 1, 4, 4, none, [⟨31, 31, .rw, 0⟩, ⟨30, 30, .rw, 0⟩, ⟨28, 28, .rw, 0⟩, ⟨27, 26, .rw, 0⟩, ⟨25, 20, .rw, 0⟩, ⟨10, 0, .rw, 0⟩]⟩,
  ⟨0x38, 1, 8, 8, none, [⟨63, 0, .ro, 0⟩]⟩,
  ⟨0x40, 1, 4, 4, none, [⟨31, 31, .w1s, 0⟩, ⟨30, 30, .w1s, 0⟩]⟩,
  ⟨0x44, 1, 4, 4, none, [⟨31, 31, .ro, 0⟩, ⟨30, 30, .ro, 0⟩, ⟨15, 0, .ro, 0⟩]⟩,
  ⟨0x48, 1, 4, 4, none, [⟨31, 31, .w1s, 0⟩, ⟨30, 30, .rw, 0⟩]⟩,
  ⟨0x4c, 1, 4, 4, none, [⟨31, 31, .ro, 0⟩, ⟨30, 30, .ro, 0⟩, ⟨29, 29, .ro, 0⟩, ⟨28, 28, .ro, 0⟩, ⟨23, 0, .ro, 0⟩]⟩,
  ⟨0x50, 1, 4, 4, none, [⟨31, 31, .w1s, 0⟩]⟩,
  ⟨0x54, 1, 4, 4, none, [⟨31, 0, .wrap, 0⟩]⟩,
  ⟨0x58, 1, 4, 4, none, [⟨15, 0, .rw, 0x3e8⟩]⟩,
  ⟨0x60, 1, 4, 4, none, [⟨31, 31, .w1s, 0⟩, ⟨30, 30, .w1s, 0⟩, ⟨25, 24, .rw, 0⟩, ⟨23, 16, .ro, 0⟩, ⟨15, 0, .ro, 0⟩]⟩,
  ⟨0x68, 1, 8, 8, none, [⟨63, 0, .w1c, 0⟩]⟩,
  ⟨0x70, 1, 8, 8, none, [⟨63, 0, .ro, 0⟩]⟩,
  ⟨0x78, 1, 8, 8, none, [⟨63, 0, .ro, 0⟩]⟩,
  ⟨0x80, 16, 8, 8, none, [⟨63, 0, .ro, 0⟩]⟩]

/-- The block registers of a page type. -/
def PageKind.regs : PageKind → List RegDesc
  | .id => regsID
  | .rep => regsREP
  | .pwr => regsPWR
  | .clk => regsCLK
  | .th => regsTH
  | .flt => regsFLT
  | .fw => regsFW
  | .calf => regsCALF
  | .calu => regsCALU
  | .wpc => regsWPC
  | .sc => regsSC
  | .engc => regsENGC
  | .rt => regsRT
  | .acc => regsACC
  | .arb => regsARB
  | .sig => regsSIG
  | .eng => regsENG
  | .seq => regsSEQ
  | .updc => regsUPDC
  | .slt => regsSLT
  | .upd => regsUPD
  | .link => regsLINK
  | .pod => regsPOD
  | .xch => regsXCH
  | .fp => regsFP
  | .cph => regsCPH
  | .cphd => regsCPHD
  | .codec => regsCODEC
  | .hostf => regsHOSTF
  | .rc => regsRC
  | .rg => regsRG
  | .win => regsWIN

/-- The block type of R399. -/
def PageKind.typeCode : PageKind → Nat
  | .id => 0x001
  | .rep => 0x002
  | .pwr => 0x004
  | .clk => 0x005
  | .th => 0x006
  | .flt => 0x007
  | .fw => 0x008
  | .calf => 0x009
  | .calu => 0x00a
  | .wpc => 0x020
  | .sc => 0x021
  | .engc => 0x022
  | .rt => 0x024
  | .acc => 0x023
  | .arb => 0x025
  | .sig => 0x026
  | .eng => 0x030
  | .seq => 0x031
  | .updc => 0x050
  | .slt => 0x052
  | .upd => 0x051
  | .link => 0x060
  | .pod => 0x061
  | .xch => 0x070
  | .fp => 0x071
  | .cph => 0x073
  | .cphd => 0x074
  | .codec => 0x072
  | .hostf => 0x003
  | .rc => 0x042
  | .rg => 0x040
  | .win => 0x041

/-- The base address of page i of a type. -/
def PageKind.base (k : PageKind) (i : Nat) : Nat :=
  match k with
  | .id => pgID
  | .rep => pgREP
  | .pwr => pgPWR
  | .clk => pgCLK
  | .th => pgTH
  | .flt => pgFLT
  | .fw => pgFW
  | .calf => pgCALF i
  | .calu => pgCALU i
  | .wpc => pgWPC
  | .sc => pgSC
  | .engc => pgENGC
  | .rt => pgRT
  | .acc => pgACC i
  | .arb => pgARB i
  | .sig => pgSIG i
  | .eng => pgENG i
  | .seq => pgSEQ i
  | .updc => pgUPDC
  | .slt => pgSLT
  | .upd => pgUPD i
  | .link => pgLINK i
  | .pod => pgPOD
  | .xch => pgXCH
  | .fp => pgFP i
  | .cph => pgCPH
  | .cphd => pgCPHD i
  | .codec => pgCODEC i
  | .hostf => pgHOSTF i
  | .rc => pgRC
  | .rg => pgRG i
  | .win => pgWIN i

/-- How many pages the type has. -/
def PageKind.count : PageKind → Nat
  | .id => 1
  | .rep => 1
  | .pwr => 1
  | .clk => 1
  | .th => 1
  | .flt => 1
  | .fw => 1
  | .calf => 4
  | .calu => 4
  | .wpc => 1
  | .sc => 1
  | .engc => 1
  | .rt => 1
  | .acc => 4
  | .arb => 4
  | .sig => 4
  | .eng => 64
  | .seq => 64
  | .updc => 1
  | .slt => 1
  | .upd => 48
  | .link => 6
  | .pod => 1
  | .xch => 1
  | .fp => 2
  | .cph => 1
  | .cphd => 2
  | .codec => 32
  | .hostf => 2
  | .rc => 1
  | .rg => 512
  | .win => 32

/-- The page an address of the register space lies in (R378, R399); none where unpopulated. -/
def pageOf (a : Nat) : Option (PageKind × Nat) :=
  let w := a / 0x1000000
  let i := a / 0x1000 % 0x1000
  if w = 0 then
    if i = 0 then some (.id, 0) else if i = 1 then some (.rep, 0) else if i = 2 then some (.pwr, 0)
    else if i = 3 then some (.clk, 0) else if i = 4 then some (.th, 0) else if i = 5 then some (.flt, 0)
    else if i = 6 then some (.fw, 0) else if 0x10 ≤ i ∧ i < 0x14 then some (.calf, i - 0x10)
    else if 0x18 ≤ i ∧ i < 0x1c then some (.calu, i - 0x18) else none
  else if w ≤ 4 then
    let d := w - 1
    if i = 0x14 then some (.acc, d) else if i = 0x15 then some (.arb, d) else if i = 0x16 then some (.sig, d)
    else if 0x20 ≤ i ∧ i < 0x30 then some (.eng, 16 * d + (i - 0x20))
    else if 0x40 ≤ i ∧ i < 0x50 then some (.seq, 16 * d + (i - 0x40))
    else if d ≠ 0 then none
    else if i = 0x10 then some (.wpc, 0) else if i = 0x11 then some (.sc, 0) else if i = 0x12 then some (.engc, 0)
    else if i = 0x13 then some (.rt, 0) else none
  else if w = 5 then
    if i = 0 then some (.updc, 0) else if i = 8 then some (.slt, 0)
    else if 0x10 ≤ i ∧ i < 0x40 then some (.upd, i - 0x10) else none
  else if w = 6 then
    if i < 6 then some (.link, i) else if i = 0x10 then some (.pod, 0) else none
  else if w = 7 then
    if i = 0 then some (.xch, 0) else if i = 1 ∨ i = 2 then some (.fp, i - 1) else if i = 0x10 then some (.cph, 0)
    else if i = 0x11 ∨ i = 0x12 then some (.cphd, i - 0x11)
    else if 0x20 ≤ i ∧ i < 0x40 then some (.codec, i - 0x20) else none
  else if w = 8 then
    if i = 0 ∨ i = 1 then some (.hostf, i) else if i = 2 then some (.rc, 0)
    else if 0x100 ≤ i ∧ i < 0x300 then some (.rg, i - 0x100)
    else if 0x300 ≤ i ∧ i < 0x320 then some (.win, i - 0x300) else none
  else none

/-- How many trims a calibration category has (R393). -/
def calTrims (cat : Nat) : Nat :=
  if cat = 0 then 128 else if cat = 1 then 16 else if cat = 2 then 450 else 32

/-- The register a page offset lies in, and its number in the row. -/
def findDesc (ds : List RegDesc) (o : Nat) : Option (RegDesc × Nat) :=
  match ds with
  | [] => none
  | d :: r =>
    if d.off ≤ o ∧ o < d.off + d.cnt * d.stride ∧ (o - d.off) % d.stride < d.bytes then
      some (d, (o - d.off) / d.stride)
    else findDesc r o

/-- The registers a page shows at an offset: the common header below 0x100 where the block does not
define the word, the block's registers elsewhere. -/
def descAt (a : Nat) : Option (RegDesc × Nat) :=
  match pageOf a with
  | none => none
  | some (k, i) =>
    let o := a % 0x1000
    if (k = .calf ∨ k = .calu) ∧ 0x200 ≤ o ∧ 0x200 + 4 * calTrims i ≤ o then none
    else match findDesc k.regs o with
      | some r => some r
      | none => if o < 0x100 then findDesc regsHDR o else none

/-- The value a register's fields have at reset. -/
def RegDesc.resetValue (d : RegDesc) : Nat :=
  d.fields.foldl (fun v f => v + f.reset * 2 ^ f.lo) 0

/-- The latency table of stepping B1, LAT_ID 0xB101 (R164): BASE, MULT and UNIT of class n. -/
def latTable : List (Nat × Nat × Nat) :=
  [(2, 0, 0), (1, 0, 0), (2, 0, 0), (6, 0, 0), (5, 0, 0), (14, 0, 0), (10, 0, 0), (20, 0, 0), (8, 0, 0), (9, 0, 0),
   (64, 1, 1), (0, 1, 1), (40, 0, 0), (12, 0, 0), (190, 0, 0), (12, 0, 0), (190, 0, 0), (8, 0, 0), (170, 0, 0), (96, 0, 0)]

/-- The result latency of class n for a number of reduction cycles (R164). -/
def latency (n units : Nat) : Nat :=
  match latTable[n]? with
  | some (b, m, _) => b + m * units
  | none => 0

/-- The address a register key names: bits above 31 of a key hold the number that a selector register
adds (a region, a partner, an arbiter port). -/
def keyAddr (k : Nat) : Nat := k % 2 ^ 32

/-- What a register reads as when nothing has written it since reset (R384): the reset value of its
table; for a fuse field with reset "—" the part's own value; the repair map of a part without defects. -/
def regReset (k : Nat) : DWord :=
  let a := keyAddr k
  match descAt a with
  | none => 0
  | some (d, n) =>
    if a = Reg.ID_PART then BitVec.ofNat 64 (d.resetValue + 0x100 * boolNat Config.orderIs1T)
    else if a = Reg.ID_SERIAL then Config.fuse a
    else if a = Reg.CPH_DEVKEY_ID then (Config.fuse a).setWidth 32 |>.setWidth 64
    else if a = Reg.FP_MAC 0 ∨ a = Reg.FP_MAC 1 then (Config.fuse a).setWidth 48 |>.setWidth 64
    else if d.off = 0x110 ∧ pageOf a = some (.rep, 0) then 0x3FFFF
    else match pageOf a with
      | some (.eng, _) =>
        if d.off = 0x100 then BitVec.ofNat 64 ((4 * n + 3) * 2 ^ 24 + (4 * n + 2) * 2 ^ 16 + (4 * n + 1) * 2 ^ 8 + 4 * n)
        else if d.off = 0x124 then 0xF
        else BitVec.ofNat 64 d.resetValue
      | some (.calf, _) => (Config.fuse a).setWidth 32 |>.setWidth 64
      | some (.calu, i) => ((Config.fuse (Reg.CALF_TRIM i n)).setWidth 32 &&& 0xFFFF0000).setWidth 64
      | some (.seq, _) =>
        if d.off = 0x400 then
          match latTable[n]? with
          | some (b, m, u) => BitVec.ofNat 64 (b * 0x10000 + m * 0x100 + u)
          | none => 0
        else BitVec.ofNat 64 d.resetValue
      | some (.arb, _) =>
        if d.off = 0x10c then (Config.fuse k).setWidth 32 |>.setWidth 64 else BitVec.ofNat 64 d.resetValue
      | _ => BitVec.ofNat 64 d.resetValue

end Sys2Proof.Machine
end

