-- ==== Sys2Proof/Machine/State.lean ====
section
/-! DEFINITION. The state of the block, the reasons a step can stop, and the state after reset. -/

namespace Sys2Proof.Machine

/-- The whole block. Registers stand in `regs` by address; everything the manual describes that is no
register has a field of its own. -/
structure State where
  /-- The commands that are waiting, first in, first out. -/
  pending : List Instr := []
  /-- The module timestamp in ns (R389). -/
  now : Nat := 0
  /-- Every register that does not read its reset value, by BAR0 offset (R378, R384). -/
  regs : Map DWord := []
  /-- Module memory, by local offset (R53); an unlisted byte has never been written (R427). -/
  mem : List Host.Cell := []
  /-- How often memory contents have been lost (R427): the model's own, for the free bytes. -/
  memEpoch : Nat := 0
  /-- 64-byte bursts whose data is uncorrectable (R246). -/
  badBursts : List Nat := []
  /-- Host memory that the block has written, by host die × 2^64 + PCIe address. -/
  hostMem : List Host.Cell := []
  /-- How many undefined values have been drawn: the model's own. -/
  freeCount : Nat := 0
  /-- What the block has sent out, oldest first. -/
  out : List Output := []
  /-- Masked MSI-X vectors, by function × 4096 + vector (R392). -/
  msixMasked : List Nat := []
  /-- Pending bits of masked vectors. -/
  msixPending : List Nat := []
  /-- The VF split in force on each host die (R59). -/
  vfSplit : Map (Nat × Nat) := []
  /-- Host dies in their fundamental reset. -/
  perst : List Nat := []
  /-- Wards under a ward fence or reset, until their units are admitted again (R46, R355). -/
  wardFence : List Nat := []
  /-- Undelivered PLDM event messages: PAGE_ID, page, bits (R398). -/
  pldm : List (Nat × Nat × Nat) := []
  /-- The waypoint controller. -/
  wp : Wp := {}
  /-- The logical chiplets 0 to 63. -/
  chiplets : Map Chiplet := []
  /-- ACC_CMD.INVALIDATE in progress, by base die × 32 + region: 1 while it runs (R153). -/
  ranges : Map Nat := []
  /-- Accumulation writes on their way to a region unit. -/
  accNet : List AccWrite := []
  /-- Accumulation writes held by the region units (R136, R138). -/
  accHeld : List AccWrite := []
  /-- Chain ends on their way to torus injection buffers (R160 KIND 3, R259). -/
  injects : List Inject := []
  /-- Staged slot writes, oldest first (R104). -/
  staged : List Staged := []
  /-- A loss-scale load staged for the next waypoint (R121). -/
  lsStaged : Option (BitVec 8) := none
  /-- Slot records the scale unit keeps while SC_TABLE_BASE places no table, by slot × 128 + offset. -/
  slotMem : List Host.Cell := []
  /-- The slot configuration mirror of R166: CONFIG words as of the last waypoint. -/
  mirror : Map Word := []
  /-- Where the mirror took the slots it lists nothing of: the count of memory losses and the address of slot 0's record then;
  none before the first waypoint. -/
  mirrorAt : Option (Nat × Nat) := none
  /-- Scale slots pinned by update engines: 2 × engine for the live map or 2 × engine + 1 for the pending map, slot (R105). -/
  pins : List (Nat × Nat) := []
  /-- Writes into register space of the update engine at work, oldest first; empty between commands (R428). -/
  regPort : List (Nat × List Byte) := []
  /-- Census of the step in progress, by source × 16384 + slot (R113). -/
  census : Map CensusRep := []
  /-- RESIGHTED and OVERRUN counts of the step by slot (R118, R119). -/
  resighted : Map (Nat × Nat) := []
  /-- The signal counters, by base die × 4096 + number (R202). -/
  sigs : Map Word := []
  /-- Signal operations on their way (R204). -/
  sigNet : List SigOp := []
  /-- The event FIFO of each base die, oldest record first (R205). -/
  evts : Map (List DWord) := []
  /-- The rings that are not OFF. -/
  rings : Map Ring := []
  /-- Work whose descriptors a function-level reset has ended (R356). -/
  ghosts : List Ghost := []
  /-- The entries of the soft-repair region in flash, in order (R65). -/
  softRegion : List (List Byte) := []
  /-- An erase of the soft-repair region is requested (R65). -/
  softClear : Bool := false
  /-- The repairs in force, in the order they were applied, each with the spare it uses; none where the spare's number is open
  or no spare was left (R60, R61). -/
  repairs : List (Mend × Option Nat) := []
  /-- Repairs of this power cycle that the full region could not record (R65). -/
  unrecorded : List (Mend × Option Nat) := []
  /-- The ring fetched last in each tier of a host die, by host die × 2 + tier (R187). -/
  lastFetch : Map Nat := []
  /-- The arbiters, by base die × 232 + number (R214). -/
  arbs : Map Arb := []
  /-- The update engines 0 to 47. -/
  upds : Map UpdEng := []
  /-- Accepted OUTER_STEP descriptors that wait for the next gather instant (R242). -/
  updQueue : List UpdPass := []
  /-- UPDATE descriptors accepted and not yet complete. -/
  updOpen : List UpdOpen := []
  /-- The fix round whose delta formation has not done reading the shard, and its waypoint E_r (R27). -/
  deltaOpen : Option (Nat × Nat) := none
  /-- Fix rounds that have opened since and wait for that formation, oldest first: round, waypoint, the partners that were UP
  (R24). -/
  deltaNext : List (Nat × Nat × List Nat) := []
  /-- The variant slots in force (R239). -/
  variants : Map Variant := []
  /-- Staged variant writes, oldest first. -/
  varStaged : List (Nat × Variant) := []
  /-- The torus link dies 0 to 5. -/
  links : Map Link := []
  /-- Links that have received an identity record since TOR_PROBE.START (R267). -/
  probeSeen : List Nat := []
  /-- The entries of the collective table. -/
  colls : Map CollEntry := []
  /-- FETCH requests this module holds as owner (R261). -/
  fetches : List HeldFetch := []
  /-- The key slots 0 to 2,047 (R317). -/
  keys : Map KeySlot := []
  /-- The key slot each epoch entry names, by die × 4 + epoch (R327). -/
  epochs : Map Nat := []
  /-- Epoch entries (die × 4 + epoch) that a reset of their die made NONE before HOLD_S of the epoch had passed: the frames under
  them are held back and not counted (R330). -/
  epochGone : List Nat := []
  /-- When the PREVIOUS epoch became so (R329). -/
  prevSince : Option Nat := none
  /-- CPH_GRACE as it stood at the switch that made it so (R329). -/
  prevGrace : Nat := 0
  /-- One more than the highest frame count accepted, by (partner × 5 + epoch, or 4 for cleartext) × 2 + bit 63 (R326). -/
  replay : Map Nat := []
  /-- The cipher engines 0 and 1. -/
  ciphers : Map CipherEng := []
  /-- Streams formed and not released, oldest first (R294). -/
  tx : List TxStream := []
  /-- The STREAM number of the next stream formed (R272). -/
  streamNum : Nat := 0
  /-- The partners 0 to 255. -/
  partners : Map Partner := []
  /-- Streams being received, the module's own among them. -/
  rx : List RxStream := []
  /-- The round delta in formation (R275 to R281). -/
  delta : DeltaWork := {}
  /-- Section scales the scale unit writes at the next waypoint: slot, t (R276). -/
  sectT : List (Nat × Word) := []
  /-- The hold store: wire round and formed chunks, oldest first (R305). -/
  hold : List (Nat × List Byte) := []
  /-- Span streams due: first wire round, partners (R306). -/
  spanDue : List (Nat × List Nat) := []
  /-- The round that serves the snapshot requests, and the partners its stream is due to (R309). -/
  snapDue : Option (Nat × List Nat) := none
  /-- The round report in progress, by partner (R304). -/
  reports : Map PartnerReport := []
  /-- Own chunks added since the last handoff. -/
  ownAdded : Nat := 0
  /-- The first local round the accumulator covers. -/
  covered : Nat := 0
  /-- HANDOFF descriptors that wait for a close: ring, index. -/
  handoffs : List (Nat × Nat) := []
  /-- The handoff being carried out (R304). -/
  handing : Option Handing := none
  /-- The two serve buffers: ranges of working weights and their bytes (R28). -/
  serveBufs : Map (List (Nat × List Byte)) := []
  /-- The SNAP_FETCH at work. -/
  snapFetch : Option SnapFetch := none
  /-- Power controller (R337 to R345). -/
  pwr : Pwr := {}
  /-- The fast clocks of the wards 1 to 8 (R346). -/
  clocks : Map WardClock := []
  /-- The OFFSET of each calibration trim that took effect last, by category × 512 + trim (R395). -/
  calTaken : Map Nat := []
  /-- Each sensor: its temperature in 1/16 °C with both offsets, as a 16-bit field, and how many samples in a row read 120 °C or more with the factory offset (R351, R353). -/
  temps : Map (Nat × Nat) := []
  /-- The firmware images (R372). -/
  fw : Firmware := {}
  /-- Straps and TAP. -/
  pads : Pads := {}
  /-- Ward resets asked for whose units are still in their drains (R355). -/
  wardDue : List Nat := []
  /-- A module warm reset whose fences are not over, with the defects its self-test will find (R355, R358). -/
  warmDue : Option (List Defect) := none
  /-- The dump being taken or held. -/
  dump : Option Dump := none
  /-- Accesses to other modules that have not been answered, oldest first (R52). -/
  remote : List Remote := []
  /-- What CODEC and CIPHER descriptors have read from other modules so far. -/
  fetched : List Fetched := []
  /-- What the binnacle keeps of each unit, by unit number. -/
  units : Map UnitSt := []
deriving DecidableEq, Repr

/-- Why a step faults. -/
inductive Fault where
  /-- A command whose operands no bus, link or port can carry. Raised by no command: each takes such an operand as the manual
  takes what is malformed, and drops, discards or ignores it. Safe. -/
  | illFormed
deriving DecidableEq, Repr

/-- Why a step is refused. -/
inductive Refusal where
  /-- A command that has no meaning yet. Raised by a refused arm of exec alone. Safe. -/
  | notModelled (mnemonic : String)
deriving DecidableEq, Repr

/-- The state right after power-on, in WATCH: every register at its reset
value (R384), nothing written, no ring created, no job, no command waiting. DEDUCED: assumption 11; what the manual
gives no reset value is zero or empty, DESIGN CHOICE: assumption 12. -/
def State.reset : State := {}

end Sys2Proof.Machine
end

