-- ==== Sys2Proof/Machine/Ops.lean ====
section
/-! DEFINITION. The named operations over registers, counters, events, memory, windows and units that
every command's meaning is made of. -/

namespace Sys2Proof.Machine

/-! ### Registers -/

/-- The stored value of a register, by its BAR0 offset. -/
def State.reg (s : State) (a : Nat) : Nat := (Map.get regReset s.regs a).toNat

/-- Stores a register's value. -/
def State.setReg (s : State) (a v : Nat) : State :=
  { s with regs := Map.put regReset s.regs a (BitVec.ofNat 64 v) }

/-- Bits hi down to lo of a register. -/
def State.fld (s : State) (a hi lo : Nat) : Nat := bitsOf (s.reg a) hi lo

/-- One bit of a register. -/
def State.flag (s : State) (a n : Nat) : Bool := bitOf (s.reg a) n

/-- Replaces bits hi down to lo of a register. -/
def State.setFld (s : State) (a hi lo v : Nat) : State := s.setReg a (putBits (s.reg a) hi lo v)

/-- The key of a register that a selector register banks: number b of the register at a. -/
def banked (a b : Nat) : Nat := a + (b + 1) * 2 ^ 32

/-! ### Free values -/

/-- A fresh undefined value (the manual leaves it open). -/
def State.freeValue (s : State) : DWord := Config.free s.freeCount

/-- The state after an undefined value has been drawn. -/
def State.nextFree (s : State) : State := { s with freeCount := s.freeCount + 1 }

/-- n bytes of undefined data. -/
def State.freeBytes (s : State) (n : Nat) : List Byte :=
  (List.range n).map fun i => (Config.free (s.freeCount + i)).setWidth 8

/-- Appends an output. -/
def State.emit (s : State) (o : Output) : State := { s with out := s.out ++ [o] }

/-! ### Functions, MSI-X and events (R391, R392, R212) -/

/-- The VF split in force on a host die (R59). -/
def State.split (s : State) (die : Nat) : Nat × Nat := Map.get (fun _ => (40, 20)) s.vfSplit die

/-- The function that HOSTDIE, FUNC and VF fields name, as a function index of R212; none where no such
VF exists. -/
def State.funcIndex (s : State) (die func vf : Nat) : Option Nat :=
  let (a, b) := s.split die
  let pf := if func = 3 then 0 else func
  if vf = 0 then some pf
  else if pf = 1 ∧ vf ≤ a then some (vf + 2)
  else if pf = 2 ∧ vf ≤ b then some (a + vf + 2)
  else none

/-- The bit of RC_FUNC_FROZEN that stands for a function index (R211). -/
def frozenBit (idx : Nat) : Nat := if idx < 3 then 60 + idx else idx - 3

/-- RC_FUNC_FROZEN of a host die. -/
def frozenReg (die : Nat) : Nat := if die = 0 then Reg.RC_FUNC_FROZEN0 else Reg.RC_FUNC_FROZEN1

/-- The function's register path is frozen (R198). -/
def State.funcFrozen (s : State) (f : Func) : Bool := s.flag (frozenReg f.die) (frozenBit f.idx)

/-- A function by die and index as one number. -/
def funcKey (die idx : Nat) : Nat := die * 128 + idx

/-- A page of a SAT counter and its place among them in ascending offset order (R387). -/
def satIndex (ds : List RegDesc) (off : Nat) : Nat :=
  ds.foldl (fun n d =>
    if d.off < off ∧ d.fields.any (fun f => f.acc = .sat) then n + d.cnt else n) 0

/-- The counter field's width at an address, when a SAT counter lies there. -/
def satWidth (a : Nat) : Option Nat :=
  match descAt a with
  | none => none
  | some (d, _) => (d.fields.find? fun f => f.acc = .sat).map fun f => f.hi + 1 - f.lo

/-- The place in CNT_OVF of the counter at an address. -/
def satSlot (a : Nat) : Nat :=
  match pageOf a with
  | none => 0
  | some (k, _) => satIndex k.regs (a % 0x1000)

/-- The page base of an address. -/
def pageBase (a : Nat) : Nat := a / 0x1000 * 0x1000

/-- The number of a unit in the unit table. -/
def unitNum : UnitId → Nat
  | .chiplet c => c
  | .upd k => 64 + k
  | .slowTier => 112
  | .codec k => 113 + k
  | .farPort p => 145 + p
  | .link l => 147 + l
  | .coll => 153
  | .hostDie d => 154 + d

/-- What is kept of a unit. -/
def State.unit (s : State) (u : UnitId) : UnitSt := Map.get (fun _ => {}) s.units (unitNum u)

/-- The host die has no link to its host: it has no power (R341), PERSTn_N is low, or PWR_GOOD has not stood for 100 µs; while
PWR_GOOD is low, as the drains of an entry to WATCH run, PERSTn_N has no effect (R420). -/
def State.hostInReset (s : State) (die : Nat) : Bool :=
  decide (s.fld Reg.PWR_STATE 1 0 < 2) || (s.pwr.good && (s.perst.contains die || decide (s.now < s.pwr.goodAt + 100000)))

/-- The host die raises nothing: it has no link, it stands in RESET, or it is quarantined and its functions are lost (R371, R392). -/
def State.hostDieDown (s : State) (die : Nat) : Bool :=
  let p := (s.unit (.hostDie (Fin.ofNat 2 die))).phase
  s.hostInReset die || p == .reset || p == .quarantined

/-- The MSI-X message of a vector of a function (R392): a masked vector sets its pending bit; none where nothing can be
raised. -/
def State.msixTry (s : State) (die : Nat) (idx : Option Nat) (vector : Nat) : Option State :=
  match idx with
  | none => none
  | some i =>
    let k := funcKey die i * 4096 + vector
    if s.hostDieDown die ∨ 2048 ≤ vector then none
    else if s.msixMasked.contains k then
      some (if s.msixPending.contains k then s else { s with msixPending := s.msixPending ++ [k] })
    else some (s.emit (.msix die i vector))

/-- The page identity word of a page: ward, type, number (R381, R382). -/
def pageId (page : Nat) : Nat :=
  match pageOf page with
  | none => 0
  | some (k, i) => page / 0x1000000 * 2 ^ 24 + k.typeCode * 2 ^ 12 + i

/-- The page signals: MSI-X and the binnacle's log, as EVT_ROUTE selects (R392, R398); `drop` counts an interrupt that cannot
be raised. -/
def State.signalVia (s : State) (drop : State → State) (page : Nat) : State :=
  let r := s.reg (page + Hdr.EVT_ROUTE)
  let die := bitsOf r 28 28
  let s1 := if bitOf r 31 then
      (s.msixTry die (s.funcIndex die (bitsOf r 27 26) (bitsOf r 25 20)) (bitsOf r 10 0)).getD (drop s)
    else s
  if bitOf r 30 ∧ s1.pldm.length < 256 then
    { s1 with pldm := s1.pldm ++ [(pageId page, page, s1.reg (page + Hdr.EVT_STATUS))] }
  else s1

/-- EVT_STATUS AND EVT_ENABLE of a page. -/
def State.evtActive (s : State) (page : Nat) : Nat :=
  Nat.land (s.reg (page + Hdr.EVT_STATUS)) (s.reg (page + Hdr.EVT_ENABLE))

/-- Sets event bits of a page; the page signals when the enabled value leaves 0 (R391). -/
def State.raiseVia (s : State) (drop : State → State) (page bits : Nat) : State :=
  let s1 := s.setReg (page + Hdr.EVT_STATUS) (Nat.lor (s.reg (page + Hdr.EVT_STATUS)) bits)
  if s.evtActive page = 0 ∧ s1.evtActive page ≠ 0 then s1.signalVia drop page else s1

/-- RC_IRQ_DROPPED goes up by one. -/
def State.irqCount (s : State) : State :=
  s.setReg Reg.RC_IRQ_DROPPED (satTo 32 (s.reg Reg.RC_IRQ_DROPPED + 1))

/-- Counts an interrupt that cannot be raised; on reaching all ones the counter sets its CNT_OVF bit and raises event 0 of
its page (R387), whose own interrupt finds the counter full. -/
def State.irqDropped (s : State) : State :=
  let s1 := s.irqCount
  if s.reg Reg.RC_IRQ_DROPPED < 2 ^ 32 - 1 ∧ s1.reg Reg.RC_IRQ_DROPPED = 2 ^ 32 - 1 then
    let k := pageBase Reg.RC_IRQ_DROPPED
    (s1.setReg (k + Hdr.CNT_OVF) (Nat.lor (s1.reg (k + Hdr.CNT_OVF)) (2 ^ satSlot Reg.RC_IRQ_DROPPED))).raiseVia
      State.irqCount k 1
  else s1

/-- Sends the MSI-X message of a vector of a function, or counts that it cannot. -/
def State.msix (s : State) (die : Nat) (idx : Option Nat) (vector : Nat) : State :=
  (s.msixTry die idx vector).getD s.irqDropped

/-- The page signals. -/
def State.signalPage (s : State) (page : Nat) : State := s.signalVia State.irqDropped page

/-- Event bits of a page occur. -/
def State.raiseBits (s : State) (page bits : Nat) : State := s.raiseVia State.irqDropped page bits

/-- Event n of a page occurs. -/
def State.raise (s : State) (page n : Nat) : State := s.raiseBits page (2 ^ n)

/-- Adds to a SAT counter (R387): it stops at all ones, and reaching them sets its CNT_OVF bit and
raises event 0. `b` names the number of a banked counter. -/
def State.countAt (s : State) (a : Nat) (b : Option Nat) (n : Nat) : State :=
  let w := (satWidth a).getD 32
  let key := match b with
    | none => a
    | some i => banked a i
  let top := 2 ^ w - 1
  let old := s.reg key
  let new := min (old + n) top
  let s1 := s.setReg key new
  if old < top ∧ new = top then
    let okey := match b with
      | none => pageBase a + Hdr.CNT_OVF
      | some i => banked (pageBase a + Hdr.CNT_OVF) i
    (s1.setReg okey (Nat.lor (s1.reg okey) (2 ^ satSlot a))).raise (pageBase a) 0
  else s1

/-- Adds to a SAT counter. -/
def State.count (s : State) (a n : Nat) : State := s.countAt a none n

/-- Counts one. -/
def State.tally (s : State) (a : Nat) : State := s.count a 1

/-- Advances a PROGRESS counter (R389: modulo 2^32). -/
def State.progress (s : State) (page n : Nat) : State :=
  s.setReg (page + Hdr.PROGRESS) ((s.reg (page + Hdr.PROGRESS) + n) % 2 ^ 32)

/-! ### The local offset map (R53, R54) -/

/-- What lies at a local offset. -/
inductive Place where
  | hbm (stack : Nat)
  | slow
  | bank (die : Nat)
  | scratch (c : Nat)
  | imem (c : Nat) (bank : Bool)
  | regs
  | hole
deriving DecidableEq, Repr

/-- The populated region a local offset lies in. -/
def placeOf (a : Nat) : Place :=
  if a < 0xC000000000 then
    if a % 0x1000000000 < 0xEE6B28000 then .hbm (a / 0x1000000000) else .hole
  else if a < 0x100000000000 then .hole
  else if a < 0x10E8D4A51000 then .slow
  else if a < 0x11D1A94A2000 then (if Config.orderIs1T then .hole else .slow)
  else if a < 0x200000000000 then .hole
  else if a < 0x200100000000 then .bank ((a - 0x200000000000) / 0x40000000)
  else if a < 0x200120000000 then .scratch ((a - 0x200100000000) / 0x800000)
  else if a < 0x200200000000 then .hole
  else if a < 0x200204000000 then
    let o := (a - 0x200200000000) % 0x100000
    if o < 0x80000 then .imem ((a - 0x200200000000) / 0x100000) (decide (0x40000 ≤ o)) else .hole
  else if a < 0x300000000000 then .hole
  else if a < 0x300010000000 then .regs
  else .hole

/-- The end of the populated run of offsets that an offset lies in; none in a hole. -/
def runEnd (a : Nat) : Option Nat :=
  match placeOf a with
  | .hbm k => some (k * 0x1000000000 + 0xEE6B28000)
  | .slow => some (if Config.orderIs1T then 0x10E8D4A51000 else 0x11D1A94A2000)
  | .bank _ => some 0x200120000000
  | .scratch _ => some 0x200120000000
  | .imem c _ => some (0x200200000000 + c * 0x100000 + 0x80000)
  | .regs => some 0x300010000000
  | .hole => none

/-- Every offset of the range is populated. -/
def populated (a n : Nat) : Bool :=
  match runEnd a with
  | some e => decide (a + (n - 1) < e)
  | none => false

/-- The first address of a range that leads nowhere: its start, or the end of the populated run it begins in (R53). -/
def holeAt (ga n : Nat) : Nat :=
  match runEnd (ga % 2 ^ 48) with
  | some e => if ga % 2 ^ 48 + (n - 1) < e then ga else ga / 2 ^ 48 * 2 ^ 48 + e
  | none => ga

/-- The first offset behind the place that an offset lies in. -/
def placeEnd (a : Nat) : Nat :=
  match placeOf a with
  | .bank d => 0x200000000000 + (d + 1) * 0x40000000
  | .scratch c => 0x200100000000 + (c + 1) * 0x800000
  | .imem c b => 0x200200000000 + c * 0x100000 + (if b then 0x80000 else 0x40000)
  | _ => (runEnd a).getD (a + 1)

/-- Bytes cut where one place ends and the next begins. -/
def cutPlaces (a : Nat) (bs : List Byte) : Nat → List (Nat × List Byte)
  | 0 => [(a, bs)]
  | fuel + 1 =>
    let k := placeEnd a - a
    if bs.length ≤ k then [(a, bs)] else (a, bs.take k) :: cutPlaces (a + k) (bs.drop k) fuel

/-- Bytes at an address without those that lie in a range. -/
def cutOut (b m : Nat) (p : Nat × List Byte) : List (Nat × List Byte) :=
  [(p.1, p.2.take (b - p.1)), (max p.1 (b + m), p.2.drop (b + m - p.1))].filter fun q => !q.2.isEmpty

/-- The local offset of an offset in a chiplet's scratch. -/
def scratchAt (c off : Nat) : Nat := 0x200100000000 + c * 0x800000 + off
/-- The local offset of an offset in a base die's bank SRAM. -/
def bankAt (die off : Nat) : Nat := 0x200000000000 + die * 0x40000000 + off
/-- The local offset of a bundle in a chiplet's instruction bank. -/
def bundleAt (c : Nat) (bank : Bool) (i : Nat) : Nat :=
  0x200200000000 + c * 0x100000 + boolNat bank * 0x40000 + 32 * i
/-- The base die a chiplet lies on (R38). -/
def dieOf (c : Nat) : Nat := c / 16

/-! ### Memory -/

/-- Bytes from an address on, out of a list already cut to the range. -/
def fillBytes (d : Nat → Byte) (a n : Nat) (l : List Host.Cell) : List Byte :=
  match n with
  | 0 => []
  | n + 1 =>
    match l with
    | [] => d a :: fillBytes d (a + 1) n []
    | e :: r => if e.1 = a then e.2 :: fillBytes d (a + 1) n r else d a :: fillBytes d (a + 1) n (e :: r)

/-- n bytes of a memory from an address on; `d` gives what an unlisted byte reads as. -/
def Mem.read (d : Nat → Byte) (m : List Host.Cell) (a n : Nat) : List Byte :=
  fillBytes d a n (m.filter fun e => decide (a ≤ e.1) && decide (e.1 < a + n))

/-- Bytes with their addresses. -/
def numbered (a : Nat) (bs : List Byte) : List Host.Cell :=
  match bs with
  | [] => []
  | b :: r => (a, b) :: numbered (a + 1) r

/-- A memory with bytes written from an address on; addresses stay strictly rising. -/
def Mem.write (m : List Host.Cell) (a : Nat) (bs : List Byte) : List Host.Cell :=
  (m.filter fun e => decide (e.1 < a)) ++ (numbered a bs ++ m.filter fun e => decide (a + bs.length ≤ e.1))

/-- The canonical form of a memory: addresses strictly rising. An unlisted byte has no value of its own
(R427), so no listed byte can equal it. -/
abbrev Memory.wf (m : List Host.Cell) : Prop := Map.rising m = true

/-- What an unwritten byte of module memory reads as (R427): undefined, a free value. -/
def State.blank (s : State) (a : Nat) : Byte := Config.unwritten s.memEpoch a

/-- n bytes of module memory. -/
def State.load (s : State) (a n : Nat) : List Byte := Mem.read s.blank s.mem a n

/-- The little-endian number of n bytes of module memory. -/
def State.loadNat (s : State) (a n : Nat) : Nat := leNat (s.load a n)

/-- Uncorrectable bursts that a write of a range covers only in part (R246). -/
def State.tornBursts (s : State) (a n : Nat) : List Nat :=
  s.badBursts.filter fun b => decide (b < a + n) && decide (a < b + 64) && !(decide (a ≤ b) && decide (b + 64 ≤ a + n))

/-- A memory with 64 bytes from an address on put back as another memory has them. -/
def Mem.restore (m old : List Host.Cell) (b : Nat) : List Host.Cell :=
  (m.filter fun e => decide (e.1 < b)) ++ ((old.filter fun e => decide (b ≤ e.1) && decide (e.1 < b + 64))
    ++ m.filter fun e => decide (b + 64 ≤ e.1))

/-- Writes module memory, with no guard. A burst of HBM or of the slow tier that is written whole is sound
again; one that is uncorrectable and written in part stays as it was (R246). -/
def State.store (s : State) (a : Nat) (bs : List Byte) : State :=
  { s with
    mem := (s.tornBursts a bs.length).foldl (fun m b => Mem.restore m s.mem b) (Mem.write s.mem a bs)
    badBursts := s.badBursts.filter fun b => !(decide (a ≤ b) && decide (b + 64 ≤ a + bs.length)) }

/-- An address lies in DRAM: HBM or the slow tier. -/
def inDram (a : Nat) : Bool :=
  match placeOf a with
  | .hbm _ => true
  | .slow => true
  | _ => false

/-- Some byte of the burst at b has never been written. -/
def State.unwrittenIn (s : State) (b : Nat) : Bool :=
  decide ((s.mem.filter fun e => decide (b ≤ e.1) && decide (e.1 < b + 64)).length < 64)

/-- The bursts of DRAM that a range touches. -/
def dramBursts (a n : Nat) : List Nat :=
  if n = 0 ∨ !inDram a then [] else (List.range ((a + (n - 1)) / 64 - a / 64 + 1)).map fun i => (a / 64 + i) * 64

/-- The first uncorrectable burst that a read of a range meets: one that has given an error (R246), or one of DRAM with an
unwritten byte, which may give one (R427: a free choice). -/
def State.badBurst (s : State) (a n : Nat) : Option Nat :=
  match s.badBursts.find? fun b => decide (b < a + n) && decide (a < b + 64) with
  | some b => some b
  | none => (dramBursts a n).find? fun b => s.unwrittenIn b && Config.unwrittenBad s.memEpoch b

/-- A read of the range meets an uncorrectable burst. -/
def State.uncorrectable (s : State) (a n : Nat) : Bool := (s.badBurst a n).isSome

/-- The slot table is placed: SC_TABLE_BASE lies in the bank SRAM of base die 0 (R103, R429). -/
def State.slotBase (s : State) : Option Nat :=
  let b := s.reg Reg.SC_TABLE_BASE / 0x200000 * 0x200000
  if placeOf b = .bank 0 ∧ placeOf (b + 0x1FFFFF) = .bank 0 then some b else none

/-- The live patch table: base and descriptors (R179). -/
def State.patchTable (s : State) : Nat × Nat :=
  let r := s.reg Reg.RT_PATCH_LIVE
  (r / 0x8000 * 0x8000, min (r % 0x800) 1024)

/-- Ranges a, n and b, m share a byte. -/
def overlaps (a n b m : Nat) : Bool := decide (a < b + m) && decide (b < a + n)

/-- The chiplet of a number. -/
def State.chip (s : State) (c : Nat) : Chiplet := Map.get (fun _ => {}) s.chiplets c

/-- Replaces a chiplet. -/
def State.setChip (s : State) (c : Nat) (x : Chiplet) : State :=
  { s with chiplets := Map.put (fun _ => {}) s.chiplets c x }

/-- A swap of the chiplet has been latched and its waypoint is not done (R174). -/
def State.swapLatched (s : State) (c : Nat) : Bool :=
  match s.wp.gather with
  | none => false
  | some g => g.swaps.contains c

/-- The slot table, where it is placed (R103). -/
def State.tableRange (s : State) : Nat × Nat :=
  match s.slotBase with
  | some b => (b, 0x200000)
  | none => (0, 0)

/-- The chiplet whose instruction bank takes no write from a range within one place: the active bank, or either
bank after a latched swap (R174). -/
def State.bankShut (s : State) (a : Nat) : Option Nat :=
  match placeOf a with
  | .imem c bank => if bank = (s.chip c).bank ∨ s.swapLatched c then some c else none
  | _ => none

/-- The first address of a write that an instruction bank does not take. -/
def State.bankViolation (s : State) (a : Nat) (bs : List Byte) : Option Nat :=
  ((cutPlaces a bs 80).find? fun p => (s.bankShut p.1).isSome).map fun p => p.1

/-- A write within one place: the slot table and the live patch table keep their bytes and count the write
(R103, R179), a shut instruction bank too (R174). -/
def State.guardedPiece (s : State) (p : Nat × List Byte) : State :=
  match s.bankShut p.1 with
  | some c => s.tally (Reg.SEQ_BANK_VIOL c)
  | none =>
    let w := s.tableRange
    let q := s.patchTable
    let inTable := overlaps p.1 p.2.length w.1 w.2 && decide (0 < w.2)
    let inPatch := overlaps p.1 p.2.length q.1 (32 * q.2) && decide (0 < q.2)
    let ps := if inTable then cutOut w.1 w.2 p else [p]
    let qs := if inPatch then ps.flatMap (cutOut q.1 (32 * q.2)) else ps
    let s1 := qs.foldl (fun (t : State) r => t.store r.1 r.2) s
    let s2 := if inTable then s1.tally Reg.SC_TABLE_WRITE_DROP else s1
    if inPatch then s2.tally Reg.RT_PATCH_DROP else s2

/-- A write of module memory under the guards that drop it or part of it; nothing outside populated memory. -/
def State.guardedStore (s : State) (a : Nat) (bs : List Byte) : State :=
  if bs.isEmpty ∨ !populated a bs.length ∨ placeOf a = .regs then s
  else (cutPlaces a bs 80).foldl State.guardedPiece s

/-! ### Host memory -/

/-- A host memory key: host die and PCIe address. -/
def hostKey (die a : Nat) : Nat := die * 2 ^ 64 + a

/-- n bytes of host memory. -/
def State.hostLoad (s : State) (die a n : Nat) : List Byte := Mem.read Config.hostByte s.hostMem (hostKey die a) n

/-- Writes host memory. -/
def State.hostStore (s : State) (die a : Nat) (bs : List Byte) : State :=
  { s with hostMem := Mem.write s.hostMem (hostKey die a) bs }

/-! ### Windows (R188, R210) -/

/-- Window k of a set allows a read or a write of the byte at a global address. -/
def State.windowAllows (s : State) (set k a : Nat) (write : Bool) : Bool :=
  let b := s.reg (Reg.WIN_BASE set k)
  let l := s.reg (Reg.WIN_LIMIT set k)
  decide (b / 4096 ≤ a / 4096) && decide (a / 4096 ≤ l / 4096) && bitOf b (if write then 1 else 0)

/-- The first address from a on that no window of a set allows; four windows end at most four times. -/
def State.windowEnd (s : State) (set : Nat) (write : Bool) (a : Nat) : Nat → Nat
  | 0 => a
  | fuel + 1 =>
    match (List.range 4).find? fun k => s.windowAllows set k a write with
    | some k => s.windowEnd set write ((s.reg (Reg.WIN_LIMIT set k) / 4096 + 1) * 4096) fuel
    | none => a

/-- The first address of an access that no window of the set allows; set 0 allows nothing. -/
def State.firstShut (s : State) (set a : Nat) (write : Bool) : Nat :=
  if set = 0 then a else s.windowEnd set write a 4

/-- Every address of the access lies in a window of the set that allows it (R188). -/
def State.windowed (s : State) (set a n : Nat) (write : Bool) : Bool := decide (a + (n - 1) < s.firstShut set a write)

/-- The device number in force (R67). -/
def State.devnum (s : State) : Nat := s.reg Reg.MOD_DEVNUM % 0x10000

/-- The local offset of a global address, when it is this module's own (R52). -/
def State.local? (s : State) (a : Nat) : Option Nat :=
  if a / 2 ^ 48 % 2 ^ 16 = s.devnum then some (a % 2 ^ 48) else none

/-- The global address of a local offset. -/
def State.globalOf (s : State) (a : Nat) : Nat := s.devnum * 2 ^ 48 + a

/-! ### Units (R357, R382) -/

/-- The unit's pages, the first one first (R357). -/
def unitPages : UnitId → List Nat
  | .chiplet c => [pgENG c, pgSEQ c]
  | .upd k => [pgUPD k]
  | .slowTier => [pgSLT]
  | .codec k => [pgCODEC k]
  | .farPort p => [pgFP p, pgCPHD p]
  | .link l => [pgLINK l]
  | .coll => [pgPOD]
  | .hostDie d => [pgHOSTF d]

/-- The first page of a unit. -/
def unitPage (u : UnitId) : Nat := (unitPages u).headD 0

/-- The ward of a unit (R357). -/
def unitWard : UnitId → Nat
  | .chiplet c => 1 + c / 16
  | .upd _ => 5
  | .slowTier => 5
  | .codec _ => 7
  | .farPort _ => 7
  | .link _ => 6
  | .coll => 6
  | .hostDie _ => 8

/-- All units. -/
def allUnits : List UnitId :=
  (List.finRange 64).map .chiplet ++ ((List.finRange 48).map .upd ++ (.slowTier :: ((List.finRange 32).map .codec ++
    ((List.finRange 2).map .farPort ++ ((List.finRange 6).map .link ++ (.coll :: (List.finRange 2).map .hostDie))))))

/-- The unit whose page an address lies in, if a unit has it. -/
def unitOfPage (page : Nat) : Option UnitId :=
  allUnits.find? fun u => (unitPages u).contains page

/-- The unit identity of R370: page address bits 27:12 of its first page. -/
def unitIdent (u : UnitId) : Nat := unitPage u / 0x1000

/-- Replaces what is kept of a unit. -/
def State.setUnit (s : State) (u : UnitId) (x : UnitSt) : State :=
  { s with units := Map.put (fun _ => {}) s.units (unitNum u) x }

/-- The unit is in no fence sequence and not quarantined (R358). -/
def State.unfenced (s : State) (u : UnitId) : Bool := decide ((s.unit u).phase = .normal)

/-- CLK_WARD_CTRL.MODE is OFF: the ward's clock is stopped and its units refuse (R346). -/
def State.clockOff (s : State) (w : Nat) : Bool := decide (s.fld (Reg.CLK_WARD_CTRL w) 31 30 = 2)

/-- The unit answers requests (R346, R358). -/
def State.serving (s : State) (u : UnitId) : Bool := s.unfenced u && !s.clockOff (unitWard u)

/-- A ward's fast clock runs. -/
def State.clockRuns (s : State) (w : Nat) : Bool := s.flag (Reg.CLK_WARD_CTRL w) 29

/-- The unit carries on with requests it has accepted: it is not fenced, or its drain lasts (R358), and its ward's clock runs
(R346, R347: what reaches it before waits). -/
def State.works (s : State) (u : UnitId) : Bool :=
  (s.unfenced u || decide ((s.unit u).phase = .draining)) && !s.clockOff (unitWard u) && s.clockRuns (unitWard u)

/-- A fenced unit refuses a request (R359). -/
def State.refuse (s : State) : State := s.tally Reg.FLT_REFUSED

/-- The chiplet belongs to the serving partition. -/
def State.isServing (s : State) (c : Nat) : Bool := s.flag Reg.WPC_SERVE_MASK_LIVE c

/-- The power state (R337): 0 DORMANT, 1 WATCH, 2 READY, 3 ACTIVE. -/
def State.power (s : State) : Nat := s.fld Reg.PWR_STATE 1 0

/-- The ward has power (R337 to R341): BINNACLE always outside DORMANT, TORUS with it, the others in READY
and ACTIVE. -/
def State.wardPowered (s : State) (w : Nat) : Bool :=
  if w = 0 ∨ w = 6 then decide (s.power ≠ 0) else decide (2 ≤ s.power)

/-! ### Fast clocks (R346 to R348) -/

/-- A ward's clock. -/
def State.clock (s : State) (w : Nat) : WardClock := Map.get (fun _ => {}) s.clocks w

/-- Replaces a ward's clock. -/
def State.setClock (s : State) (w : Nat) (c : WardClock) : State := { s with clocks := Map.put (fun _ => {}) s.clocks w c }

/-- The clock of a ward may start. -/
def State.clockReady (s : State) (w : Nat) : Bool :=
  decide (w ≠ 0) && s.wardPowered w && !s.clockOff w && !s.clockRuns w && !(s.clock w).starting

/-- A start begins, with the down-spread that CLK_SPREAD holds then; above 10 acts as 10. -/
def State.startClock (s : State) (w : Nat) : State :=
  if s.clockReady w then
    s.setClock w { s.clock w with starting := true, depth := min 10 (s.fld Reg.CLK_SPREAD 3 0) }
  else s

/-! ### Freezes (R197, R198) -/

/-- Records a violation at an address by a ring or a function. -/
def State.noteViolation (s : State) (a kind id : Nat) : State :=
  ((s.setReg Reg.RC_VIOL_ADDR (a % 2 ^ 64)).setReg Reg.RC_VIOL_SRC (kind * 2 ^ 30 + id)).tally Reg.RC_VIOLATIONS

/-- A function's own access violates: its register path is frozen (R198). -/
def State.freezeFunc (s : State) (f : Func) (a : Nat) : State :=
  let r := frozenReg f.die
  (((s.setReg r (Nat.lor (s.reg r) (2 ^ frozenBit f.idx))).noteViolation a 1 (funcKey f.die f.idx))).raise
    (pgHOSTF f.die) 2

/-- A unit's own access violates: it is frozen, and its pages show the STATE and FROZEN events (R198, R391). -/
def State.freezeUnit (s : State) (u : UnitId) (a : Nat) : State :=
  let x := s.unit u
  let s1 := s.setUnit u { x with frozen := true, prev := if x.frozen then x.prev else x.code, code := 7 }
  (unitPages u).foldl (fun (t : State) p => t.raiseBits p 0b110)
    ((s1.setReg Reg.RC_VIOL_ADDR (a % 2 ^ 64)).tally Reg.RC_VIOLATIONS)

/-- The page of a frozen unit releases it, FROZEN → READY (R198); a fence shows its own state. -/
def State.releaseUnit (s : State) (u : UnitId) : State :=
  let x := s.unit u
  if !x.frozen then s
  else if x.phase = .normal then
    (unitPages u).foldl (fun (t : State) p => t.raise p 1) (s.setUnit u { x with frozen := false, prev := x.code, code := 1 })
  else s.setUnit u { x with frozen := false }

/-- A chiplet's own access violates: the engine is frozen (R198). -/
def State.freezeChip (s : State) (c a : Nat) : State :=
  s.freezeUnit (.chiplet (Fin.ofNat 64 c)) a

end Sys2Proof.Machine
end

