-- ==== Sys2Proof/Machine/Scale.lean ====
section
/-! DEFINITION. Scale slots, census and the global loss scale (R102 to R123). -/

namespace Sys2Proof.Machine

/-! ### Rights on register pages (R55, R56, R381, R428) -/

/-- The requester has the register rights of PF0 (R397, R428). -/
def asPF0 (who : Requester) : Bool :=
  match who with
  | .func f => decide (f.idx = 0)
  | _ => true

/-- A register access that is not served is dropped, and counted on the host die that carried it: that of a function or of a ring
(R56, R378, R379). No host die carries what a unit or the side path sends. -/
def State.dropped (s : State) (who : Requester) : State :=
  match who with
  | .func f => s.tally (Reg.HOST_BAR0_DROPPED f.die)
  | .ring n => s.tally (Reg.HOST_BAR0_DROPPED (s.fld (Reg.RG_ASSIGN (n / 64)) 12 12))
  | _ => s

/-- The requester's register path is shut: a frozen function (R198), a host die without power, in its reset or fenced, or the binnacle's
processor in its restart (R374). -/
def State.pathFrozen (s : State) (who : Requester) : Bool :=
  match who with
  | .func f => s.funcFrozen f || !s.wardPowered 8 || s.hostInReset f.die || !s.unfenced (.hostDie f.die)
  | .side => decide (s.power ≠ 0) && s.fw.restart.isSome
  | _ => false

/-- A request that meets a binnacle without power gets no answer, one that meets a restart the answer NOT_READY. -/
def State.sideRequest (s : State) (answer : List Byte) (f : State → State) : State :=
  if s.power = 0 then s else if s.fw.restart.isSome then s.emit (.side answer) else f s

/-- What becomes of a request whose path is shut: the side path answers NOT_READY (R374), the others nothing. -/
def State.notReady (s : State) (who : Requester) : State :=
  match who with
  | .side => s.sideRequest [1] id
  | _ => s

/-- A command that a register write of PF0's rights carries: done with the right, dropped without it;
a page of a ward without power takes nothing, and a shut path passes none on. -/
def State.command (s : State) (who : Requester) (page : Nat) (f : State → State) : State :=
  if s.pathFrozen who then s.notReady who
  else if !asPF0 who then s.dropped who
  else if !s.wardPowered (page / 0x1000000) then s
  else f s

/-! ### The slot table (R102, R103) -/

/-- n bytes of a slot's record from an offset on. -/
def State.slotLoad (s : State) (slot off n : Nat) : Nat :=
  match s.slotBase with
  | some b => s.loadNat (b + 128 * slot + off) n
  | none => leNat (Mem.read (fun a => Config.unwritten 0 (2 ^ 48 + a)) s.slotMem (128 * slot + off) n)

/-- The scale unit writes bytes of a slot's record; the record of slot 0 is never written, and no slot follows 16,383. -/
def State.slotStore (s : State) (slot off n v : Nat) : State :=
  if slot = 0 ∨ 16384 ≤ slot then s else
  match s.slotBase with
  | some b => s.store (b + 128 * slot + off) (leBytes n v)
  | none => { s with slotMem := Mem.write s.slotMem (128 * slot + off) (leBytes n v) }

/-- A slot's t in force. -/
def State.slotT (s : State) (slot : Nat) : Word :=
  if slot = 0 then 0x3F800000 else BitVec.ofNat 32 (s.slotLoad slot 0 4)

/-- A slot's CONFIG word. -/
def State.slotCfg (s : State) (slot : Nat) : Nat := if slot = 0 then 0 else s.slotLoad slot 4 4

/-- POLICY, FORM, FMT and RS_SHIFT of a CONFIG word. -/
def cfgPolicy (c : Nat) : Nat := bitsOf c 31 30
def cfgForm (c : Nat) : Nat := bitsOf c 29 28
def cfgFmt (c : Nat) : Nat := bitsOf c 27 24
def cfgMargin (c : Nat) : Nat := bitsOf c 23 21

/-- The re-sight threshold exponent: 1 to 3 act as 4. -/
def cfgShift (c : Nat) : Nat :=
  let r := bitsOf c 3 0
  if 1 ≤ r ∧ r ≤ 3 then 4 else r

/-- The CONFIG word of a slot whose record nothing had written when the mirror was taken (R427). -/
def State.mirrorBlank (s : State) (slot : Nat) : Nat :=
  match s.mirrorAt with
  | none => 0
  | some (e, b) => leNat ((List.range 4).map fun i => Config.unwritten e (b + 128 * slot + 4 + i))

/-- The configuration mirror of R166, of all 16,384 slots. -/
def State.mirrorCfg (s : State) (slot : Nat) : Nat :=
  if slot = 0 then 0 else
  match Map.find s.mirror slot with
  | some w => w.toNat
  | none => s.mirrorBlank slot

/-- An instruction or descriptor that names the slot for a tensor scale is inconsistent (R103, R107):
reserved or CURRENT policy, or a pairing R78 forbids. -/
def State.slotBad (s : State) (slot : Nat) : Bool :=
  if slot = 0 then false
  else
    let c := s.mirrorCfg slot
    decide (2 ≤ cfgPolicy c) || !legalPair (cfgFmt c) (cfgForm c)

/-! ### Census (R112 to R114) -/

/-- The place of a source in the fixed order of R113. -/
def sourceNum : CensusSource → Nat
  | .chiplet c => c
  | .upd k => 64 + k
  | .codec k => 112 + k

/-- The source is a serving chiplet. -/
def State.sourceServes (s : State) (src : Nat) : Bool := decide (src < 64) && s.isServing src

/-- A report joins the census of the step in progress (R112, R113); a non-finite report for a slot with
SKIP_NF sets SC_STEP_NF, unless the serving partition made it (R114). -/
def State.report (s : State) (src slot : Nat) (r : CensusRep) : State :=
  if slot = 0 then s else
  let key := src * 16384 + slot
  let s1 := { s with census := Map.set s.census key (match Map.find s.census key with
    | some o => CensusRep.merge o r
    | none => CensusRep.capped r) }
  if r.nonfinite ≠ 0 ∧ !s.sourceServes src ∧ bitOf (s.slotCfg slot) 19 then s1.setFld Reg.SC_STEP_NF 0 0 1 else s1

/-- The census of a slot over all sources, in the order of R113; none when nothing was reported. -/
def State.slotCensus (s : State) (slot : Nat) : Option CensusRep :=
  s.census.foldl (fun acc e =>
    if e.1 % 16384 = slot then
      some (match acc with
        | some a => CensusRep.merge a e.2
        | none => e.2)
    else acc) none

/-- RESIGHTED and OVERRUN of a slot in the step. -/
def State.slotSights (s : State) (slot : Nat) : Nat × Nat := Map.get (fun _ => (0, 0)) s.resighted slot

/-- Counts a re-sighted tile, or a tile past the budget, in a slot (R118, R119). -/
def State.noteSight (s : State) (slot : Nat) (past : Bool) : State :=
  let (a, b) := s.slotSights slot
  { s with resighted := Map.put (fun _ => (0, 0)) s.resighted slot (if past then (a, b + 1) else (a + 1, b)) }

/-- Inserts a number into a rising list. -/
def insertNat (n : Nat) (l : List Nat) : List Nat :=
  match l with
  | [] => [n]
  | a :: r => if n < a then n :: a :: r else if n = a then a :: r else a :: insertNat n r

/-- The slots a waypoint can change: those with a written record and those with a report. -/
def State.liveSlots (s : State) : List Nat :=
  let inTable := match s.slotBase with
    | some b => (s.mem.filter fun e => decide (b ≤ e.1) && decide (e.1 < b + 0x200000)).foldl
        (fun l e => if l.getLast? = some ((e.1 - b) / 128) then l else l ++ [(e.1 - b) / 128]) []
    | none => s.slotMem.foldl (fun l e => if l.getLast? = some (e.1 / 128) then l else l ++ [e.1 / 128]) []
  (s.census.foldl (fun l e => insertNat (e.1 % 16384) l) inTable).filter fun n => n ≠ 0

/-! ### The slot update of R109 -/

/-- The outcome of a waypoint: non-finite and taint flags; both clear is COMMIT. -/
structure Verdict where
  nf : Bool
  taint : Bool
deriving DecidableEq, Repr

/-- COMMIT (R18). -/
def Verdict.commit (v : Verdict) : Bool := !v.nf && !v.taint

/-- OUTCOME of the phase log. -/
def Verdict.code (v : Verdict) : Nat := boolNat v.nf + 2 * boolNat v.taint

/-- An FP32 magnitude held at or below 2^127. -/
def capT (w : Word) : Word := if magOf w > 0x7F000000 then 0x7F000000 else w

/-- An FP32 magnitude held in 2^-126 to 2^127. -/
def clampT (w : Word) : Word :=
  if magOf w < 0x00800000 then 0x00800000 else if magOf w > 0x7F000000 then 0x7F000000 else w

/-- The smallest power of two at or above a positive FP32 value. -/
def pow2Up (w : Word) : Word :=
  if w.toNat % 2 ^ 23 = 0 then w else BitVec.ofNat 32 ((w.toNat / 2 ^ 23 + 1) * 2 ^ 23)

/-- A positive FP32 value times 2^k. -/
def scaleBy (w : Word) (k : Int) : Word :=
  match ofF32 w with
  | .fin neg m e => (Num.fin neg m (e + k)).toF32 .rne false
  | n => n.toF32 .rne false

/-- t of R108 from the largest history entry. -/
def delayedT (cfg : Nat) (h : Word) : Word :=
  match ofF32 h, maxFin (cfgFmt cfg) with
  | .fin _ m e, .fin _ n k =>
    let d := if cfgForm cfg = 3 then n * 448 else n
    let t := magToF32 .up false false m d (e + cfgMargin cfg - k)
    clampT (if bitOf cfg 20 then pow2Up t else t)
  | _, _ => clampT h

/-- The valid history entries of a slot: index and value. -/
def State.slotHistory (s : State) (slot : Nat) : List (Nat × Nat) :=
  let n := min (s.slotLoad slot 8 1) 16
  let head := s.slotLoad slot 9 1
  (List.range n).map fun j =>
    let i := (head + 31 - j) % 16
    (i, s.slotLoad slot (0x10 + 4 * i) 4)

/-- The largest entry of a history. -/
def maxHistory (l : List (Nat × Nat)) : Nat := l.foldl (fun m e => max m e.2) 0

/-- Action 1 of R109: the census fields of a slot that received a report. -/
def State.writeCensus (s : State) (slot n : Nat) (r : CensusRep) : State :=
  let (a, b) := s.slotSights slot
  s.slotStore slot 0x50 40 (r.elems + r.zeros * 2 ^ 64 + r.sats * 2 ^ 96 + r.nonfinite * 2 ^ 128
    + r.amax.toNat * 2 ^ 160 + r.sse.toNat * 2 ^ 192 + satTo 16 a * 2 ^ 224 + satTo 16 b * 2 ^ 240
    + (n % 2 ^ 64) * 2 ^ 256)

/-- Action 2 of R109: AMAX enters the history. -/
def State.pushHistory (s : State) (slot : Nat) (amax : Word) : State :=
  let head := s.slotLoad slot 9 1 % 16
  let n := min (s.slotLoad slot 8 1) 16
  ((s.slotStore slot (0x10 + 4 * head) 4 amax.toNat).slotStore slot 9 1 ((head + 1) % 16)).slotStore slot 8 1
    (min (n + 1) 16)

/-- Action 3 of R109 by R108. -/
def State.recompute (s : State) (slot : Nat) : State :=
  let c := s.slotCfg slot
  let h := s.slotHistory slot
  let top := maxHistory h
  if cfgForm c = 0 ∨ h.isEmpty ∨ top = 0 then s
  else s.slotStore slot 0 4 (delayedT c (BitVec.ofNat 32 top)).toNat

/-- Action 6 of R109: t and history follow the loss scale by 2^k. -/
def State.couple (s : State) (slot : Nat) (k : Int) : State :=
  let s1 := if cfgForm (s.slotCfg slot) = 0 then s
    else s.slotStore slot 0 4 (clampT (scaleBy (s.slotT slot) k)).toNat
  (s.slotHistory slot).foldl (fun st e =>
    if e.2 = 0 then st
    else st.slotStore slot (0x10 + 4 * e.1) 4 (clampT (scaleBy (BitVec.ofNat 32 e.2) k)).toNat) s1

/-- Actions 1 to 6 of R109 on one slot; `ends` is false at the waypoint of COMPUTE START, which ends no
step (R194). A load staged before COMPUTE START moves EXP there, and action 6 follows it, as R121 has it, though R194 names no
such update (DEDUCED: assumption 25). -/
def State.updateSlot (v : Verdict) (ends : Bool) (n : Nat) (k : Int) (s : State) (slot : Nat) : State :=
  let c := s.slotCfg slot
  let delayed := decide (cfgPolicy c = 1)
  let rep := if ends then s.slotCensus slot else none
  let s1 := match rep with
    | some r => s.writeCensus slot n r
    | none => s
  let s2 := match rep with
    | some r => if delayed && v.commit then s1.pushHistory slot r.amax else s1
    | none => s1
  let s3 := if delayed && v.commit && ends then s2.recompute slot else s2
  let s4 := if delayed && rep.isSome && decide (0 < (s.slotSights slot).2) && decide (cfgForm c ≠ 0) then
      (s3.slotStore slot 0 4 (capT (scaleBy (s3.slotT slot) 1)).toNat).tally Reg.SC_RANGE_STEPS
    else s3
  let s5 := match rep with
    | some r => if v.nf && decide (0 < r.nonfinite) then s4.slotStore slot 8 2 0 else s4
    | none => s4
  if delayed && bitOf c 18 && decide (k ≠ 0) then s5.couple slot k else s5

/-- The slot is pinned (R105). -/
def State.pinned (s : State) (slot : Nat) : Bool := s.pins.any fun p => p.2 == slot

/-- A CONFIG word that a pinned slot refuses (R105). -/
def pinRefuses (cfg : Nat) : Bool := decide (cfgPolicy cfg ≠ 0) || !legalPair (cfgFmt cfg) (cfgForm cfg)

/-- Action 7 of R109: one staged host write (R104, R105). -/
def State.applyStaged (s : State) (w : Staged) : State :=
  if s.pinned w.slot ∧ pinRefuses w.cfg.toNat then s.tally Reg.SC_STAGE_PINNED
  else
    let s1 := s.slotStore w.slot 0 8 (w.t.toNat + w.cfg.toNat * 2 ^ 32)
    if w.clear then s1.slotStore w.slot 8 2 0 else s1

/-- Part (a) of the sequence for the mirror (R166): every slot's CONFIG, that of a slot with no byte written included. -/
def State.refreshMirror (s : State) : State :=
  { s with
    mirror := s.liveSlots.map fun n => (n, BitVec.ofNat 32 (s.slotCfg n))
    mirrorAt := some (match s.slotBase with
      | some b => (s.memEpoch, b)
      | none => (0, 2 ^ 48)) }

/-- The section scales that the codec engines have handed to the scale unit enter their slots, those whose POLICY is CURRENT
(R107, R276). -/
def State.writeSectT (s : State) : State :=
  { s.sectT.foldl (fun (t : State) e => if cfgPolicy (t.slotCfg e.1) = 2 then t.slotStore e.1 0 4 e.2.toNat else t) s with sectT := [] }

/-- The whole slot update of a waypoint: what the device computes, section scales among it, then the staged writes of
action 7, which override it (R104, R109), then the mirror. The step's census closes (R110). -/
def State.updateSlots (s : State) (v : Verdict) (ends : Bool) (n : Nat) (k : Int) : State :=
  let s1 := (s.liveSlots.foldl (State.updateSlot v ends n k) s).writeSectT
  let s2 := s1.staged.foldl State.applyStaged s1
  let s3 := { s2 with staged := [] }
  let s4 := if ends then { s3 with census := [], resighted := [] } else s3
  s4.refreshMirror

/-! ### The loss scale (R120 to R123) -/

/-- EXP_MIN and EXP_MAX in force: crossed limits both act as EXP_MIN. -/
def State.lsLimits (s : State) : Int × Int :=
  let lo := signed 8 (s.fld Reg.SC_LS_LIMITS_LIVE 7 0)
  let hi := signed 8 (s.fld Reg.SC_LS_LIMITS_LIVE 15 8)
  (lo, max lo hi)

/-- The EXP in force. -/
def State.lsExp (s : State) : Int := signed 8 (s.fld Reg.SC_LS_STATE_LIVE 7 0)

/-- What R120 makes of EXP and the clean count, and the counters it counts in. -/
structure LsMove where
  exp : Int
  clean : Nat
  decreased : Bool := false
  floored : Bool := false
  grown : Bool := false
  ceiled : Bool := false
deriving DecidableEq, Repr

/-- The loss-scale rules of R120. -/
def State.lsRule (s : State) (v : Verdict) : LsMove :=
  let (lo, hi) := s.lsLimits
  let e := s.lsExp
  let c := s.fld Reg.SC_LS_STATE_LIVE 31 16
  let g := max 1 (s.fld Reg.SC_LS_CTRL_LIVE 31 16)
  let d : Int := s.fld Reg.SC_LS_CTRL_LIVE 9 8 + 1
  if v.nf then ⟨max (e - d) lo, 0, true, decide (e = lo), false, false⟩
  else if v.taint then ⟨e, c, false, false, false, false⟩
  else if g ≤ c + 1 then ⟨min (e + 1) hi, 0, false, false, true, decide (e = hi)⟩
  else ⟨e, c + 1, false, false, false, false⟩

/-- EXP after the rule and a staged load (R121). -/
def State.lsNext (s : State) (v : Verdict) (ends : Bool) : Int :=
  let (lo, hi) := s.lsLimits
  match s.lsStaged with
  | some b => max lo (min hi b.toInt)
  | none => if ends then (s.lsRule v).exp else s.lsExp

/-- Counts when a condition holds. -/
def State.tallyIf (s : State) (b : Bool) (a : Nat) : State := if b then s.tally a else s

/-- Stores EXP and the clean count. -/
def State.setLs (s : State) (e : Int) (clean : Nat) : State :=
  s.setReg Reg.SC_LS_STATE_LIVE (min clean 0xFFFF * 0x10000 + unsigned 8 e)

/-- Part (h): SC_LS_COMMITTED latches the EXP of the ending step, the rule moves EXP, then a staged load
(R120 to R123). At COMPUTE START only the load acts (R194). -/
def State.lossScale (s : State) (v : Verdict) (ends : Bool) : State :=
  let s1 := if ends then
      let m := s.lsRule v
      let a := (s.setFld Reg.SC_LS_COMMITTED 7 0 (unsigned 8 s.lsExp)).setLs m.exp m.clean
      let b := ((a.tallyIf m.decreased Reg.SC_LS_DECREASES).tallyIf m.grown Reg.SC_LS_GROWTHS).tallyIf m.ceiled
        Reg.SC_LS_CEILING
      if m.floored then (b.tally Reg.SC_LS_FLOOR).raise pgSC 8 else b
    else s
  match s.lsStaged with
  | some b =>
    let (lo, hi) := s.lsLimits
    { s1.setLs (max lo (min hi b.toInt)) 0 with lsStaged := none }
  | none => s1

/-! ### The commands of the scale and census page -/

/-- STAGE (R104, R105): the write is staged, replaces an earlier one of its slot in place, or is refused. -/
def State.stageSlot (s : State) (clear : Bool) : State :=
  let slot := s.fld Reg.SC_SLOT_SEL 13 0
  let w : Staged := ⟨slot, BitVec.ofNat 32 (s.reg Reg.SC_SLOT_T), BitVec.ofNat 32 (s.reg Reg.SC_SLOT_CFG), clear⟩
  if s.pinned slot ∧ pinRefuses w.cfg.toNat then (s.tally Reg.SC_STAGE_PINNED).setFld Reg.SC_SLOT_CMD 29 28 3
  else if s.staged.any fun o => o.slot == slot then
    ({ s with staged := s.staged.map fun (o : Staged) => if o.slot = slot then w else o }).setFld Reg.SC_SLOT_CMD 29 28 1
  else if 256 ≤ s.staged.length then (s.tally Reg.SC_STAGE_FULL).setFld Reg.SC_SLOT_CMD 29 28 2
  else ({ s with staged := s.staged ++ [w] }).setFld Reg.SC_SLOT_CMD 29 28 1

/-- LOAD (R121). -/
def State.stageLoad (s : State) : State :=
  { s with lsStaged := some (BitVec.ofNat 8 (s.fld Reg.SC_LS_SET 7 0)) }

/-- Some ring is ACTIVE. -/
def State.anyRingActive (s : State) : Bool := s.rings.any fun e => e.2.st == .active

/-- A range lies in the bank SRAM of one base die. -/
def inBank (a n : Nat) : Bool :=
  match placeOf a with
  | .bank _ => n = 0 || decide (placeOf (a + (n - 1)) = placeOf a)
  | _ => false

/-- A range lies in the bank SRAM of base die 0 (R429). -/
def inBank0 (a n : Nat) : Bool := decide (placeOf a = .bank 0) && inBank a n

/-- A write of SC_TABLE_BASE (R126, R429). -/
def State.writeTableBase (s : State) (v : Nat) : State :=
  let b := v / 0x200000 * 0x200000
  if s.anyRingActive then s.tally Reg.SC_BASE_REJECT
  else if inBank0 b 0x200000 then s.setReg Reg.SC_TABLE_BASE b
  else s

/-- SC_SLOT_STAGE. -/
def execScSlotStage (who : Requester) (clearHist : Bool) (s : State) : Host.Outcome State Fault Refusal :=
  .next (s.command who pgSC fun t => t.stageSlot clearHist)

/-- SC_LS_LOAD. -/
def execScLsLoad (who : Requester) (s : State) : Host.Outcome State Fault Refusal :=
  .next (s.command who pgSC State.stageLoad)

/-- SC_TABLE_BASE_WRITE. -/
def execScTableBaseWrite (who : Requester) (v : DWord) (s : State) : Host.Outcome State Fault Refusal :=
  .next (s.command who pgSC fun t => t.writeTableBase v.toNat)

/-- CENSUS_REPORT: a report reaches the scale unit (R112). -/
def execCensusReport (src : CensusSource) (slot : Fin 16384) (r : CensusRep) (s : State) :
    Host.Outcome State Fault Refusal :=
  .next (s.report (sourceNum src) slot r)

end Sys2Proof.Machine
end

