-- ==== Sys2Proof/Machine/Partners.lean ====
section
/-! DEFINITION. Partners as registers show them, undelivered rounds, and a delta formation that ends early
(R271, R296, R305, R367). -/

namespace Sys2Proof.Machine

/-- The wire round of a local round (R271). -/
def State.wireRound (s : State) (r : Nat) : Nat := (r + s.reg Reg.XCH_ROUND_BASE) % 2 ^ 32

/-- Rounds from one wire round to a later one, modulo 2^32. -/
def roundsFrom (first last : Nat) : Nat := (last + 2 ^ 32 - first % 2 ^ 32) % 2 ^ 32

/-! ### Partners as registers show them (R296, R305) -/

/-- A partner. -/
def State.partner (s : State) (p : Nat) : Partner := Map.get (fun _ => {}) s.partners p
/-- Replaces a partner. -/
def State.setPartner (s : State) (p : Nat) (x : Partner) : State :=
  { s with partners := Map.put (fun _ => {}) s.partners p x }

/-- XCH_PTR_CFG of a partner. -/
def ptrCfg (p : Nat) : Nat := banked Reg.XCH_PTR_CFG p
/-- XCH_PTR_STATUS of a partner. -/
def ptrStatus (p : Nat) : Nat := banked Reg.XCH_PTR_STATUS p

/-- VALID, PORT and STATE: 0 OFF, 1 UP, 2 DOWN. -/
def State.ptrValid (s : State) (p : Nat) : Bool := s.flag (ptrCfg p) 31
def State.ptrPort (s : State) (p : Nat) : Nat := s.fld (ptrCfg p) 30 30
def State.ptrState (s : State) (p : Nat) : Nat := s.fld (ptrCfg p) 29 28
def State.setPtrState (s : State) (p v : Nat) : State := s.setFld (ptrCfg p) 29 28 v

/-- UNDELIVERED: the first round of the undelivered range, if there is one. -/
def State.undelivered (s : State) (p : Nat) : Option Nat :=
  let u := s.fld (ptrStatus p) 63 32
  if u = 0xFFFFFFFF then none else some u
/-- Sets UNDELIVERED. -/
def State.setUndelivered (s : State) (p : Nat) (u : Option Nat) : State := s.setFld (ptrStatus p) 63 32 (u.getD 0xFFFFFFFF)

/-- A round becomes undelivered to a partner: it opens its range or lies within it. -/
def State.addUndelivered (s : State) (p r : Nat) : State :=
  match s.undelivered p with
  | some _ => s
  | none => s.setUndelivered p (some r)

/-- The valid partners. -/
def State.validPartners (s : State) : List Nat := (List.range 256).filter fun p => s.ptrValid p

/-- A valid partner is UP. -/
def State.ptrUp (s : State) (p : Nat) : Bool := s.ptrValid p && decide (s.ptrState p = 1)

/-- Spans due and never formed fall back to their partners' undelivered ranges (R305). -/
def State.dropSpans (s : State) : State :=
  let s1 := s.spanDue.foldl (fun t e => e.2.foldl (fun u p => u.addUndelivered p e.1) t) s
  { s1 with spanDue := [] }

/-- The next round that has opened is formed, once the one before it is (R24). -/
def State.takeRound (s : State) : State :=
  match s.deltaOpen, s.deltaNext with
  | none, (r, w, ps) :: l => { s with deltaOpen := some (r, w), delta := { targets := ps }, deltaNext := l }
  | _, _ => s

/-- Formation ends without a stream (R367): update engines are released, the round is undelivered to every
partner, and the hold store keeps no copy. The round opened next is formed. -/
def State.abortDelta (s : State) : State :=
  match s.deltaOpen with
  | none => s
  | some (r, _) =>
    let s1 := s.validPartners.foldl (fun t p => t.addUndelivered p (t.wireRound r)) s
    State.takeRound { s1 with deltaOpen := none, delta := {} }

/-- Formation ends for good (R365): of every round that has opened. -/
def State.dropDelta (s : State) : State := iterate State.abortDelta (s.deltaNext.length + 1) s

end Sys2Proof.Machine
end

