-- ==== Sys2Proof/Machine/Job.lean ====
section
/-! DEFINITION. Data-path faults and the halt of a job (R364, R365), and the freezing of a ring on a
violation (R197). -/

namespace Sys2Proof.Machine

/-- A ring that is OFF, with nothing kept of it. -/
def Ring.off : Ring := {}

/-- A ring. -/
def State.ring (s : State) (n : Nat) : Ring := Map.get (fun _ => Ring.off) s.rings n

/-- Replaces a ring. -/
def State.setRing (s : State) (n : Nat) (r : Ring) : State :=
  { s with rings := Map.put (fun _ => Ring.off) s.rings n r }

/-- The engine class of a ring (R184). -/
def State.ringClass (s : State) (n : Nat) : Nat := s.fld (Reg.RING_CFG n) 31 29

/-- The work behind a descriptor that has been ended (R356). -/
def State.ghost (s : State) (n idx : Nat) : Option Ghost := s.ghosts.find? fun g => decide (g.ring = n) && decide (g.idx = idx)

/-- Such work is over. -/
def State.dropGhost (s : State) (n idx : Nat) : State :=
  { s with ghosts := s.ghosts.filter fun g => !(decide (g.ring = n) && decide (g.idx = idx)) }

/-- The window set of a ring (R188). -/
def State.ringWset (s : State) (n : Nat) : Nat := s.fld (Reg.RING_CFG n) 23 14

/-- The class and the window set that a descriptor's accesses go by: its ring's, as they were where its completion is lost. -/
def State.useClass (s : State) (n idx : Nat) : Nat :=
  if n < 32768 then s.ringClass n else ((s.ghost n idx).map Ghost.cls).getD 0
def State.useWset (s : State) (n idx : Nat) : Nat :=
  if n < 32768 then s.ringWset n else ((s.ghost n idx).map Ghost.wset).getD 0

/-- The flight of a ring at an index; under a number past the rings, that of work whose completion is lost (R356). -/
def State.flightAt (s : State) (n idx : Nat) : Option Flight :=
  if n < 32768 then (s.ring n).flights.find? fun f => decide (f.idx = idx) else (s.ghost n idx).map Ghost.flight

/-- The same, where it has no status yet. -/
def State.openFlight (s : State) (n idx : Nat) : Option Flight :=
  if n < 32768 then (s.ring n).flights.find? fun f => decide (f.idx = idx) && f.status.isNone else s.flightAt n idx

/-- Gives a flight of a ring its final status, unless it has one; work whose completion is lost is over. -/
def State.finish (s : State) (n idx status detail : Nat) : State :=
  if n < 32768 then
    let r := s.ring n
    s.setRing n { r with flights := r.flights.map fun (f : Flight) =>
      if f.idx = idx ∧ f.status = none then { f with status := some (status, detail) } else f }
  else s.dropGhost n idx

/-- Every descriptor of a ring that is in flight without a status gets one; one that has met an error and waits only for other
modules' answers ends with that error (R287). -/
def Ring.finishAll (r : Ring) (status : Nat) : Ring :=
  { r with flights := r.flights.map fun (f : Flight) =>
      if f.status = none ∧ f.outcome.1 = 0 then { f with status := some (status, 0) } else f }

/-- Training chiplets stop issuing (R365 step 1). -/
def Chiplet.halt (x : Chiplet) : Chiplet :=
  { x with run := .idle, section_ := none, fillWait := none, dwq := [], pendingDefer := none, bundle := [],
           accums := [], chainOwn := [], chainIn := [] }

/-- COMPUTE, UPDATE and CODEC descriptors not yet complete (R365 step 4). -/
def State.drainClasses (s : State) : State :=
  { s with rings := s.rings.map fun (e : Nat × Ring) =>
      let c := s.ringClass e.1
      if c = 0 ∨ c = 2 ∨ c = 5 then (e.1, e.2.finishAll 2) else e }

/-- The unit identity of a fault, for FLT_JOB.UNIT. -/
def identOf (u : Option UnitId) : Nat :=
  match u with
  | some x => unitIdent x
  | none => 0

/-- A pass that is resumed after a reset (R234): a DERIVE or SWEEP ends DRAINED_ERROR and is never repeated (R359). -/
def UpdPass.resumes : UpdPass → Bool
  | .derive_ .. => false
  | .sweep .. => false
  | _ => true

/-- An engine that stops in a pass: what is left of it is held, to be resumed should a reset interrupt it (R234); the pending
map's validation stays. -/
def UpdEng.stop (u : UpdEng) : UpdEng :=
  { u with todo := false, running := false, due := [], later := []
           held := if u.todo || u.running then u.due.filter UpdPass.resumes else u.held }

/-- R365: the job halts. No stream is formed any more, the spans and the snapshot that were due among them. -/
def State.halt (s : State) : State :=
  let s1 := { s with
    chiplets := s.chiplets.map fun (e : Nat × Chiplet) => if s.isServing e.1 then e else (e.1, e.2.halt)
    wp := { s.wp with job := false, stopping := false, arrived := [], firstArrival := none, gather := none,
                      timeoutRaised := false, startBy := none, stopBy := [] }
    upds := s.upds.map fun (e : Nat × UpdEng) => (e.1, e.2.stop)
    updQueue := []
    updOpen := [] }
  (((({ s1.dropDelta.dropSpans with snapDue := none } : State).drainClasses).setFld Reg.WPC_POSITION 0 0 0).setFld Reg.FLT_JOB 31 31 1).raise pgFLT 9

/-- A data-path fault (R364): the first cause since HALTED was last clear is recorded, every cause is
counted, and the job halts. -/
def State.jobFault (s : State) (cause : Nat) (u : Option UnitId) : State :=
  let s1 := if s.flag Reg.FLT_JOB 31 then s
    else s.setReg Reg.FLT_JOB (cause * 2 ^ 24 + identOf u)
  (s1.tally Reg.FLT_JOB_FAULTS).halt

/-- The ring front end freezes a ring on a violation (R197): the offending descriptor, when there is one,
completes VIOLATION and its index is recorded. Only UNFREEZE and DESTROY end FROZEN (R184), so a clear of ENABLE that was
still draining is over; a ring that is being fenced stays so (R356). Work whose completion is lost has no ring to freeze: the
violation is recorded. -/
def State.freezeRing (s : State) (n : Nat) (idx : Option Nat) (a : Nat) : State :=
  if 32768 ≤ n then (s.finish n (idx.getD 0) 4 0).noteViolation a 0 (n % 32768) else
  let s1 := match idx with
    | some i => (s.finish n i 4 0).setFld (Reg.RING_CTRL n) 15 0 i
    | none => s.setFld (Reg.RING_CTRL n) 15 0 (s.ring n).next
  let r := s1.ring n
  let s2 := s1.setRing n (if r.leaving = some .fencing then r
    else { r with st := .frozen, leaving := if r.leaving = some .ready then none else r.leaving })
  ((s2.noteViolation a 0 n).raise pgRC 8).raise (pgRG (n / 64)) 2

/-- An update engine's own access violates: the engine is frozen (R198); while a pass is in progress that is
an uncorrectable state error (R234). -/
def State.freezeUpd (s : State) (k a : Nat) : State :=
  let u : UnitId := .upd (Fin.ofNat 48 k)
  let s1 := s.freezeUnit u a
  if (Map.get (fun _ => ({} : UpdEng)) s.upds k).running then s1.jobFault 4 (some u) else s1

/-- The collective unit is frozen. -/
def State.freezeColl (s : State) (a : Nat) : State := s.freezeUnit .coll a

/-- The codec engine is frozen. -/
def State.freezeCodec (s : State) (k a : Nat) : State := s.freezeUnit (.codec (Fin.ofNat 32 k)) a

/-- Freezes whoever made a violating access. -/
def State.freeze (s : State) (who : Requester) (a : Nat) : State :=
  match who with
  | .func f => s.freezeFunc f a
  | .side => s
  | .ring n => s.freezeRing n none a
  | .chiplet c => s.freezeChip c a
  | .upd k => s.freezeUpd k a
  | .codec k => s.freezeCodec k a
  | .coll => s.freezeColl a

end Sys2Proof.Machine
end

