-- ==== Sys2Proof/Machine/SeqBase.lean ====
section
/-! DEFINITION. The sequencer's registers, streams, hazard checks, fault log and taint (R154 to R172, R182). -/

namespace Sys2Proof.Machine

/-! ### Register files (R157, R158) -/

/-- An S register. -/
def Chiplet.sreg (x : Chiplet) (i : Nat) : DWord := Map.get (fun _ => 0) x.s i
/-- A P register. -/
def Chiplet.preg (x : Chiplet) (i : Nat) : DWord := Map.get (fun _ => 0) x.p i
/-- A V register of an engine: its 512 lanes. -/
def Chiplet.vreg (x : Chiplet) (e i : Nat) : List Word := Map.get (fun _ => List.replicate 512 0) x.v (e * 64 + i)
/-- A Q register of an engine; Q0 reads as all ones. -/
def Chiplet.qreg (x : Chiplet) (e i : Nat) : BitVec 512 :=
  if i = 0 then BitVec.allOnes 512 else Map.get (fun _ => 0) x.q (e * 8 + i)
/-- An accumulator tile of a logical array, row-major. -/
def Chiplet.accTile (x : Chiplet) (a t : Nat) : List Word :=
  Map.get (fun _ => List.replicate 1024 0) x.acc (a * 8 + t)

/-- Writes a register; Q0 keeps its value. -/
def Chiplet.write (x : Chiplet) (w : RegWrite) : Chiplet :=
  match w with
  | .s i v => { x with s := Map.put (fun _ => 0) x.s i v }
  | .v e i l => { x with v := Map.put (fun _ => List.replicate 512 0) x.v (e * 64 + i) l }
  | .q e i m => if i = 0 then x else { x with q := Map.put (fun _ => 0) x.q (e * 8 + i) m }

/-- Writes a P register. -/
def Chiplet.setP (x : Chiplet) (i : Nat) (v : DWord) : Chiplet := { x with p := Map.put (fun _ => 0) x.p i v }

/-- Writes an accumulator tile. -/
def Chiplet.setAcc (x : Chiplet) (a t : Nat) (l : List Word) : Chiplet :=
  { x with acc := Map.put (fun _ => List.replicate 1024 0) x.acc (a * 8 + t) l }

/-- The register a 7-bit scalar source field names; none for 32 to 63 (R158). -/
def scalarReg (code : Nat) : Option (RClass × Nat) :=
  if code < 32 then some (.s, code) else if 64 ≤ code then some (.p, code - 64) else none

/-- The value of a 7-bit scalar source. -/
def Chiplet.scalar (x : Chiplet) (code : Nat) : DWord := if code < 32 then x.sreg code else x.preg (code - 64)

/-- Bit 0 of a Q register in vector engine 0, for CTRL predicates (R158). -/
def Chiplet.pred (x : Chiplet) (i : Nat) : Bool := (x.qreg 0 i).getLsbD 0

/-! ### Streams (R163) -/

/-- A deferred section is running. -/
def Chiplet.inSection (x : Chiplet) : Bool := x.section_.isSome
/-- The stream that issues. -/
def Chiplet.cur (x : Chiplet) : Stream := if x.inSection then x.dfr else x.main
/-- The other stream. -/
def Chiplet.oth (x : Chiplet) : Stream := if x.inSection then x.main else x.dfr
/-- Replaces the stream that issues. -/
def Chiplet.setCur (x : Chiplet) (st : Stream) : Chiplet :=
  if x.inSection then { x with dfr := st } else { x with main := st }

/-- A range is live (R165). -/
def Chiplet.live (x : Chiplet) (r : Range) : Bool :=
  match r.until_ with
  | .clock t => decide ((if r.deferred then x.dfr.clock else x.main.clock) < t)
  | .copy _ _ => true

/-- The schedule time a result of a register is ready at; 0 when none is pending. -/
def Stream.readyAt (st : Stream) (k : RClass × Nat) : Nat :=
  st.pend.foldl (fun m p => if p.cls = k.1 ∧ p.idx = k.2 then max m p.ready else m) 0

/-- The register of a list whose result is ready last. -/
def Stream.latest (st : Stream) (ks : List (RClass × Nat)) : Option ((RClass × Nat) × Nat) :=
  ks.foldl (fun m k =>
    let t := st.readyAt k
    match m with
    | some (_, u) => if u < t then some (k, t) else m
    | none => some (k, t)) none

/-- RCLASS and RINDEX of a register (R182). -/
def logReg (k : RClass × Nat) : Nat × Nat :=
  match k.1 with
  | .s => (1, k.2)
  | .p => (2, k.2)
  | .v => (3, k.2 % 64)
  | .q => (4, k.2 % 8)
  | .tile => (5, k.2)

/-- Runs of grains overlap. -/
def runsMeet (a b : List (Nat × Nat)) : Bool :=
  a.any fun p => b.any fun q => decide (p.1 ≤ q.2) && decide (q.1 ≤ p.2)

/-- The grains of a range of local offsets. -/
def grains (a n : Nat) : Nat × Nat := (a / 64, (a + (n - 1)) / 64)

/-- A new range of the stream that issues. -/
structure NewRange where
  runs : List (Nat × Nat)
  write : Bool
  until_ : RangeEnd
deriving DecidableEq, Repr

/-- Puts a number in its place in a list that does not fall. -/
def insertLe (a : Nat) : List Nat → List Nat
  | [] => [a]
  | b :: r => if a < b then a :: b :: r else b :: insertLe a r

/-- The n-th smallest of a list of numbers, counted from 0. -/
def nthLeast (l : List Nat) (n : Nat) : Option Nat := (l.foldl (fun m a => insertLe a m) [])[n]?

/-- A hazard found: cause, cycles early, RCLASS, RINDEX. -/
abbrev Hazard := Nat × Nat × Nat × Nat

/-- RAW_EARLY, WAW_EARLY and ARRAY_BUSY need a time, the others do not. -/
def early (t clock : Nat) : Nat := t - clock

/-- The range check of R165 over the ranges live now and those of the same bundle. RINDEX carries the place of the range that ends
last in the list of live ranges, and 0 for RANGE_FULL (DESIGN CHOICE, assumption 65: R182 numbers no entry of the table). -/
def Chiplet.rangeHazard (x : Chiplet) (new : List NewRange) (sameBundle : List Range) : Option Hazard :=
  let live := (x.ranges.filter x.live) ++ sameBundle
  let st := x.cur
  let endOf (r : Range) : Nat :=
    match r.until_ with
    | .clock t => if r.deferred = x.inSection then early t st.clock else 0
    | .copy _ _ => 0
  let hits := (live.zipIdx).filter fun p => new.any fun n => (n.write || p.1.write) && runsMeet n.runs p.1.runs
  match hits.foldl (fun m p =>
      match m with
      | some (e, i) => if e < endOf p.1 then some (endOf p.1, p.2) else some (e, i)
      | none => some (endOf p.1, p.2)) (none : Option (Nat × Nat)) with
  | some (e, i) => some (4, e, 6, i)
  | none =>
    if live.length + new.length ≤ 32 then none
    else
      let need := live.length + new.length - 32
      let ends := live.filterMap fun r =>
        match r.until_ with
        | .clock t => if r.deferred = x.inSection then some t else none
        | .copy _ _ => none
      match nthLeast ends (need - 1) with
      | some t => some (5, early t st.clock, 6, 0)
      | none => some (5, 0, 6, 0)

/-- The checks that come after the source registers: destinations, arrays, ranges, completion counters. -/
def Chiplet.hazardLate (x : Chiplet) (st : Stream) (dests : List (RClass × Nat)) (wawExempt : Bool)
    (arrays : List Nat) (new : List NewRange) (sameBundle : List Range) (cross : Bool) : Option Hazard :=
  let late := if wawExempt then none else (st.latest dests).filter fun p => decide (st.clock < p.2)
  match late with
  | some (k, t) => some (2, early t st.clock, (logReg k).1, (logReg k).2)
  | none =>
    let b := (st.busy.filter fun p => arrays.contains p.1 && decide (st.clock < p.2)).foldl
      (fun (m : Option (Nat × Nat)) p =>
        match m with
        | some q => if q.2 < p.2 then some p else some q
        | none => some p) none
    match b with
    | some (a, t) => some (3, early t st.clock, 7, a)
    | none =>
      match x.rangeHazard new sameBundle with
      | some h => some h
      | none => if cross then some (0xA, 0, 0, 0) else none

/-- The register and range checks of R165 and R169 on one slot, the first that fails in the order CROSS_STREAM, RAW_EARLY, WAW_EARLY,
ARRAY_BUSY, ranges (DESIGN CHOICE, assumption 65: R165 gives no order): registers read, registers written (tiles an
MMA accumulates onto are held, not a hazard, R132), arrays an MMA needs free, new ranges, and whether the
slot names a completion counter that the other stream's COPY has named. -/
def Chiplet.hazard (x : Chiplet) (reads dests : List (RClass × Nat)) (wawExempt : Bool) (arrays : List Nat)
    (new : List NewRange) (sameBundle : List Range) (cross : Bool) : Option Hazard :=
  let st := x.cur
  match (reads ++ dests).find? fun k => x.oth.written.contains k with
  | some k => some (0xA, 0, (logReg k).1, (logReg k).2)
  | none =>
    match (st.latest reads).filter fun p => decide (st.clock < p.2) with
    | some (k, t) => some (1, early t st.clock, (logReg k).1, (logReg k).2)
    | none => x.hazardLate st dests wawExempt arrays new sameBundle cross

/-! ### Faults of slots (R167, R170, R171, R182) -/

/-- The counter a cause counts in (R167). -/
def causeReg (c cause : Nat) : Nat :=
  if cause = 7 then Reg.SEQ_INCONSISTENT c
  else if cause = 6 ∨ cause = 8 ∨ cause = 9 then Reg.SEQ_ILLEGAL c
  else Reg.SEQ_HAZARDS c

/-- The log entry of a skipped slot (R182). -/
def State.logSlot (s : State) (c cause early_ slot rclass rindex addr : Nat) : State :=
  let n := s.fld (Reg.SEQ_LOG_CTRL c) 4 0
  if 16 ≤ n then s.tally (Reg.SEQ_LOG_LOST c)
  else
    let w := (s.reg Reg.WPC_WAYPOINT + 1) % 2 ^ 15
    (s.setReg (Reg.SEQ_LOG c n) (w * 2 ^ 49 + boolNat (s.chip c).bank * 2 ^ 48 + min early_ 0xFFFF * 2 ^ 32
      + cause * 2 ^ 28 + slot * 2 ^ 25 + rclass * 2 ^ 22 + (rindex % 512) * 2 ^ 13 + addr % 8192)).setFld
        (Reg.SEQ_LOG_CTRL c) 4 0 (n + 1)

/-- A training chiplet taints the step (R167, R180). -/
def State.taint (s : State) (c : Nat) : State :=
  let x := s.chip c
  if s.isServing c then s
  else
    let s1 := if x.tainted then s else (s.setChip c { x with tainted := true }).tally (Reg.SEQ_TAINTED_STEPS c)
    s1.setFld Reg.RT_STEP_TAINT 0 0 1

/-- A training chiplet receives a void (R168). -/
def State.receiveVoid (s : State) (c : Nat) : State :=
  if s.isServing c then s else (s.tally Reg.RT_VOID_RECEIVED).taint c

/-- A slot is skipped: logged, counted, and the step tainted; after the slice taint was read, a late taint
(R171). On a serving chiplet the request will end SKIPPED_INSTR (R170). -/
def State.skipSlot (s : State) (c cause early_ slot rclass rindex addr : Nat) : State :=
  let s1 := (s.logSlot c cause early_ slot rclass rindex addr).tally (causeReg c cause)
  if s.isServing c then s1.setChip c { s1.chip c with skipped := true }
  else
    let s2 := s1.taint c
    if s.wp.taintRead then
      (((s2.setFld Reg.RT_SLICE 0 0 1).raise pgRT 9).tally Reg.RT_LATE_TAINT).jobFault 2
        (some (.chiplet (Fin.ofNat 64 c)))
    else s2

/-- SEQ_LOG_CTRL.CLEAR (R182). -/
def State.clearLog (s : State) (c : Nat) : State :=
  (List.range 16).foldl (fun st n => st.setReg (Reg.SEQ_LOG c n) 0) (s.setFld (Reg.SEQ_LOG_CTRL c) 4 0 0)

/-- SEQ_LOG_CLEAR. -/
def execSeqLogClear (who : Requester) (c : Fin 64) (s : State) : Host.Outcome State Fault Refusal :=
  .next (s.command who (pgSEQ c) fun t => t.clearLog c)

/-- RT_SWAP_REQUEST: bits of RT_SWAP_REQ are set (R175). -/
def State.requestSwap (s : State) (mask : Nat) : State :=
  s.setReg Reg.RT_SWAP_REQ (Nat.lor (s.reg Reg.RT_SWAP_REQ) mask)

/-- RT_SWAP_REQUEST. -/
def execRtSwapRequest (who : Requester) (mask : DWord) (s : State) : Host.Outcome State Fault Refusal :=
  .next (s.command who pgRT fun t => t.requestSwap mask.toNat)

/-! ### What a serving program reads (R28, R188, R200) -/

/-- The serve buffer that the request of a serving chiplet reads: ranges of working weights and their bytes (R28). -/
def State.serveData (s : State) (c : Nat) : List (Nat × List Byte) :=
  if s.isServing c ∧ (s.chip c).serve.isSome then Map.get (fun _ => []) s.serveBufs (boolNat (s.chip c).serveBuf) else []

/-- Memory as a chiplet reads it: a working weight that the serve buffer of its request holds comes from there (DESIGN CHOICE:
assumption 34). -/
def State.serveView (s : State) (c : Nat) : State :=
  match s.serveData c with
  | [] => s
  | l => { s with mem := l.foldl (fun m r => Mem.write m r.1 r.2) s.mem }

/-- The first address of a read that the windows of a serving chiplet's ring do not allow, where the read meets the ARG range
of its request (R200). -/
def State.argShut (s : State) (c a n : Nat) : Option Nat :=
  match (s.chip c).serve with
  | none => none
  | some (r, idx) =>
    match s.flightAt r idx with
    | none => none
    | some f =>
      let arg := fieldAt f.bytes 0x18 8
      let lo := max (s.globalOf a) arg
      let hi := min (s.globalOf a + n) (arg + fieldAt f.bytes 0x20 4)
      let set := s.useWset r idx
      if s.isServing c ∧ lo < hi ∧ !s.windowed set lo (hi - lo) false then some (s.firstShut set lo false) else none

/-! ### Starting and ending streams (R177, R200) -/

/-- A chiplet's monitor state at the start of a step or request. -/
def Chiplet.fresh (x : Chiplet) (entry : Nat) : Chiplet :=
  { x with run := .running, pc := entry, main := {}, dfr := {}, mainDone := false, section_ := none, fillWait := none, dwq := [],
           pendingDefer := none, bundle := [], ranges := [], copies := [], skipped := false, uncorr := false }

/-- A training chiplet starts its step at SEQ_ENTRY_LIVE (R177). -/
def State.startStep (s : State) (c : Nat) : State :=
  let x := s.chip c
  s.setChip c { x.fresh (s.fld (Reg.SEQ_ENTRY_LIVE c) 12 0) with
    tainted := false, drawIdx := (0, 0), rsUsed := 0 }

/-- A chiplet's sequencer runs: power, clock, no freeze, and no fence past its drain. -/
def State.chipServes (s : State) (c : Nat) : Bool :=
  s.works (.chiplet (Fin.ofNat 64 c)) && !(s.unit (.chiplet (Fin.ofNat 64 c))).frozen && s.wardPowered (1 + c / 16)

/-- An operation leaves on the signal net (R204). -/
def State.sendSig (s : State) (o : SigOp) : State := { s with sigNet := s.sigNet ++ [o] }

/-- ENG_RETIRE_REQUEST (R150): pending until part (e) of the next waypoint. -/
def State.requestRetire (s : State) (c a : Nat) : State :=
  ((s.setFld (Reg.ENG_RETIRE c) 5 0 a).setFld (Reg.ENG_RETIRE c) 30 29 1).setChip c
    { s.chip c with retireReq := some a }

/-- ENG_RETIRE_REQUEST. -/
def execEngRetireRequest (who : Requester) (c : Fin 64) (array : BitVec 6) (s : State) :
    Host.Outcome State Fault Refusal :=
  .next (s.command who (pgENG c) fun t => t.requestRetire c array.toNat)

end Sys2Proof.Machine
end

