-- ==== Sys2Proof/Machine/Arbiter.lean ====
section
/-! DEFINITION. The arbiters of the shared ports (R206 to R208, R214). -/

namespace Sys2Proof.Machine

/-- BURST, B and CAP of ARB_CFG as they act (R214). -/
def State.arbCfg (s : State) (die : Nat) : Nat × Nat × Nat :=
  let r := Reg.ARB_CFG die
  let b := s.fld r 12 8
  (max 1 (min 256 (s.fld r 24 16)), max 1 (min 16 b), min 10 (s.fld r 3 0))

/-- An arbiter of a base die. -/
def State.arb (s : State) (die a : Nat) : Arb := Map.get (fun _ => {}) s.arbs (die * 232 + a)

/-- Replaces an arbiter. -/
def State.setArb (s : State) (die a : Nat) (x : Arb) : State :=
  { s with arbs := Map.put (fun _ => {}) s.arbs (die * 232 + a) x }

/-- A port of an arbiter. -/
def Arb.port (x : Arb) (p : Nat) : ArbPort := Map.get (fun _ => {}) x.ports p

/-- Replaces a port. -/
def Arb.setPort (x : Arb) (p : Nat) (v : ArbPort) : Arb :=
  { x with ports := Map.put (fun _ => {}) x.ports p v }

/-- A port raises its request in a cycle; the wait runs from its first raising (R208). -/
def Arb.raise (x : Arb) (p cycle : Nat) (ch : Chan) : Arb :=
  let v := x.port p
  x.setPort p { v with chan := ch, raised := true, backoffAt := none,
                       since := some (v.since.getD cycle) }

/-- A port loses (R206): it backs off, or it becomes urgent and keeps its request raised. -/
def Arb.lose (x : Arb) (b cap cycle p : Nat) : Arb :=
  let v := x.port p
  let n := v.losses + 1
  if v.urgentAt.isSome then x
  else if cap ≤ n - 1 then x.setPort p { v with losses := n, urgentAt := some cycle }
  else x.setPort p { v with losses := n, raised := false, backoffAt := some (cycle + b * 2 ^ (min (n - 1) cap)) }

/-- The channel comes first in R207: SERVE traffic. -/
def Chan.serves : Chan → Bool
  | .serveRequest => true
  | .serveResponse => true
  | _ => false

/-- The ports whose requests are raised. -/
def Arb.raisedPorts (x : Arb) : List Nat := (x.ports.filter fun e => e.2.raised).map fun e => e.1

/-- The urgent port marked longest ago, the lowest number on a tie. -/
def Arb.firstUrgent (x : Arb) (ps : List Nat) : Option Nat :=
  (ps.foldl (fun (m : Option (Nat × Nat)) p =>
    match (x.port p).urgentAt with
    | none => m
    | some t =>
      match m with
      | some q => if t < q.1 then some (t, p) else m
      | none => some (t, p)) none).map fun q => q.2

/-- The choice of R207 among the raised requests. -/
def Arb.choose (x : Arb) : Option Nat :=
  let all := x.raisedPorts
  let srv := all.filter fun p => Chan.serves (x.port p).chan
  let ps := if srv.isEmpty then all else srv
  match x.firstUrgent ps with
  | some p => some p
  | none => ((List.range 64).map fun k => (x.last + 1 + k) % 64).find? fun p => ps.contains p

/-- Counters of a grant (R208): grants, wait cycles, longest wait, grants to urgent requesters. -/
def State.noteGrant (s : State) (die a p wait : Nat) (urgent : Bool) : State :=
  let k := a * 64 + p
  let s1 := (s.countAt (Reg.ARB_GRANTS die) (some k) 1).countAt (Reg.ARB_WAIT die) (some k) wait
  let old := s1.reg (banked (Reg.ARB_LONGEST die) k)
  let s2 := s1.countAt (Reg.ARB_LONGEST die) (some k) (wait - old)
  if urgent then s2.tally (Reg.ARB_URGENT_WINS die) else s2

/-- The cycle's grant on a free port, and the losses of every other request raised in it (R206, R207). -/
def State.grantPort (s : State) (die a cycle : Nat) : State :=
  let x := s.arb die a
  let (_, b, cap) := s.arbCfg die
  match x.owner with
  | some _ => s.setArb die a (x.raisedPorts.foldl (Arb.lose · b cap cycle ·) x)
  | none =>
    match x.choose with
    | none => s
    | some p =>
      let v := x.port p
      let won := { x.setPort p { v with raised := false, losses := 0, since := none, urgentAt := none,
                                        backoffAt := none } with owner := some (p, cycle), last := p }
      let y := won.raisedPorts.foldl (Arb.lose · b cap cycle ·) won
      (s.setArb die a y).noteGrant die a p (cycle - v.since.getD cycle) v.urgentAt.isSome

/-- The arbiters of a base die grant: its ward has power, and it is not fenced, or its units are still in their drains and
what they have accepted runs to its end (R46, R358). -/
def State.dieLive (s : State) (die : Nat) : Bool :=
  s.wardPowered (1 + die) && (!s.wardFence.contains (1 + die) || s.wardDue.contains (1 + die))

/-- ARBITER_GRANT: the requests of a cycle are raised and the arbiter decides the cycle. -/
def execArbiterGrant (die : Fin 4) (arb : Fin 232) (cycle : Nat) (raises : List PortRaise) (s : State) :
    Host.Outcome State Fault Refusal :=
  if s.dieLive die then
    let x := raises.foldl (fun (y : Arb) r => y.raise r.port cycle r.chan) (s.arb die arb)
    .next ((s.setArb die arb x).grantPort die arb cycle)
  else .next s

/-- BURST_END: the owner's grant ends, by dropping its request or after BURST beats; an owner that still
wants the port raises its request again in the same cycle. -/
def execBurstEnd (die : Fin 4) (arb : Fin 232) (cycle : Nat) (wants : Bool) (s : State) :
    Host.Outcome State Fault Refusal :=
  let x := s.arb die arb
  match x.owner with
  | none => .next s
  | some (p, t) =>
    if wants ∧ cycle < t + (s.arbCfg die).1 then .next s
    else
      let y := { x with owner := none }
      .next (s.setArb die arb (if wants then y.raise p cycle (y.port p).chan else y))

/-- BACKOFF_EXPIRY: a loser raises its request again at the end of its backoff (R206); it loses at once
while another holds the grant. -/
def execBackoffExpiry (die : Fin 4) (arb : Fin 232) (port : Fin 64) (cycle : Nat) (s : State) :
    Host.Outcome State Fault Refusal :=
  let x := s.arb die arb
  if (x.port port).backoffAt = some cycle then
    let y := x.raise port cycle (x.port port).chan
    let (_, b, cap) := s.arbCfg die
    .next (s.setArb die arb (if y.owner.isSome then y.lose b cap cycle port else y))
  else .next s

/-- The port of the region unit's arbiter that a unit is on: the one whose ARB_PORT_ID names its ward, block type and instance
(R214). -/
def State.regionPort (s : State) (die ident : Nat) : Option Nat :=
  (List.range 64).find? fun p => s.reg (banked (Reg.ARB_PORT_ID die) (226 * 64 + p)) == ident

/-- A write returned under R138 is a loss of its sender at the region unit's arbiter (R206). -/
def State.regionLoss (s : State) (die ident cycle : Nat) : State :=
  match s.regionPort die ident with
  | none => s
  | some p =>
    let (_, b, cap) := s.arbCfg die
    s.setArb die 226 ((s.arb die 226).lose b cap cycle p)

/-- How long a sender waits after its n-th loss in a row, in ns: B × 2^e cycles of the fast clock; an urgent sender does not
wait (R206). -/
def State.backoffTime (s : State) (die n : Nat) : Nat :=
  let (_, b, cap) := s.arbCfg die
  let f := max 1 (s.fld Reg.CLK_FAST 15 0)
  if cap ≤ n - 1 then 0 else (b * 2 ^ (min (n - 1) cap) * 1000 + f - 1) / f

end Sys2Proof.Machine
end

