-- ==== Sys2Proof/Machine/Signals.lean ====
section
/-! DEFINITION. The signal net (R202 to R205, R213). A counter is named by base die × 4096 + number. -/

namespace Sys2Proof.Machine

/-- The value of a signal counter. -/
def State.sig (s : State) (ctr : Nat) : Word := Map.get (fun _ => 0) s.sigs ctr

/-- Sets a signal counter. -/
def State.setSig (s : State) (ctr : Nat) (v : Nat) : State :=
  { s with sigs := Map.put (fun _ => 0) s.sigs ctr (BitVec.ofNat 32 v) }

/-- The ward of a base die is fenced, in RESET or in PROBATION: its counters take nothing (R204). -/
def State.sigDead (s : State) (die : Nat) : Bool := s.wardFence.contains (1 + die) || !s.wardPowered (1 + die)

/-- An add as R203 gives it: saturating, an exact sum past the ceiling counted. -/
def State.sigPlus (s : State) (ctr v : Nat) : State :=
  let sum := (s.sig ctr).toNat + v
  let s1 := s.setSig ctr (min sum 0xFFFFFFFF)
  if 0xFFFFFFFF < sum then s1.tally (Reg.SIG_OVERFLOW (ctr / 4096)) else s1

/-- An operation takes its effect on its counter. -/
def State.sigEffect (s : State) (ctr : Nat) (a : SigAct) : State :=
  match a with
  | .add v => s.sigPlus ctr v
  | .set v => s.setSig ctr v

/-- An operation reaches its counter: applied, or discarded by a base die under fence (R204). -/
def State.sigArrive (s : State) (ctr : Nat) (a : SigAct) : State :=
  if s.sigDead (ctr / 4096) then s else s.sigEffect ctr a

/-- One operation of a chiplet has been applied. -/
def State.sigSent (s : State) (src : Option Nat) : State :=
  match src with
  | none => s
  | some c => s.setChip c { s.chip c with opsOut := (s.chip c).opsOut - 1 }

/-- Some data write that an operation follows has not been answered yet (R45). -/
def State.sigHeld (s : State) (o : SigOp) : Bool := o.after.any fun w => s.accNet.any fun v => w.same v

/-- SIGNAL_APPLY: an operation on its way reaches its counter, once the writes it follows have been answered. -/
def execSignalApply (i : Nat) (s : State) : Host.Outcome State Fault Refusal :=
  match s.sigNet[i]? with
  | none => .next s
  | some o =>
    if s.sigHeld o then .next s
    else .next (({ s with sigNet := s.sigNet.eraseIdx i }.sigArrive o.ctr o.act).sigSent o.src)

/-- The event records a base die holds. -/
def State.evtFifo (s : State) (die : Nat) : List DWord := Map.get (fun _ => []) s.evts die

/-- Replaces the event FIFO of a base die. -/
def State.setEvtFifo (s : State) (die : Nat) (l : List DWord) : State :=
  { s with evts := Map.put (fun _ => []) s.evts die l }

/-- EVENT (R205): a record enters the FIFO of the counter's base die and the signal event is raised; a full
FIFO drops and counts it. -/
def State.postEvent (s : State) (c ctr value : Nat) : State :=
  let die := ctr / 4096
  if s.sigDead die then s
  else
    let l := s.evtFifo die
    if 64 ≤ l.length then s.tally (Reg.SIG_EVT_LOST die)
    else
      (s.setEvtFifo die (l ++ [BitVec.ofNat 64 (2 ^ 63 + c % 64 * 2 ^ 57 + value % 8192 * 2 ^ 44
        + ctr % 4096 * 2 ^ 32 + s.now % 2 ^ 32)])).raise (pgSIG die) 8

/-- A 64-bit write of SIG_HOSTOP (R213): the register holds what was written, and OP acts on the counter of
SIG_SEL. -/
def State.hostOp (s : State) (die v : Nat) : State :=
  let ctr := die * 4096 + s.fld (Reg.SIG_SEL die) 11 0
  let s1 := s.setReg (Reg.SIG_HOSTOP die) (bitsOf v 63 62 * 2 ^ 62 + bitsOf v 31 0)
  let op := bitsOf v 63 62
  if op = 1 then s1.sigArrive ctr (.add (bitsOf v 31 0))
  else if op = 2 then s1.sigArrive ctr (.set (bitsOf v 31 0))
  else s1

/-- SIG_HOSTOP_ADD. -/
def execSigHostopAdd (who : Requester) (die : Fin 4) (value : Word) (s : State) :
    Host.Outcome State Fault Refusal :=
  .next (s.command who (pgSIG die) fun t => t.hostOp die (2 ^ 62 + value.toNat))

/-- SIG_HOSTOP_SET. -/
def execSigHostopSet (who : Requester) (die : Fin 4) (value : Word) (s : State) :
    Host.Outcome State Fault Refusal :=
  .next (s.command who (pgSIG die) fun t => t.hostOp die (2 * 2 ^ 62 + value.toNat))

/-- The oldest event record, as a read of SIG_EVT_POP returns it: 0, with VALID clear, when none is held. -/
def State.oldestEvent (s : State) (die : Nat) : DWord := (s.evtFifo die).headD 0

/-- The oldest event record leaves its FIFO. -/
def State.popEvent (s : State) (die : Nat) : State := s.setEvtFifo die ((s.evtFifo die).drop 1)

/-- SIG_EVT_POP: a 64-bit read returns the oldest record and removes it; a requester that may not see the
page reads 0 (R56). -/
def execSigEvtPop (who : Requester) (die : Fin 4) (s : State) : Host.Outcome State Fault Refusal :=
  if s.pathFrozen who ∨ !s.wardPowered (1 + die) then .next (s.notReady who)
  else if asPF0 who then .next ((s.emit (.value who (s.oldestEvent die))).popEvent die)
  else .next (s.emit (.value who 0))

/-- WAYPOINT_DONE clears the counters 0 to 2,047 of every base die (R202). -/
def State.clearStepSigs (s : State) : State :=
  { s with sigs := s.sigs.filter fun e => decide (2048 ≤ e.1 % 4096) }

/-- A reset of a base die's ward clears its counters, empties its event FIFO and discards operations on
their way (R204). -/
def State.resetSigs (s : State) (die : Nat) : State :=
  let gone := s.sigNet.filter fun o => decide (o.ctr / 4096 = die)
  let s1 := { s with
    sigs := s.sigs.filter fun e => decide (e.1 / 4096 ≠ die)
    sigNet := s.sigNet.filter fun o => decide (o.ctr / 4096 ≠ die) }
  (gone.foldl (fun t (o : SigOp) => t.sigSent o.src) s1).setEvtFifo die []

end Sys2Proof.Machine
end

