-- ==== Sys2Proof/Machine/Slow.lean ====
section
/-! DEFINITION. The slow-tier controller (R54, R246): its counters, its answers and the freezing of
requesters beyond its capacity. -/

namespace Sys2Proof.Machine

/-- 64-byte bursts that a range touches. -/
def burstsOf (a n : Nat) : Nat := if n = 0 then 0 else (a + n - 1) / 64 - a / 64 + 1

/-- The slow-tier controller counts an access that falls to it. -/
def State.noteSlow (s : State) (a n : Nat) (write : Bool) : State :=
  if placeOf a = .slow then
    (s.count (if write then Reg.SLT_WRITE_BYTES else Reg.SLT_READ_BYTES) n).progress pgSLT (burstsOf a n)
  else s

/-- An uncorrectable burst is met: it stays so, one with unwritten bytes as well (R246, R427); counted and noted when it is the slow
tier's. -/
def State.noteBad (s : State) (b : Nat) : State :=
  let t := if s.badBursts.contains b then s else { s with badBursts := s.badBursts ++ [b] }
  if placeOf b = .slow then (t.tally Reg.SLT_UNCORRECTABLE).setReg Reg.SLT_ERR_ADDR b else t

/-- What a read of a range meets is noted. -/
def State.noteBurst (s : State) (a n : Nat) : State :=
  match s.badBurst a n with
  | some b => s.noteBad b
  | none => s

/-- A local offset lies in the slow tier's window (R53). -/
def inSlowWindow (a : Nat) : Bool := decide (0x100000000000 ≤ a) && decide (a < 0x120000000000)

/-- An access beyond the installed capacity is counted (R54). -/
def State.noteBeyond (s : State) (a n : Nat) : State :=
  if inSlowWindow a ∧ (placeOf a ≠ .slow ∨ placeOf (a + (n - 1)) ≠ .slow) then s.tally Reg.SLT_BEYOND else s

/-- The requester is an update engine with a pass in progress, or a chiplet of the training partition: what
it cannot read is an uncorrectable state error (R234, R162). -/
def State.stateReader (s : State) (who : Requester) : Option UnitId :=
  match who with
  | .upd k => if (Map.get (fun _ => ({} : UpdEng)) s.upds k).running then some (.upd k) else none
  | .chiplet c => if s.isServing c then none else some (.chiplet c)
  | _ => none

/-- A data-path fault of CAUSE 4 where the requester reads job state. -/
def State.stateFault (s : State) (who : Requester) : State :=
  match s.stateReader who with
  | some u => s.jobFault 4 (some u)
  | none => s

/-- An uncorrectable error that a read of a slot meets: a data-path fault on a training chiplet (R162), UNCORRECTABLE at the end of a
serving chiplet's request. -/
def State.chipUncorrectable (s : State) (c : Nat) : State :=
  if s.isServing c then s.setChip c { s.chip c with uncorr := true } else s.stateFault (.chiplet (Fin.ofNat 64 c))

/-- The DRAM devices report an uncorrectable burst in a range. -/
def State.markBad (s : State) (a n b : Nat) : State :=
  let x := b / 64 * 64
  if x < a + n ∧ a < x + 64 ∧ !s.badBursts.contains x then { s with badBursts := s.badBursts ++ [x] } else s

/-- What the devices did while the controller served a range. -/
def State.dramOutcome (s : State) (a n : Nat) (err : DramErr) : State :=
  match err with
  | .clean => s
  | .corrected k => s.count Reg.SLT_CORRECTED k
  | .uncorrectable b => s.markBad a n b.toNat

/-- A read that the slow-tier controller serves. -/
def State.slowRead (s : State) (who : Requester) (a n : Nat) : State :=
  match s.badBurst a n with
  | some b => ((s.noteBad b).emit (.reply who 9 [])).stateFault who
  | none => (s.noteSlow a n false).emit (.reply who 0 (s.load a n))

/-- A write that the slow-tier controller serves: a bad burst written in part completes UNCORRECTABLE. -/
def State.slowWrite (s : State) (who : Requester) (a : Nat) (bs : List Byte) : State :=
  let s1 := (s.store a bs).noteSlow a bs.length true
  match s.tornBursts a bs.length with
  | [] => s1.emit (.reply who 0 [])
  | b :: _ => ((s1.noteBad b).emit (.reply who 9 [])).stateFault who

/-- The wards whose units a request at a local offset reaches (R34, R46). -/
def placeWards (a : Nat) : List Nat :=
  match placeOf a with
  | .hbm k => [1 + k / 3, 5]
  | .slow => [5]
  | .bank d => [1 + d]
  | .scratch c => [1 + c / 16]
  | .imem c _ => [1 + c / 16]
  | _ => []

/-- A request that reaches a ward whose clock is stopped starts it, in MODE AUTO; it waits for the clock and is served then (R346). -/
def State.wakePlaces (s : State) (l : List Nat) : State := (l.flatMap placeWards).foldl State.startClock s

/-- SLOW_TIER_ACCESS. A fenced controller refuses the access (R359); one beyond the installed capacity
freezes its requester (R54); an offset that is not the slow tier's never reaches the controller. An access of no bytes moves
none (assumption 60). -/
def execSlowTierAccess (who : Requester) (off : BitVec 48) (op : MemOp) (err : DramErr) (s : State) :
    Host.Outcome State Fault Refusal :=
  let a := off.toNat
  let n := match op with
    | .read n => n
    | .write bs => bs.length
  if n = 0 then .next (s.emit (.reply who 0 []))
  else if !inSlowWindow a ∨ !s.wardPowered 5 then .next s
  else if !s.serving .slowTier then .next (s.refuse.emit (.reply who 1 []))
  else if !populated a n then .next (((s.noteBeyond a n).emit (.reply who 4 [])).freeze who a)
  else
    let s1 := (s.wakePlaces [a]).dramOutcome a n err
    match op with
    | .read _ => .next (s1.slowRead who a n)
    | .write bs => .next (s1.slowWrite who a bs)

end Sys2Proof.Machine
end

