-- ==== Sys2Proof/Machine/Rings.lean ====
section
/-! DEFINITION. Rings: states, doorbells, the scheduler, completions, refusals and freezes
(R183 to R192, R195 to R199, R209, R211). -/

namespace Sys2Proof.Machine

/-- The ring front end runs: the HOST ward has power and its clock is not off. -/
def State.hostRuns (s : State) : Bool := s.wardPowered 8 && !s.clockOff 8

/-- Its core logic runs: the HOST ward's clock governs it, and not the PCIe links (R346). -/
def State.hostCore (s : State) : Bool := s.hostRuns && s.clockRuns 8

/-! ### What a ring's registers say -/

/-- The function that owns a ring (R183, R209): host die and function index; none when unassigned. -/
def State.ringOwner (s : State) (n : Nat) : Option (Nat × Nat) :=
  let r := s.reg (Reg.RG_ASSIGN (n / 64))
  let die := bitsOf r 12 12
  if bitOf r 31 then (s.funcIndex die (bitsOf r 11 10) (bitsOf r 9 4)).map fun i => (die, i) else none

/-- A function owns the ring. -/
def State.ownsRing (s : State) (f : Func) (n : Nat) : Bool := s.ringOwner n == some (f.die.val, f.idx.val)

/-- Descriptors a ring holds (R185): LOG2_SIZE outside 4 to 16 acts as 4. -/
def State.ringSize (s : State) (n : Nat) : Nat :=
  let l := s.fld (Reg.RING_CFG n) 28 24
  2 ^ (if 4 ≤ l ∧ l ≤ 16 then l else 4)

/-- Descriptors a ring keeps in flight (R186). -/
def State.ringDepth (s : State) (n : Nat) : Nat := s.fld (Reg.RING_CFG n) 4 0 + 1

/-- HEAD and TAIL (R209). -/
def State.ringHead (s : State) (n : Nat) : Nat := s.fld (Reg.RING_PTR n) 15 0
def State.ringTail (s : State) (n : Nat) : Nat := s.fld (Reg.RING_PTR n) 31 16

/-- The host die of a ring: that of its owner. -/
def State.ringDie (s : State) (n : Nat) : Nat :=
  match s.ringOwner n with
  | some (d, _) => d
  | none => s.fld (Reg.RG_ASSIGN (n / 64)) 12 12

/-- A signal counter lies in a ring's signal window (R191). -/
def State.sigAllowed (s : State) (n ctr : Nat) : Bool :=
  let r := s.reg (Reg.RING_AUX n)
  let own := decide (ctr / 4096 = bitsOf r 7 6) && decide (ctr % 4096 / 64 = bitsOf r 5 0)
  let pf0 := match s.ringOwner n with
    | some (_, i) => decide (i = 0)
    | none => false
  own || (bitOf r 31 && pf0 && decide (2048 ≤ ctr % 4096))

/-! ### Fields of a descriptor (R190) -/

/-- OP, FLAGS and the fields of the lead. -/
def opOf (d : List Byte) : Nat := fieldAt d 0 1
def flagOf (d : List Byte) (n : Nat) : Bool := bitOf (fieldAt d 1 1) n
def tagOf (d : List Byte) : Nat := fieldAt d 2 2
/-- The counter a descriptor signals, as base die × 4096 + number. -/
def ctrOf (d : List Byte) : Nat := fieldAt d 4 2 % 2 ^ 14
/-- The value a descriptor's signal adds. -/
def sigValueOf (d : List Byte) : Nat := fieldAt d 6 2

/-- The operations a class defines beside NOP (R191). -/
def opDefined (cls op : Nat) : Bool :=
  match cls with
  | 0 => op = 1 ∨ op = 2
  | 1 => op = 1 ∨ op = 2
  | 2 => op = 1 ∨ op = 2
  | 3 => op = 1 ∨ op = 2
  | 4 => op = 1 ∨ op = 2
  | 5 => op = 1 ∨ op = 2 ∨ op = 3
  | 6 => op = 1
  | _ => op = 1 ∨ op = 2

/-! ### Rights on a ring (R184, R199, R209) -/

/-- A command on a ring's registers: done for a requester with PF0's rights and, where `owner` says so, for
the function that owns the ring; dropped for others (R56). -/
def State.ringCommand (s : State) (who : Requester) (n : Nat) (owner : Bool) (f : State → State) : State :=
  let allowed := match who with
    | .func g => decide (g.idx = 0) || (owner && s.ownsRing g n)
    | _ => true
  if s.pathFrozen who then s.notReady who
  else if !allowed then s.dropped who
  else if !s.hostRuns then s
  else f s

/-! ### States of a ring (R184) -/

/-- The unit-state code of a ring state (R382). -/
def RingState.code : RingState → Nat
  | .off => 0
  | .ready => 1
  | .active => 2
  | .fencing => 3
  | .draining => 4
  | .frozen => 7

/-- A ring takes the state it was leaving for, once nothing is in flight; an OFF ring keeps no pointers, and a ring that
leaves a fence (R356) is READY with its pointers at 0. -/
def State.settleRing (s : State) (n : Nat) : State :=
  let r := s.ring n
  if r.flights.isEmpty then
    match r.leaving with
    | some .off => ((s.setFld (Reg.RING_CTRL n) 29 29 0).setReg (Reg.RING_PTR n) 0).setRing n Ring.off
    | some .fencing => ((s.setFld (Reg.RING_CTRL n) 29 29 0).setReg (Reg.RING_PTR n) 0).setRing n { st := .ready }
    | some st => s.setRing n { r with st := st, leaving := none }
    | none => s
  else s

/-- RING_CREATE: OFF → READY; the class of RING_CFG binds until the ring is destroyed. -/
def State.createRing (s : State) (n : Nat) : State :=
  if (s.ring n).st = .off then
    (s.setFld (Reg.RING_PTR n) 31 16 (s.ringHead n)).setRing n { st := .ready, next := s.ringHead n }
  else s

/-- RING_DESTROY: READY, ACTIVE or FROZEN → OFF once what is in flight has completed. -/
def State.destroyRing (s : State) (n : Nat) : State :=
  let r := s.ring n
  match r.st with
  | .ready => (s.setRing n { r with leaving := some .off }).settleRing n
  | .active => (s.setRing n { r with leaving := some .off }).settleRing n
  | .frozen => (s.setRing n { r with leaving := some .off }).settleRing n
  | _ => s

/-- The host die of a ring takes requests: it is in no fence sequence and not quarantined (R358, R371). -/
def State.ringServed (s : State) (n : Nat) : Bool := s.unfenced (.hostDie (Fin.ofNat 2 (s.ringDie n)))

/-- RING_ENABLE: READY → ACTIVE; on an ACTIVE ring it takes back a clear of ENABLE still draining or made before a freeze. A fenced
or quarantined host die refuses it. -/
def State.enableRing (s : State) (n : Nat) : State :=
  let r := s.ring n
  if !s.ringServed n then s.refuse
  else match r.st with
  | .ready => (s.setFld (Reg.RING_CTRL n) 29 29 1).setRing n { r with st := .active }
  | .active =>
    if r.leaving = some .ready ∨ (r.leaving = none ∧ !s.flag (Reg.RING_CTRL n) 29) then
      (s.setFld (Reg.RING_CTRL n) 29 29 1).setRing n { r with leaving := none }
    else s
  | _ => s

/-- RING_DISABLE: ACTIVE → READY once what is in flight has completed. -/
def State.disableRing (s : State) (n : Nat) : State :=
  let r := s.ring n
  match r.st with
  | .active =>
    if r.leaving = some .off then s
    else ((s.setFld (Reg.RING_CTRL n) 29 29 0).setRing n { r with leaving := some .ready }).settleRing n
  | _ => s

/-- RING_UNFREEZE: FROZEN → ACTIVE, and fetch resumes at HEAD (R199). Where HEAD has not been rewritten and descriptors are
still in flight, HEAD is at the oldest of them and will be behind them: fetch resumes there (DEDUCED: assumption 58). -/
def State.unfreezeRing (s : State) (n : Nat) : State :=
  let r := s.ring n
  match r.st with
  | .frozen => s.setRing n { r with st := .active, next := if r.flights.isEmpty ∨ 0 < r.stale then s.ringHead n else r.next }
  | _ => s

/-- RING_CREATE. -/
def execRingCreate (who : Requester) (n : Fin 32768) (s : State) : Host.Outcome State Fault Refusal :=
  .next (s.ringCommand who n false fun t => t.createRing n)

/-- RING_DESTROY. -/
def execRingDestroy (who : Requester) (n : Fin 32768) (s : State) : Host.Outcome State Fault Refusal :=
  .next (s.ringCommand who n false fun t => t.destroyRing n)

/-- RING_ENABLE. -/
def execRingEnable (who : Requester) (n : Fin 32768) (s : State) : Host.Outcome State Fault Refusal :=
  .next (s.ringCommand who n true fun t => t.enableRing n)

/-- RING_DISABLE. -/
def execRingDisable (who : Requester) (n : Fin 32768) (s : State) : Host.Outcome State Fault Refusal :=
  .next (s.ringCommand who n true fun t => t.disableRing n)

/-- RING_UNFREEZE. -/
def execRingUnfreeze (who : Requester) (n : Fin 32768) (s : State) : Host.Outcome State Fault Refusal :=
  .next (s.ringCommand who n true fun t => t.unfreezeRing n)

/-! ### Doorbells (R195, R196) -/

/-- The group that stands in slot i of a VF: whose page its BAR0 maps and whose doorbells its BAR2 has there (R195, R209). -/
def State.slotGroup (s : State) (f : Func) (i : Nat) : Option Nat :=
  (List.range 512).find? fun g =>
    s.ringOwner (64 * g) == some (f.die.val, f.idx.val) && decide (s.fld (Reg.RG_ASSIGN g) 3 0 = i)

/-- The ring whose doorbell begins at an offset of a function's BAR2 (R195): every ring in that of a PF, those of its own
groups by slot in that of a VF. -/
def State.doorbellRing (s : State) (f : Func) (a : Nat) : Option Nat :=
  if f.idx.val < 3 then some (a / 64)
  else if 0x10000 ≤ a then none
  else (s.slotGroup f (a / 0x1000)).map fun g => 64 * g + a % 0x1000 / 64

/-- DOORBELL: a write of some bytes at an offset of the function's BAR2. A 32-bit or 64-bit write to a doorbell's first word sets
TAIL; dropped and counted from a function that does not own the ring; ignored on an OFF ring; a TAIL past the ring's size is a
violation of the ring. The other bytes of a doorbell, and other widths, do nothing; a fenced or quarantined host die takes none. -/
def execDoorbell (f : Func) (off : BitVec 21) (data : List Byte) (s : State) : Host.Outcome State Fault Refusal :=
  if !s.hostRuns ∨ s.hostInReset f.die ∨ !s.unfenced (.hostDie f.die) ∨ (data.length ≠ 4 ∧ data.length ≠ 8) ∨ off.toNat % 64 ≠ 0 then .next s
  else match s.doorbellRing f off.toNat with
  | none => .next (s.tally Reg.RC_DB_DROPPED)
  | some n =>
    let tail := leNat data % 0x10000
    if !s.ownsRing f n then .next (s.tally Reg.RC_DB_DROPPED)
    else match (s.ring n).st with
      | .off => .next s
      | .fencing => .next s
      | .draining => .next s
      | _ =>
        if s.ringSize n ≤ tail then .next (s.freezeRing n none 0)
        else .next (s.setFld (Reg.RING_PTR n) 31 16 tail)

/-! ### The scheduler (R186, R187) -/

/-- The 64 bytes of the descriptor at a ring index; none where its ring lies outside populated memory. -/
def State.descriptor (s : State) (n idx : Nat) : Option (List Byte) :=
  let r := s.reg (Reg.RING_DESC n)
  let a := r / 64 * 64 + 64 * idx
  if bitOf r 0 then some (s.hostLoad (s.ringDie n) a 64)
  else if populated a 64 then some (s.load a 64) else none

/-- The descriptor meets an uncorrectable burst. -/
def State.descriptorBad (s : State) (n idx : Nat) : Bool :=
  let r := s.reg (Reg.RING_DESC n)
  !bitOf r 0 && s.uncorrectable (r / 64 * 64 + 64 * idx) 64

/-- The ring can start its next descriptor: ACTIVE, one pending, room in flight, and a FENCE descriptor only
behind nothing (R186). -/
def State.canStart (s : State) (n : Nat) : Bool :=
  let r := s.ring n
  let fenced := match s.descriptor n r.next with
    | some d => flagOf d 2
    | none => false
  s.ringServed n && decide (r.st = .active) && decide (r.leaving = none) && decide (r.next ≠ s.ringTail n)
    && decide (r.flights.length < s.ringDepth n) && !(r.flights.any fun f => decide (f.idx = r.next)) && (!fenced || r.flights.isEmpty)

/-- The tier of a ring (R187): 0 for SERVE. -/
def State.ringTier (s : State) (n : Nat) : Nat := if s.ringClass n = 6 then 0 else 1

/-- The first ring of a tier after a number, going round. -/
def roundRobin (ns : List Nat) (last : Nat) : Option Nat :=
  match ns.find? fun n => decide (last < n) with
  | some n => some n
  | none => ns.head?

/-- The ring the scheduler of a host die fetches from next (R187). -/
def State.nextFetch (s : State) (die : Nat) : Option Nat :=
  let live := (s.rings.map fun e => e.1).filter fun n => decide (s.ringDie n = die) && s.canStart n
  let pick (t : Nat) := roundRobin (live.filter fun n => decide (s.ringTier n = t))
    (Map.get (fun _ => 32767) s.lastFetch (die * 2 + t))
  match pick 0 with
  | some n => some n
  | none => pick 1

/-- The index after a ring index. -/
def State.ringSucc (s : State) (n i : Nat) : Nat := (i + 1) % s.ringSize n

/-- The ring starts the descriptor at its next index (R186): it is read, checked by R191 and put in flight: SIG_COUNTER lies in
the signal window whether or not FLAGS.SIGNAL is set. -/
def State.startDescriptor (s : State) (n : Nat) : State :=
  let r := s.ring n
  let i := r.next
  let put (d : List Byte) (st : Option (Nat × Nat)) : State :=
    s.setRing n { r with next := s.ringSucc n i, flights := r.flights ++ [{ idx := i, bytes := d, status := st }] }
  match s.descriptor n i with
  | none => (put (List.replicate 64 0) none).freezeRing n (some i) (s.reg (Reg.RING_DESC n) / 64 * 64 + 64 * i)
  | some d =>
    if s.descriptorBad n i then (put d (some (9, 0))).noteBurst (s.reg (Reg.RING_DESC n) / 64 * 64 + 64 * i) 64
    else if opOf d ≠ 0 ∧ !opDefined (s.ringClass n) (opOf d) then (put d none).freezeRing n (some i) 0
    else if !s.sigAllowed n (ctrOf d) then (put d none).freezeRing n (some i) 0
    else put d none

/-- DESCRIPTOR_FETCH: the scheduler of the ring's host die fetches from this ring, when it is the one that
R187 picks; the host die's PROGRESS advances (R368). -/
def execDescriptorFetch (n : Fin 32768) (s : State) : Host.Outcome State Fault Refusal :=
  let die := s.ringDie n
  if s.hostCore ∧ s.nextFetch die = some n.val then
    let s1 := s.progress (pgHOSTF die) 1
    .next ({ s1 with lastFetch := Map.put (fun _ => 32767) s.lastFetch (die * 2 + s.ringTier n) n }.startDescriptor n)
  else .next s

/-! ### Descriptors in flight -/

/-- The flight of a ring at an index that has no status yet and is not backing off. -/
def State.flight (s : State) (n idx : Nat) : Option Flight :=
  if s.hostRuns then
    (s.ring n).flights.find? fun f => decide (f.idx = idx) && f.status.isNone && f.retryAt.isNone
  else none

/-- The flight when the ring's class and the descriptor's operation are the given ones. -/
def State.flightOf (s : State) (n idx cls op : Nat) : Option Flight :=
  match s.flight n idx with
  | none => none
  | some f => if s.ringClass n = cls ∧ opOf f.bytes = op then some f else none

/-- Changes a flight of a ring, or what is kept of one. -/
def State.mapFlight (s : State) (n idx : Nat) (g : Flight → Flight) : State :=
  if n < 32768 then
    let r := s.ring n
    s.setRing n { r with flights := r.flights.map fun f => if f.idx = idx then g f else f }
  else
    { s with ghosts := s.ghosts.map fun (x : Ghost) => if x.ring = n ∧ x.idx = idx then { x with flight := g x.flight } else x }

/-- A fenced unit answers a descriptor REFUSED (R192, R359): the ring keeps it and retries it. -/
def State.refuseFlight (s : State) (n idx : Nat) : State :=
  (s.mapFlight n idx fun f => { f with refused := some (f.refused.getD s.now), retryAt := some s.now, accepted := false }).refuse

/-- A descriptor is kept unstarted for a reason that is no refusal: RC_RETRY does not run (R201, R316). -/
def State.holdFlight (s : State) (n idx : Nat) : State :=
  s.mapFlight n idx fun f => { f with refused := none, retryAt := none }

/-- A unit has accepted the descriptor. -/
def State.acceptFlight (s : State) (n idx : Nat) (u : Option Nat) : State :=
  s.mapFlight n idx fun f => { f with accepted := true, unit := u, refused := none }

/-- RC_RETRY in ns, held to 1 to 60,000 ms. -/
def State.retryTime (s : State) : Nat := max 1 (min 60000 (s.reg Reg.RC_RETRY)) * 1000000

/-- REFUSED_RETRY: a descriptor answered REFUSED goes to its engine again after the backoff, for RC_RETRY. -/
def execRefusedRetry (n : Fin 32768) (idx : BitVec 16) (s : State) : Host.Outcome State Fault Refusal :=
  .next (s.mapFlight n idx.toNat fun f =>
    match f.refused with
    | some t =>
      if f.retryAt.isSome ∧ f.status.isNone ∧ s.now ≤ t + s.retryTime then
        { f with retryAt := none, refusals := f.refusals + 1 }
      else f
    | none => f)

/-- The chiplet a SERVE request names. -/
def srvChiplet (d : List Byte) : Nat := fieldAt d 0x12 1

/-- The request names a chiplet outside the serving partition. -/
def State.namesOutside (s : State) (d : List Byte) : Bool :=
  let c := srvChiplet d
  c != 0xFF && (decide (63 < c) || !s.isServing c)

/-- The request names a chiplet of the serving partition that is fenced. -/
def State.namesFenced (s : State) (d : List Byte) : Bool :=
  let c := srvChiplet d
  decide (c < 64) && s.isServing c && !s.serving (.chiplet (Fin.ofNat 64 c))

/-- RC_RETRY_EXPIRY: a descriptor refused for longer than RC_RETRY completes REFUSED; a request that now waits only for its
chiplet to be free is held (R201). -/
def execRcRetryExpiry (n : Fin 32768) (idx : BitVec 16) (s : State) : Host.Outcome State Fault Refusal :=
  match (s.ring n).flights.find? fun f => decide (f.idx = idx.toNat) && f.status.isNone with
  | none => .next s
  | some f =>
    match f.refused with
    | none => .next s
    | some t =>
      if s.ringClass n = 6 ∧ f.accepted ∧ !s.namesOutside f.bytes ∧ !s.namesFenced f.bytes then .next (s.holdFlight n idx.toNat)
      else if t + s.retryTime ≤ s.now then .next ((s.finish n idx.toNat 1 0).tally Reg.RC_REFUSED)
      else .next s

/-- FUNCTION_UNFREEZE: writing 1 to its bit of RC_FUNC_FROZEN releases a function (R199). -/
def execFunctionUnfreeze (who : Requester) (die : Fin 2) (mask : DWord) (s : State) :
    Host.Outcome State Fault Refusal :=
  .next (s.command who pgRC fun t =>
    t.setReg (frozenReg die) (Nat.land (t.reg (frozenReg die)) (2 ^ 64 - 1 - mask.toNat)))

/-- DESCRIPTOR_NOP: completes DONE at once (R190). -/
def execDescriptorNop (n : Fin 32768) (idx : BitVec 16) (s : State) : Host.Outcome State Fault Refusal :=
  match s.flight n idx.toNat with
  | none => .next s
  | some f => if opOf f.bytes = 0 then .next (s.finish n idx.toNat 0 0) else .next s

/-! ### Completion (R186, R192) -/

/-- The signal of a completed descriptor. -/
def State.completeSignal (s : State) (n : Nat) (d : List Byte) : State :=
  if flagOf d 3 ∧ s.sigAllowed n (ctrOf d) then s.sigArrive (ctrOf d) (.add (sigValueOf d)) else s

/-- The 16 bytes of a completion record. -/
def recordBytes (f : Flight) (st detail : Nat) (phase : Bool) (time : Nat) : List Byte :=
  leBytes 16 (tagOf f.bytes + st * 2 ^ 16 + boolNat phase * 2 ^ 24 + f.idx % 2 ^ 16 * 2 ^ 32
    + detail % 2 ^ 32 * 2 ^ 64 + time % 2 ^ 32 * 2 ^ 96)

/-- The manual says what DETAIL holds: bytes moved, written or put out for COPY, HOST, CIPHER and CODEC unless the end was
a drain timeout, and what the other classes name for DONE. -/
def detailStated (cls op st : Nat) : Bool :=
  (decide (cls = 1 ∨ cls = 2 ∨ cls = 4 ∨ cls = 7) && decide (op ≠ 0) && decide (st ≠ 2))
    || (decide (st = 0) && decide ((cls = 3 ∧ op ≠ 0) ∨ (cls = 0 ∧ op = 2) ∨ (cls = 5 ∧ op = 3)))

/-- Writes a completion record where RING_COMP places it; a DETAIL the manual does not give is undefined. -/
def State.writeRecord (s : State) (n : Nat) (f : Flight) (st detail : Nat) : State :=
  let r := s.reg (Reg.RING_COMP n)
  let a := r / 64 * 64 + 16 * f.idx
  let known := detailStated (s.ringClass n) (opOf f.bytes) st
  let bs := recordBytes f st (if known then detail else s.freeValue.toNat) (s.ring n).phase s.now
  let s1 := if known then s else s.nextFree
  if bitOf r 0 then s1.hostStore (s1.ringDie n) a bs else s1.guardedStore a bs

/-- The interrupt of a completed descriptor. -/
def State.completeIrq (s : State) (n : Nat) : State :=
  let v := s.fld (Reg.RING_AUX n) 26 16
  match s.ringOwner n with
  | some (d, i) => s.msix d (some i) v
  | none => s.irqDropped

/-- The oldest descriptor leaves the ring: HEAD advances and the phase inverts on each wrap. One that was in flight when HEAD
was rewritten leaves HEAD alone. -/
def State.advanceHead (s : State) (n st : Nat) : State :=
  let r := s.ring n
  let h := s.ringSucc n (s.ringHead n)
  if 0 < r.stale then
    (s.setFld (Reg.RING_CTRL n) 23 16 st).setRing n { r with flights := r.flights.drop 1, stale := r.stale - 1 }
  else
    ((s.setFld (Reg.RING_PTR n) 15 0 h).setFld (Reg.RING_CTRL n) 23 16 st).setRing n
      { r with flights := r.flights.drop 1, phase := if h = 0 then !r.phase else r.phase }

/-- The oldest descriptor in flight, once it has its status, signals, writes its record and interrupts, in that
order, and HEAD advances. A VIOLATION writes its record whatever COMPLETE says (R197); after a function-level
reset records and interrupts are discarded (R356). The host die's PROGRESS advances (R368). -/
def State.completeOldest (s : State) (n : Nat) : State :=
  match (s.ring n).flights with
  | [] => s
  | f :: _ =>
    match f.status with
    | none => s
    | some (st, detail) =>
      let quiet := (s.ring n).discard
      let s1 := (s.completeSignal n f.bytes).progress (pgHOSTF (s.ringDie n)) 1
      let s2 := if (flagOf f.bytes 0 ∨ st = 4) ∧ !quiet then s1.writeRecord n f st detail else s1
      let s3 := if flagOf f.bytes 1 ∧ !quiet then s2.completeIrq n else s2
      (s3.advanceHead n st).settleRing n

/-- DESCRIPTOR_COMPLETE. -/
def execDescriptorComplete (n : Fin 32768) (s : State) : Host.Outcome State Fault Refusal :=
  if s.hostCore then .next (s.completeOldest n) else .next s

end Sys2Proof.Machine
end

