-- ==== Sys2Proof/Machine/Mesh.lean ====
section
/-! DEFINITION. Ebsia's mesh: the base dies that packets pass on their way, and which of them carry any (R34, R38, R42, R46,
R48). -/

namespace Sys2Proof.Machine

/-- A ward takes requests: powered, not fenced, its clock not off. -/
def State.wardServes (s : State) (w : Nat) : Bool := s.wardPowered w && !s.wardFence.contains w && !s.clockOff w

/-- The base dies a packet between two of them passes, first along the row, then along the column (R42). -/
def meshPath (a b : Nat) : List Nat :=
  if a = b then [a] else if a / 2 = b / 2 ∨ a % 2 = b % 2 then [a, b] else [a, a / 2 * 2 + b % 2, b]

/-- The mesh carries requests from one base die to another and responses back (R42, R46). -/
def State.meshServes (s : State) (a b : Nat) : Bool := (meshPath a b ++ meshPath b a).all fun d => s.wardServes (1 + d)

/-- The base die that a requester's packets start from (R34, R38, R48); none for the side path and for the torus side, whose
packets come from the link dies. -/
def State.homeDie (s : State) : Requester → Option Nat
  | .func f => some (2 + f.die.val)
  | .side => none
  | .ring n => some (2 + s.ringDie n)
  | .chiplet c => some (c.val / 16)
  | .upd k => some (k.val / 12)
  | .codec k => some (k.val / 8)
  | .coll => none

/-- A requester's packets reach a base die and the answers come back. -/
def State.dieServes (s : State) (who : Requester) (die : Nat) : Bool :=
  match s.homeDie who with
  | some h => s.meshServes h die
  | none => s.wardServes (1 + die)

end Sys2Proof.Machine
end

