-- ==== Sys2Proof/Machine/Calib.lean ====
section
/-! DEFINITION. Calibration offsets (R393 to R395). -/

namespace Sys2Proof.Machine

/-- The key of a trim. -/
def calKey (cat i : Nat) : Nat := cat * 512 + i

/-- The OFFSET of a trim has not taken effect yet. -/
def State.calWaits (s : State) (cat i : Nat) : Bool :=
  decide (Map.get (fun _ => 0) s.calTaken (calKey cat i) ≠ s.fld (Reg.CALU_TRIM cat i) 7 0)

/-- A user offset takes effect: clamped between the factory's limits, and the value in force recomputed. An offset that
clamping changes counts once. -/
def State.takeOffset (s : State) (cat i : Nat) : State :=
  let f := s.reg (Reg.CALF_TRIM cat i)
  let u := Reg.CALU_TRIM cat i
  let off := signed 8 (s.fld u 7 0)
  let top := signed 8 (bitsOf f 15 8)
  let low := signed 8 (bitsOf f 7 0)
  let live : Int := if top < low then 0 else max low (min top off)
  let value : Int := max (-32768) (min 32767 (signed 16 (bitsOf f 31 16) + live))
  let s1 := (s.setFld u 15 8 (unsigned 8 live)).setFld u 31 16 (unsigned 16 value)
  ({ s1 with calTaken := Map.put (fun _ => 0) s1.calTaken (calKey cat i) (s.fld u 7 0) }).tallyIf
    (s.calWaits cat i && decide (live ≠ off)) (Reg.CAL_CLAMPS cat)

/-- The presets of a lane take effect at its training (category 2): torus lanes 0 to 101, far-port lanes 102 to 117, host
lanes 118 to 149. -/
def State.trainLane (s : State) (lane : Nat) : State :=
  [0, 1, 2].foldl (fun (t : State) c => if t.calWaits 2 (3 * lane + c) then t.takeOffset 2 (3 * lane + c) else t) s

/-- Lanes from one on. -/
def State.trainLanes (s : State) (first n : Nat) : State := (List.range n).foldl (fun (t : State) j => t.trainLane (first + j)) s

/-- The rail offsets that wait for a waypoint (category 1). -/
def State.railsWait (s : State) : List Nat := (List.range 15).filter fun i => s.calWaits 1 i

end Sys2Proof.Machine
end

