-- ==== Sys2Proof/Machine/SeqEval.lean ====
section
/-! DEFINITION. What each CTRL, VEC and SIG slot does, read in its issue cycle (R154 to R161, R164, R203). -/

namespace Sys2Proof.Machine

/-! ### The verdict on one slot (R165) -/

/-- The verdict of the monitor on one slot, in the order ILLEGAL, DUAL_WRITE, INCONSISTENT, hazards; the
destinations it names stay in it for R156. -/
def Chiplet.judge (x : Chiplet) (slot : Nat) (illegal dual incons : Bool) (reads dests : List (RClass × Nat))
    (wawExempt : Bool) (arrays : List Nat) (new : List NewRange) (cross : Bool) : SlotFx :=
  if illegal then { slot := slot, cause := 6, dests := dests }
  else if dual then { slot := slot, cause := 8, dests := dests }
  else if incons then { slot := slot, cause := 7, dests := dests }
  else match x.hazard reads dests wawExempt arrays new (x.bundle.flatMap fun f => f.ranges) cross with
    | some (c, e, rc, ri) => { slot := slot, cause := c, early := e, rclass := rc, rindex := ri, dests := dests }
    | none => { slot := slot, dests := dests }

/-- Pending results of registers a latency after issue (R164). -/
def Chiplet.pendFor (x : Chiplet) (ds : List (RClass × Nat)) (lat : Nat) : List PendRes :=
  ds.map fun d => ⟨d.1, d.2, x.cur.clock + lat⟩

/-! ### CTRL (R158) -/

/-- A CTRL slot that writes no register and reads the given ones. -/
def Chiplet.ctrlOnly (x : Chiplet) (illegal : Bool) (reads : List (RClass × Nat)) (k : Ctrl) : SlotFx :=
  let f := x.judge 0 illegal false false reads [] false [] [] false
  if f.cause = 0 then { f with ctrl := k } else f

/-- A CTRL slot that writes registers. -/
def Chiplet.ctrlWrite (x : Chiplet) (illegal : Bool) (reads dests : List (RClass × Nat)) (lat : Nat)
    (ws : List RegWrite) (k : Ctrl) : SlotFx :=
  let f := x.judge 0 illegal false false reads dests false [] [] false
  if f.cause = 0 then { f with regs := ws, pend := x.pendFor dests lat, ctrl := k } else f

/-- END: illegal inside a deferred section (R143). -/
def Chiplet.fxEnd (x : Chiplet) : SlotFx := x.ctrlOnly x.inSection [] .endStream

/-- The lane-mask register of a predicate, when it is not the constant Q0. -/
def qRead (e q : Nat) : List (RClass × Nat) := if q = 0 then [] else [(.q, e * 8 + q)]

/-- JMP. -/
def Chiplet.fxJmp (x : Chiplet) (qp : BitVec 3) (target : BitVec 13) : SlotFx :=
  x.ctrlOnly false (qRead 0 qp.toNat) (if x.pred qp.toNat then .jump target.toNat else .next)

/-- LOOP: when Sn ≠ 0, Sn ← Sn − 1 and jumps. -/
def Chiplet.fxLoop (x : Chiplet) (sn : BitVec 5) (target : BitVec 13) : SlotFx :=
  let v := x.sreg sn.toNat
  let d := [(RClass.s, sn.toNat)]
  if v = 0 then x.ctrlWrite false d d (latency 1 0) [] .next
  else x.ctrlWrite false d d (latency 1 0) [.s sn.toNat (v - 1)] (.jump target.toNat)

/-- DEFER: illegal inside a section and with COUNT 0. -/
def Chiplet.fxDefer (x : Chiplet) (start count : BitVec 13) : SlotFx :=
  x.ctrlOnly (x.inSection || count == 0) [] (.defer start.toNat count.toNat)

/-- MARK. -/
def Chiplet.fxMark (x : Chiplet) (m : BitVec 2) : SlotFx := x.ctrlOnly (m == 3) [] (.mark m.toNat)

/-- A 7-bit scalar source is legal. -/
def scalarOk (code : Nat) : Bool := (scalarReg code).isSome

/-- The register a 7-bit scalar source reads. -/
def scalarReads (code : Nat) : List (RClass × Nat) := (scalarReg code).toList

/-- The 64-bit functions of ALU. -/
def aluFn (fn : Nat) (a b : DWord) : DWord :=
  match fn with
  | 0 => a + b
  | 1 => a - b
  | 2 => a &&& b
  | 3 => a ||| b
  | 4 => a ^^^ b
  | 5 => a <<< (b.toNat % 64)
  | 6 => a >>> (b.toNat % 64)
  | 7 => a * b
  | 8 => if a.toInt ≤ b.toInt then a else b
  | 9 => if a.toInt ≤ b.toInt then b else a
  | _ => b

/-- The second operand of ALU and SETQ: an immediate of w bits or a 7-bit source. -/
def Chiplet.operandB (x : Chiplet) (imm : Bool) (w : Nat) (b : BitVec w) : DWord :=
  if imm then b.signExtend 64 else x.scalar (b.toNat % 128)

/-- ALU. -/
def Chiplet.fxAlu (x : Chiplet) (fn : BitVec 4) (sd : BitVec 5) (a : BitVec 7) (imm : Bool) (b : BitVec 10) : SlotFx :=
  let n := fn.toNat
  let mov := decide (n = 10)
  let illegal := decide (10 < n) || !scalarOk a.toNat || (!imm && !scalarOk (b.toNat % 128))
  let reads := (if mov then [] else scalarReads a.toNat) ++ (if imm then [] else scalarReads (b.toNat % 128))
  x.ctrlWrite illegal reads [(.s, sd.toNat)] (latency 0 0)
    [.s sd.toNat (aluFn n (x.scalar a.toNat) (x.operandB imm 10 b))] .next

/-- The comparisons of SETQ on 64 bits. -/
def ccHolds (cc : Nat) (a b : DWord) : Bool :=
  match cc with
  | 0 => a == b
  | 1 => a != b
  | 2 => decide (a.toInt < b.toInt)
  | 3 => decide (b.toInt ≤ a.toInt)
  | 4 => decide (a.toNat < b.toNat)
  | _ => decide (b.toNat ≤ a.toNat)

/-- SETQ: all lanes of Qd in both engines. -/
def Chiplet.fxSetq (x : Chiplet) (qd cc : BitVec 3) (a : BitVec 7) (imm : Bool) (b : BitVec 13) : SlotFx :=
  let illegal := qd == 0 || decide (5 < cc.toNat) || !scalarOk a.toNat || (!imm && !scalarOk (b.toNat % 128))
  let reads := scalarReads a.toNat ++ (if imm then [] else scalarReads (b.toNat % 128))
  let m : BitVec 512 := if ccHolds cc.toNat (x.scalar a.toNat) (x.operandB imm 13 b) then BitVec.allOnes 512 else 0
  x.ctrlWrite illegal reads [(.q, qd.toNat), (.q, 8 + qd.toNat)] (latency 2 0)
    [.q 0 qd.toNat m, .q 1 qd.toNat m] .next

/-- LDI. -/
def Chiplet.fxLdi (x : Chiplet) (sd : BitVec 5) (imm : BitVec 22) : SlotFx :=
  x.ctrlWrite false [] [(.s, sd.toNat)] (latency 0 0) [.s sd.toNat (imm.signExtend 64)] .next

/-- IDLE: illegal with N 0. -/
def Chiplet.fxIdle (x : Chiplet) (n : BitVec 22) : SlotFx := x.ctrlOnly (n == 0) [] (.idle n.toNat)

/-! ### VEC (R72, R99, R112, R139 to R141, R161) -/

/-- The engines an ENG field names. -/
def enginesOf (eng : BitVec 2) : List Nat :=
  if eng = 1 then [0] else if eng = 2 then [1] else if eng = 3 then [0, 1] else []

/-- The lanes a predicate enables. -/
def Chiplet.lanesOn (x : Chiplet) (e qp : Nat) : List Bool :=
  let m := x.qreg e qp
  (List.range 512).map fun i => m.getLsbD i

/-- New lanes where enabled, old lanes elsewhere. -/
def mergeLanes (en : List Bool) (old new : List Word) : List Word :=
  (en.zip (old.zip new)).map fun p => if p.1 then p.2.2 else p.2.1

/-- The enabled lanes of a register. -/
def onLanes (en : List Bool) (l : List Word) : List Word := ((en.zip l).filter fun p => p.1).map Prod.snd

/-- The second source of a vector operation: a V register or an S register in every lane. -/
def Chiplet.laneB (x : Chiplet) (f : VecFields) (e : Nat) : List Word :=
  if f.sb then List.replicate 512 ((x.sreg f.vb.toNat).setWidth 32) else x.vreg e f.vb.toNat

/-- The registers a vector operation reads in one engine; any operation with SB = 1 reads its S register (R161). -/
def vecReads (f : VecFields) (useB useC : Bool) (e : Nat) : List (RClass × Nat) :=
  qRead e f.qp.toNat ++ [(.v, e * 64 + f.va.toNat)]
    ++ (if f.sb then [(.s, f.vb.toNat)] else if useB then [(.v, e * 64 + f.vb.toNat)] else [])
    ++ (if useC then [(.v, e * 64 + f.vc.toNat)] else [])

/-- SB with a VB that names no S register makes a slot illegal (R161). -/
def badSb (f : VecFields) : Bool := f.sb && decide (32 ≤ f.vb.toNat)

/-- A vector operation with an FP32 result: registers read, latency class, new lanes of an engine, and
values it reports. -/
def State.vecOp (s : State) (x : Chiplet) (f : VecFields) (illegal : Bool) (reads : Nat → List (RClass × Nat))
    (lat : Nat) (lanes : Nat → List Word) (rep : Nat → List Bool → List Word → List Word) : SlotFx :=
  let es := enginesOf f.eng
  let dests := es.map fun e => (RClass.v, e * 64 + f.vd.toNat)
  let j := x.judge 2 (es.isEmpty || illegal) false (s.slotBad f.slot.toNat) (es.flatMap reads) dests false [] [] false
  if j.cause ≠ 0 then j
  else
    { j with
      pend := x.pendFor dests lat
      regs := es.map fun e => .v e f.vd.toNat (mergeLanes (x.lanesOn e f.qp.toNat) (x.vreg e f.vd.toNat) (lanes e))
      census := if f.slot = 0 then [] else es.map fun e =>
        (f.slot.toNat, resultCensus (rep e (x.lanesOn e f.qp.toNat) (lanes e))) }

/-- Operations lane by lane. -/
def State.vecLanes (s : State) (x : Chiplet) (f : VecFields) (useB useC : Bool) (lat : Nat)
    (op : Word → Word → Word → Word) : SlotFx :=
  s.vecOp x f (badSb f) (vecReads f useB useC) lat
    (fun e => ((x.vreg e f.va.toNat).zip ((x.laneB f e).zip (x.vreg e f.vc.toNat))).map fun p => op p.1 p.2.1 p.2.2)
    (fun _ en l => onLanes en l)

/-- The rounding of RM. -/
def vecRnd (f : VecFields) : Rnd := if f.rtz then .rtz else .rne

/-- MAX of two lanes; NaN operands and two zeros are left open by the manual, but a NaN result is the canonical one (R101). -/
def laneMax (a b : Word) : Word :=
  if isNaN32 a ∨ isNaN32 b ∨ (isZero32 a ∧ isZero32 b) then canonNaN (Config.maxSpecial a b) else if flt a b then b else a

/-- MIN of two lanes. -/
def laneMin (a b : Word) : Word :=
  if isNaN32 a ∨ isNaN32 b ∨ (isZero32 a ∧ isZero32 b) then canonNaN (Config.minSpecial a b) else if flt b a then b else a

/-- ADD, SUB, MUL, FMA, MAX and MIN. -/
def State.fxVecAdd (s : State) (x : Chiplet) (f : VecFields) : SlotFx :=
  s.vecLanes x f true false (latency 3 0) fun a b _ => fadd (vecRnd f) a b
def State.fxVecSub (s : State) (x : Chiplet) (f : VecFields) : SlotFx :=
  s.vecLanes x f true false (latency 3 0) fun a b _ => fsub (vecRnd f) a b
def State.fxVecMul (s : State) (x : Chiplet) (f : VecFields) : SlotFx :=
  s.vecLanes x f true false (latency 3 0) fun a b _ => fmul (vecRnd f) a b
def State.fxFma (s : State) (x : Chiplet) (f : VecFields) : SlotFx :=
  s.vecLanes x f true true (latency 3 0) fun a b c => ffma (vecRnd f) a b c
def State.fxVecMax (s : State) (x : Chiplet) (f : VecFields) : SlotFx :=
  s.vecLanes x f true false (latency 3 0) fun a b _ => laneMax a b
def State.fxVecMin (s : State) (x : Chiplet) (f : VecFields) : SlotFx :=
  s.vecLanes x f true false (latency 3 0) fun a b _ => laneMin a b

/-- EXP2, LOG2, RCP and RSQRT: the precision is left open, but a NaN result is the canonical one (R101). -/
def State.fxSpecial (s : State) (x : Chiplet) (f : VecFields) (op : Word → Word) : SlotFx :=
  s.vecLanes x f false false (latency 5 0) fun a _ _ => canonNaN (op a)

/-- SEL: VD ← Q ? VA : VB, by the Q register of bits 29:27. A NaN lane is copied bit for bit (DESIGN CHOICE, assumption 30: a copied NaN
is no NaN result of R101). -/
def State.fxSel (s : State) (x : Chiplet) (f : VecFields) : SlotFx :=
  let q := f.vc.toNat % 8
  s.vecOp x f (badSb f) (fun e => vecReads f true false e ++ qRead e q) (latency 3 0)
    (fun e => ((x.lanesOn e q).zip ((x.vreg e f.va.toNat).zip (x.laneB f e))).map fun p =>
      if p.1 then p.2.1 else p.2.2)
    (fun _ en l => onLanes en l)

/-- A comparison of two FP32 lanes (R101: IEEE 754); LTU and GEU are left open. -/
def laneCc (cc : Nat) (a b : Word) : Bool :=
  let nan := isNaN32 a || isNaN32 b
  let eq := !nan && !flt a b && !flt b a
  match cc with
  | 0 => eq
  | 1 => !eq
  | 2 => !nan && flt a b
  | 3 => !nan && !flt a b
  | _ => Config.cmpSpecial cc a b

/-- CMP: writes a Q register; both engines at once is DUAL_WRITE (R156). -/
def State.fxCmp (s : State) (x : Chiplet) (f : VecFields) : SlotFx :=
  let qd := f.vd.toNat % 8
  let cc := f.vc.toNat % 8
  let es := enginesOf f.eng
  let dests := es.map fun e => (RClass.q, e * 8 + qd)
  let j := x.judge 2 (es.isEmpty || qd == 0 || decide (5 < cc) || badSb f) (decide (f.eng = 3))
    (s.slotBad f.slot.toNat) (es.flatMap (vecReads f true false)) dests false [] [] false
  if j.cause ≠ 0 then j
  else
    { j with
      pend := x.pendFor dests (latency 4 0)
      regs := es.map fun e =>
        let r := (x.vreg e f.va.toNat).zip (x.laneB f e)
        let m : Nat := (r.foldr (fun p acc => boolNat (laneCc cc p.1 p.2) + 2 * acc) 0)
        let en := x.qreg e f.qp.toNat
        .q e qd ((BitVec.ofNat 512 m &&& en) ||| (x.qreg e qd &&& ~~~en)) }

/-- The pairwise pattern of R99 with MAX. -/
def maxRound : List Word → List Word
  | a :: b :: r => laneMax a b :: maxRound r
  | l => l

/-- Lane 0 holds a value, every other lane 0. -/
def laneZero (w : Word) : List Word := w :: List.replicate 511 0

/-- RSUM and RMAX: reduction over the enabled lanes to lane 0 (R99, R161). -/
def State.fxReduce (s : State) (x : Chiplet) (f : VecFields) (empty : Word) (red : List Word → Word) : SlotFx :=
  let val (e : Nat) := red ((x.lanesOn e f.qp.toNat).zip (x.vreg e f.va.toNat) |>.map fun p => if p.1 then p.2 else empty)
  s.vecOp x f (badSb f) (vecReads f false false) (latency 7 0) (fun e => laneZero (val e)) (fun e _ _ => [val e])

/-- RSUM, rounding as RM selects (R161). -/
def State.fxRsum (s : State) (x : Chiplet) (f : VecFields) : SlotFx := s.fxReduce x f 0 (pairSumBy (vecRnd f))

/-- RMAX. -/
def State.fxRmax (s : State) (x : Chiplet) (f : VecFields) : SlotFx :=
  s.fxReduce x f 0xFF800000 fun l => (iterate maxRound 9 l).headD 0

/-- BCAST: bits 31:0 of an S register in every lane, a NaN bit for bit (DESIGN CHOICE, assumption 30). -/
def State.fxBcast (s : State) (x : Chiplet) (f : VecFields) : SlotFx :=
  let r := f.va.toNat % 32
  s.vecOp x f false (fun e => qRead e f.qp.toNat ++ [(.s, r)]) (latency 3 0)
    (fun _ => List.replicate 512 ((x.sreg r).setWidth 32)) (fun _ en l => onLanes en l)

/-- An accumulator tile is not accepted yet (R132). -/
def Chiplet.tileOpen (x : Chiplet) (a t : Nat) : Bool := x.accums.any fun p => p.array == a && p.tile == t

/-- ACCRD: rows 16 × HALF on of an accepted tile; issue holds while the tile is not accepted (R131). -/
def Chiplet.fxAccrd (x : Chiplet) (f : AccrdFields) : Option SlotFx :=
  let es := enginesOf f.eng
  let a := f.array.toNat
  let t := f.tile.toNat
  let dests := es.map fun e => (RClass.v, e * 64 + f.vd.toNat)
  let j := x.judge 2 es.isEmpty false (decide (35 < a)) ((es.flatMap fun e => qRead e f.qp.toNat) ++ [(.tile, a * 8 + t)])
    dests false [] [] false
  if j.cause ≠ 0 then some j
  else if x.tileOpen a t then none
  else
    let rows := ((x.accTile a t).drop (512 * boolNat f.half)).take 512
    some { j with
      pend := x.pendFor dests (latency 8 0)
      regs := es.map fun e => .v e f.vd.toNat (mergeLanes (x.lanesOn e f.qp.toNat) (x.vreg e f.vd.toNat) rows) }

/-- VTOS: one lane, zero-extended, to an S register; a disabled lane leaves it, still pending (R161). -/
def Chiplet.fxVtos (x : Chiplet) (f : VtosFields) : SlotFx :=
  let es := enginesOf f.eng
  let sd := f.sd.toNat
  let j := x.judge 2 es.isEmpty (decide (f.eng = 3)) false
    (es.flatMap fun e => qRead e f.qp.toNat ++ [(.v, e * 64 + f.va.toNat)]) [(.s, sd)] false [] [] false
  if j.cause ≠ 0 then j
  else
    { j with
      pend := x.pendFor [(.s, sd)] (latency 9 0)
      regs := es.flatMap fun e =>
        if (x.qreg e f.qp.toNat).getLsbD f.lane.toNat then
          [.s sd (((x.vreg e f.va.toNat)[f.lane.toNat]?.getD 0).setWidth 64)]
        else [] }

/-- The draws of one engine's lanes (R89 to R91). -/
def State.laneDraws (s : State) (c e idx : Nat) : List Nat :=
  (List.range 512).map fun l => srDraw (s.reg Reg.ENG_SEED_LIVE) (s.reg Reg.WPC_WAYPOINT) (c * 1024 + e * 512 + l) idx

/-- CVT (R81 to R84, R140, R161): SR draws are taken even when the slot is skipped (R91). A destination of W2 or W1, which R75 says
no convert writes, makes the slot INCONSISTENT (DESIGN CHOICE: assumption 63). -/
def State.fxCvt (s : State) (x : Chiplet) (c : Nat) (f : CvtFields) : SlotFx :=
  let es := enginesOf f.eng
  let sf := f.srcFmt.toNat
  let sform := f.srcScale.toNat
  let df := f.dstFmt.toNat
  let dform := f.dstScale.toNat
  let sslot := (x.sreg f.ssreg.toNat).toNat % 16384
  let dslot := f.dslot.toNat
  let dests := es.map fun e => (RClass.v, e * 64 + f.vd.toNat)
  let reads := (es.flatMap fun e => qRead e f.qp.toNat ++ [(RClass.v, e * 64 + f.va.toNat)])
    ++ (if sform = 0 then [] else [(.s, f.ssreg.toNat)])
  let bad := !legalPair sf sform || !legalPair df dform || decide (8 ≤ df) || s.slotBad dslot
    || (decide (sform ≠ 0) && s.slotBad sslot)
  let illegal := es.isEmpty || decide (f.rnd = 3)
  let j0 := x.judge 2 illegal false bad reads dests false [] [] false
  let j := { j0 with draws := if illegal ∨ f.rnd ≠ 2 then (false, false) else (es.contains 0, es.contains 1) }
  if j.cause ≠ 0 then j
  else
    let p : ConvSpec :=
      { sf := sf, sform := sform, st := if sform = 0 then .fin false 1 0 else ofF32 (s.slotT sslot),
        df := df, dform := dform, dt := if dform = 0 then .fin false 1 0 else ofF32 (s.slotT dslot),
        rnd := f.rnd.toNat, prop := f.ovf }
    let out (e : Nat) := convertReg p (x.vreg e f.va.toNat) (x.vreg e f.vd.toNat) (x.lanesOn e f.qp.toNat)
      (s.laneDraws c e (if e = 0 then x.drawIdx.1 else x.drawIdx.2))
    { j with
      pend := x.pendFor dests (latency 6 0)
      regs := es.map fun e => .v e f.vd.toNat (out e).1
      census := if dslot = 0 then [] else es.map fun e => (dslot, (out e).2) }

/-! ### SIG (R203, R205) -/

/-- The counter a SIG slot names. -/
def sigCtr (f : SigFields) : Nat := f.counter.toNat

/-- The value of a SIG slot: an immediate, or an S register. -/
def Chiplet.sigValue (x : Chiplet) (f : SigFields) : Nat :=
  if f.vs then (x.sreg (f.value.toNat % 32)).toNat % 2 ^ 32 else f.value.toNat

/-- The verdict on a SIG slot that reads its value. -/
def Chiplet.judgeSig (x : Chiplet) (f : SigFields) : SlotFx :=
  x.judge 4 false false false (if f.vs then [(.s, f.value.toNat % 32)] else []) [] false [] [] false

/-- WAIT, ADD, SET, ARRIVE, EVENT and READ. A SIG slot in hazard still executes (R167), so its effects stand
beside its verdict. -/
def Chiplet.fxWait (x : Chiplet) (f : SigFields) : SlotFx :=
  { x.judgeSig f with wait := some (sigCtr f, BitVec.ofNat 32 (x.sigValue f)) }
def Chiplet.fxSigAdd (x : Chiplet) (c : Nat) (f : SigFields) : SlotFx :=
  { x.judgeSig f with sigs := [⟨sigCtr f, .add (x.sigValue f), some c, []⟩] }
def Chiplet.fxSigSet (x : Chiplet) (c : Nat) (f : SigFields) : SlotFx :=
  { x.judgeSig f with sigs := [⟨sigCtr f, .set (x.sigValue f), some c, []⟩] }
def Chiplet.fxArrive (x : Chiplet) (c : Nat) (f : SigFields) : SlotFx :=
  { x.judgeSig f with
    sigs := [⟨sigCtr f, .add 1, some c, []⟩]
    wait := some (sigCtr f, BitVec.ofNat 32 (x.sigValue f)) }
def Chiplet.fxEvent (x : Chiplet) (f : SigFields) : SlotFx :=
  { x.judgeSig f with events := [(sigCtr f, x.sigValue f % 8192)] }

/-- READ: bits 4:0 of VALUE name Sd. -/
def State.fxSigRead (s : State) (x : Chiplet) (f : SigFields) : SlotFx :=
  let sd := f.value.toNat % 32
  let j := x.judge 4 false false false [] [(.s, sd)] false [] [] false
  { j with
    regs := [.s sd ((s.sig (sigCtr f)).setWidth 64)]
    pend := x.pendFor [(.s, sd)] (latency 19 0) }

end Sys2Proof.Machine
end

