-- ==== Sys2Proof/Machine/Repair.lean ====
section
/-! DEFINITION. Spares and the repair map (R38, R39, R60 to R65, R68, R149, R150, R366). -/

namespace Sys2Proof.Machine

/-! ### Arrays of a chiplet (R152) -/

/-- The physical array that holds a logical array. -/
def State.physArray (s : State) (c a : Nat) : Nat := s.fld (Reg.ENG_ARRAY_MAP c (a / 4)) (8 * (a % 4) + 5) (8 * (a % 4))

/-- Assigns a physical array to a logical one. -/
def State.setPhysArray (s : State) (c a p : Nat) : State :=
  s.setFld (Reg.ENG_ARRAY_MAP c (a / 4)) (8 * (a % 4) + 5) (8 * (a % 4)) p

/-- The lowest-numbered good spare array that holds nothing and stands in for nothing (R62, R147). -/
def State.freeSpare (s : State) (c : Nat) : Option Nat :=
  ([36, 37, 38, 39].find? fun p =>
    s.flag (Reg.ENG_SPARES c) (p - 36) && !s.flag (Reg.ENG_SPARES c) (4 + (p - 36))
      && !(s.chip c).standins.any fun e => e.2 == p)

/-- A spare takes a logical array: the map, USED, and the retired mark of the array it replaces. -/
def State.replaceArray (s : State) (c a spare : Nat) : State :=
  let old := s.physArray c a
  let s1 := (s.setPhysArray c a spare).setFld (Reg.ENG_SPARES c) (4 + (spare - 36)) (4 + (spare - 36)) 1
  let s2 := s1.setReg (Reg.ENG_RETIRED c) (Nat.lor (s1.reg (Reg.ENG_RETIRED c)) (2 ^ old))
  if 36 ≤ old then
    (s2.setFld (Reg.ENG_SPARES c) (old - 36) (old - 36) 0).setFld (Reg.ENG_SPARES c) (4 + (old - 36)) (4 + (old - 36)) 0
  else s2

/-! ### The soft-repair region (R65) -/

/-- A soft-repair entry. -/
def repairEntry (typ unit inst loc spare source : Nat) : List Byte :=
  let body := leBytes 12 (typ % 256 + unit % 256 * 2 ^ 8 + inst % 2 ^ 16 * 2 ^ 16 + loc % 2 ^ 32 * 2 ^ 32
    + spare % 2 ^ 16 * 2 ^ 64 + source % 256 * 2 ^ 80)
  body ++ leBytes 4 (crc32c body).toNat

/-- ENTRIES and SOFT_FULL show the region. -/
def State.showRegion (s : State) : State :=
  (s.setFld Reg.REP_SOFT_CTRL 12 0 s.softRegion.length).setFld Reg.REP_STATUS 8 8
    (boolNat (decide (4096 ≤ s.softRegion.length)))

/-- The resource of a defect; a whole chiplet has no location. -/
def mendAt (typ unit inst loc : Nat) : Mend := ⟨typ, unit, inst, if typ = 1 then 0 else loc⟩

/-- A repair: what it mends, and the spare it is to use where an entry records one. -/
abbrev Repair := Mend × Option Nat

/-- What a soft-repair entry mends and the spare it records; none where its CRC fails. -/
def mendOf (e : List Byte) : Option Repair :=
  if crc32c (e.take 12) = BitVec.ofNat 32 (fieldAt e 12 4) then
    some (mendAt (fieldAt e 0 1) (fieldAt e 1 1) (fieldAt e 2 2) (fieldAt e 4 4), some (fieldAt e 8 2))
  else none

/-- Appends a repair; a full region leaves it unrecorded, which is counted, and it holds for this power cycle alone. -/
def State.appendRepair (s : State) (e : List Byte) : State :=
  if 4096 ≤ s.softRegion.length then
    { s with unrecorded := s.unrecorded ++ (mendOf e).toList }.tally Reg.REP_SOFT_FULL
  else ({ s with softRegion := s.softRegion ++ [e] }).showRegion

/-- Appends a repair with the spare it uses; the number of a spare that the manual does not give is a free value. -/
def State.recordRepair (s : State) (typ unit inst loc : Nat) (spare : Option Nat) (source : Nat) : State :=
  match spare with
  | some p => s.appendRepair (repairEntry typ unit inst loc p source)
  | none => (s.appendRepair (repairEntry typ unit inst loc (s.freeValue.toNat % 2 ^ 16) source)).nextFree

/-! ### Chiplets of a base die (R38, R62, R68) -/

/-- The physical slot that holds a logical chiplet. -/
def State.physChiplet (s : State) (c : Nat) : Nat :=
  let r := s.reg (Reg.REP_CHIPLET (c / 16))
  if bitOf r 22 ∧ bitsOf r 21 18 = c % 16 then 16
  else if bitOf r 27 ∧ bitsOf r 26 23 = c % 16 then 17
  else c % 16

/-- The first good spare chiplet of a base die that holds nothing; physical slot 16 first. -/
def State.freeChiplet (s : State) (die : Nat) : Option Nat :=
  let r := s.reg (Reg.REP_CHIPLET die)
  if bitOf r 16 ∧ !bitOf r 22 then some 16 else if bitOf r 17 ∧ !bitOf r 27 then some 17 else none

/-- SPARES_LEFT_LOW and DEFICIT of a base die (R64, R68). -/
def State.showDie (s : State) (die : Nat) : State :=
  let r := s.reg (Reg.REP_CHIPLET die)
  let good := ((List.range 18).filter fun p => bitOf r p).length
  (s.setFld Reg.REP_STATUS die die (boolNat (decide (good < 16)))).setFld Reg.REP_STATUS (4 + die) (4 + die)
    (boolNat (s.freeChiplet die).isNone)

/-- A faulty array of a running chiplet is retired for good (R149). -/
def State.retireArray (s : State) (c a spare : Nat) : State :=
  let old := s.physArray c a
  ((s.replaceArray c a spare).appendRepair (repairEntry 2 (c / 16) (s.physChiplet c) old spare 2)).tally
    Reg.REP_LIVE_RETIRE

/-! ### The repair map of a power-on or warm reset (R61) -/

/-- The second pass: the entries in order; redundant and damaged ones are counted. -/
def State.passSoft (s : State) : List (List Byte) → List Repair → State × List Repair
  | [], ms => (s, ms)
  | e :: r, ms =>
    match mendOf e with
    | none => State.passSoft (s.tally Reg.REP_SOFT_BADCRC) r ms
    | some m =>
      if (ms.map Prod.fst).contains m.1 then State.passSoft (s.tally Reg.REP_SOFT_REDUNDANT) r ms
      else State.passSoft s r (ms ++ [m])

/-- The arrays the map retires on a physical chiplet, in order, each with the spare recorded for it. -/
def badArraysOf (ms : List Repair) (die slot : Nat) : List (Nat × Option Nat) :=
  (ms.filter fun m => m.1.typ = 2 ∧ m.1.unit = die ∧ m.1.inst = slot).map fun m => (m.1.loc, m.2)

/-- A chiplet with more bad working arrays than good spares is unusable (R63). -/
def chipUsable (ms : List Repair) (die slot : Nat) : Bool :=
  let bad := (badArraysOf ms die slot).map Prod.fst
  let spares := 4 - (bad.filter fun p => 36 ≤ p ∧ p < 40).length
  !(ms.any fun m => m.1.typ == 1 && m.1.unit == die && m.1.inst == slot) && decide ((bad.filter fun p => p < 36).length ≤ spares)

/-- The chiplets of a base die as repairs are applied: GOOD, and the logical slots that physical slots 16 and 17 hold. -/
structure DieMap where
  good : Nat := 0x3FFFF
  s16 : Option Nat := none
  s17 : Option Nat := none
deriving DecidableEq, Repr

/-- A good spare that holds nothing takes a logical slot: the one the repair records, else physical slot 16 first (R61, R62). -/
def DieMap.assign (d : DieMap) (slot : Nat) (want : Option Nat) : DieMap :=
  if bitOf d.good 17 ∧ d.s17 = none ∧ want = some 17 then { d with s17 := some slot }
  else if bitOf d.good 16 ∧ d.s16 = none then { d with s16 := some slot }
  else if bitOf d.good 17 ∧ d.s17 = none then { d with s17 := some slot }
  else d

/-- A physical slot is lost; what it held goes to a spare. -/
def DieMap.lose (d : DieMap) (p : Nat) (want : Option Nat) : DieMap :=
  if !bitOf d.good p then d
  else
    let d1 := { d with good := d.good - 2 ^ p }
    if p < 16 then d1.assign p want
    else if p = 16 then (match d.s16 with
      | some x => { d1 with s16 := none }.assign x want
      | none => d1)
    else match d.s17 with
      | some x => { d1 with s17 := none }.assign x want
      | none => d1

/-- The map of a base die: its repairs in the order they are applied. -/
def dieMap (ms : List Repair) (die : Nat) : DieMap :=
  ms.zipIdx.foldl (fun d e =>
    let m := e.1.1
    if m.unit = die ∧ (m.typ = 1 ∨ m.typ = 2) ∧ !chipUsable (ms.take (e.2 + 1)) die m.inst then
      d.lose m.inst (if m.typ = 1 then e.1.2 else none)
    else d) {}

/-- REP_CHIPLETn as the map gives it. -/
def chipletWord (ms : List Repair) (die : Nat) : Nat :=
  let d := dieMap ms die
  let w16 := match d.s16 with
    | some x => 2 ^ 22 + x * 2 ^ 18
    | none => 0
  let w17 := match d.s17 with
    | some x => 2 ^ 27 + x * 2 ^ 23
    | none => 0
  d.good + w16 + w17

/-- The physical slot that holds a logical chiplet. -/
def DieMap.holder (d : DieMap) (slot : Nat) : Option Nat :=
  if d.s16 = some slot then some 16 else if d.s17 = some slot then some 17 else none

/-- The logical slot that a physical slot holds. -/
def DieMap.held (d : DieMap) (p : Nat) : Option Nat := if p < 16 then some p else if p = 16 then d.s16 else d.s17

/-- The arrays of a chiplet as repairs are applied: which spare holds which logical array, and the bad physical arrays. -/
structure ArrayMap where
  held : List (Nat × Nat) := []
  bad : List Nat := []
deriving DecidableEq, Repr

/-- The logical array that a physical one holds. -/
def ArrayMap.holds (m : ArrayMap) (p : Nat) : Option Nat :=
  if p < 36 then some p else (m.held.find? fun e => e.2 == p).map Prod.fst

/-- A physical array is lost; a good spare that holds nothing takes its logical number: the one the repair records, else the
lowest-numbered (R61, R62). -/
def ArrayMap.lose (m : ArrayMap) (p : Nat) (want : Option Nat) : ArrayMap :=
  let bad := m.bad ++ [p]
  let held := m.held.filter fun e => decide (e.2 ≠ p)
  let good := [36, 37, 38, 39].filter fun q => !bad.contains q && !held.any fun e => e.2 == q
  match m.holds p, (want.filter good.contains).or good.head? with
  | some a, some q => ⟨held ++ [(a, q)], bad⟩
  | _, _ => ⟨held, bad⟩

/-- The arrays of a physical chiplet, its repairs in the order they are applied. -/
def arrayMap (ms : List Repair) (die slot : Nat) : ArrayMap :=
  (badArraysOf ms die slot).foldl (fun m e => m.lose e.1 e.2) {}

/-- Spare rows and columns of a macro (R60). -/
def macroSpares (typ : Nat) : Nat := if typ = 3 then 8 else 4

/-- The spare rows or columns of a macro that repairs have taken: as recorded, else the lowest free (DESIGN CHOICE, assumption 7);
`none` for a repair that found no spare. -/
def macroMap (ms : List Repair) (typ unit inst : Nat) : List (Option Nat) :=
  (ms.filter fun x => x.1.typ = typ ∧ x.1.unit = unit ∧ x.1.inst = inst).foldl (fun used x =>
    let free := (List.range (macroSpares typ)).filter fun q => !used.contains (some q)
    used ++ [(x.2.filter free.contains).or free.head?]) []

/-- The spare that a repair uses after those before it: R62 for a chiplet or an array; the rows and the columns of a macro in
order, as long as it has any (DESIGN CHOICE, assumption 7); none where no spare is left; for another resource what the entry
records, if anything. -/
def spareOf (before : List Repair) (r : Repair) : Option Nat :=
  let m := r.1
  if m.typ = 1 then
    match (dieMap before m.unit).held m.inst with
    | some x => (dieMap (before ++ [r]) m.unit).holder x
    | none => none
  else if m.typ = 2 then
    match (arrayMap before m.unit m.inst).holds m.loc with
    | some a => ((arrayMap (before ++ [r]) m.unit m.inst).held.find? fun e => e.1 == a).map Prod.snd
    | none => none
  else if m.typ = 3 ∨ m.typ = 4 then (macroMap (before ++ [r]) m.typ m.unit m.inst).getLast?.join
  else r.2

/-- Repairs in order, each with the spare it uses. -/
def repairPlan (ms : List Repair) : List Repair := ms.zipIdx.map fun e => (e.1.1, spareOf (ms.take e.2) e.1)

/-- A repair of a resource that the map does not repair yet. -/
def addMend (l : List Repair) (r : Repair) : List Repair := if (l.map Prod.fst).contains r.1 then l else l ++ [r]

/-- The fuse map (R61, first pass). -/
def fuseMap : List Repair :=
  (Config.fuseRepairs.map fun q => (mendAt q.1 q.2.1 q.2.2.1 q.2.2.2, none)).foldl addMend []

/-- Every repair known so far: the fuse map, the region's entries in the order they were written, and those of this power cycle
that found no place in it. -/
def State.knownMends (s : State) : List Repair := (s.softRegion.filterMap mendOf ++ s.unrecorded).foldl addMend fuseMap

/-- A chiplet is marked for replacement (R63, R366): a soft-repair entry of TYPE 1 with SOURCE 2, and its
bit in GOOD is cleared. A spare takes its slot at the next warm reset. -/
def State.markChiplet (s : State) (c : Nat) : State :=
  let p := s.physChiplet c
  let die := c / 16
  ((s.recordRepair 1 die p 0 (spareOf s.knownMends (mendAt 1 die p 0, none)) 2).setFld (Reg.REP_CHIPLET die) p p 0).showDie die

/-- The array map of a logical chiplet as the map gives it. -/
def State.mendArrays (s : State) (ms : List Repair) (c : Nat) : State :=
  let m := arrayMap ms (c / 16) (s.physChiplet c)
  let s0 := (List.range 9).foldl (fun t j => t.setReg (Reg.ENG_ARRAY_MAP c j)
    ((4 * j + 3) * 2 ^ 24 + (4 * j + 2) * 2 ^ 16 + (4 * j + 1) * 2 ^ 8 + 4 * j)) s
  let good := [36, 37, 38, 39].foldl (fun w p => w + boolNat (!m.bad.contains p) * 2 ^ (p - 36)) 0
  let used := [36, 37, 38, 39].foldl (fun w p => w + boolNat (m.held.any fun e => e.2 == p) * 2 ^ (p - 32)) 0
  let s1 := (s0.setReg (Reg.ENG_SPARES c) (good + used)).setReg (Reg.ENG_RETIRED c) (m.bad.foldl (fun w p => Nat.lor w (2 ^ p)) 0)
  m.held.foldl (fun t e => t.setPhysArray c e.1 e.2) s1

/-- The three passes of R61: the fuse map, the soft-repair entries in order with those of this power cycle that found no place,
and the defects that self-test hands in, each recorded and applied at once. -/
def State.buildRepair (s : State) (defects : List Defect) : State :=
  let s0 := if s.softClear then { s with softRegion := [], softClear := false } else s
  let (s1, soft) := s0.passSoft s0.softRegion fuseMap
  let known := s0.unrecorded.foldl addMend soft
  let all := (defects.map fun d => (mendAt d.typ.toNat d.unit.toNat d.inst.toNat d.location.toNat, none)).foldl addMend known
  let plan := repairPlan all
  let s2 := (plan.drop known.length).foldl (fun (t : State) e => t.recordRepair e.1.typ e.1.unit e.1.inst e.1.loc e.2 1) s1
  let s3 := (List.range 4).foldl (fun t d => (t.setReg (Reg.REP_CHIPLET d) (chipletWord all d)).showDie d) { s2 with repairs := plan }
  ((List.range 64).foldl (fun t c => t.mendArrays all c) s3).showRegion

/-- The lane repairs of the HBM channels apply again at a MEMORY ward reset (R60). -/
def State.applyLanes (s : State) : State :=
  { s with repairs := (s.repairs.filter fun e => decide (e.1.typ ≠ 5)) ++
      s.knownMends.filter fun m => decide (m.1.typ = 5) }

/-- REP_SOFT_CLEAR: the erase takes effect at the next warm reset. -/
def execRepSoftClear (who : Requester) (s : State) : Host.Outcome State Fault Refusal :=
  .next (s.command who pgREP fun t => { t with softClear := true })

/-! ### ENG_RETIRE and the stand-ins (R147, R149, R150) -/

/-- ENG_STANDIN has room for one stand-in: it shows the one taken last (DESIGN CHOICE, assumption 65). -/
def State.showStandin (s : State) (c : Nat) : State :=
  match (s.chip c).standins.getLast? with
  | some (a, p) => s.setReg (Reg.ENG_STANDIN c) (2 ^ 31 + p * 2 ^ 8 + a)
  | none => s.setReg (Reg.ENG_STANDIN c) 0

/-- Part (e) on a chiplet: the stand-ins it held at the gather instant become permanent, then the host request made before
it is applied or rejected. -/
def State.partE (s : State) (c : Nat) (standins : List (Nat × Nat)) (retire : Option Nat) : State :=
  let s1 := standins.foldl (fun t e => t.retireArray c e.1 e.2) s
  let x := s1.chip c
  let s2 := (s1.setChip c { x with standins := x.standins.filter fun e => !standins.contains e }).showStandin c
  match retire with
  | none => s2
  | some a =>
    match s2.freeSpare c with
    | some sp =>
      if a ≤ 35 then (s2.retireArray c a sp).setFld (Reg.ENG_RETIRE c) 30 29 2
      else s2.setFld (Reg.ENG_RETIRE c) 30 29 3
    | none => s2.setFld (Reg.ENG_RETIRE c) 30 29 3

end Sys2Proof.Machine
end

