-- ==== Sys2Proof/Machine/Links.lean ====
section
/-! DEFINITION. Torus links: the link layer, training, lanes, cables, relay, probes, geometry and routing
(R247 to R256, R264 to R270, R406, R407). -/

namespace Sys2Proof.Machine

/-! ### State of a link -/

/-- A link die. -/
def State.link (s : State) (l : Nat) : Link := Map.get (fun _ => {}) s.links l
/-- Replaces a link die. -/
def State.setLink (s : State) (l : Nat) (x : Link) : State := { s with links := Map.put (fun _ => {}) s.links l x }

/-- STATE of a link: 0 DOWN, 1 TRAIN, 2 UP, 3 RETRAIN, 4 FAILED, 5 DISABLED. -/
def State.linkState (s : State) (l : Nat) : Nat := s.fld (Reg.TOR_LINK_STATE l) 3 0
/-- Sets STATE. -/
def State.setLinkState (s : State) (l v : Nat) : State := s.setFld (Reg.TOR_LINK_STATE l) 3 0 v
/-- The die forwards straight through. -/
def State.relaying (s : State) (l : Nat) : Bool := s.flag (Reg.TOR_LINK_STATE l) 4

/-- The die runs: its domain has power and its unit takes work. -/
def State.linkWorks (s : State) (l : Nat) : Bool := s.wardPowered 6 && s.unfenced (.link (Fin.ofNat 6 l))

/-- The opposite die of a link's axis. -/
def oppositeLink (l : Nat) : Nat := if l % 2 = 0 then l + 1 else l - 1

/-! ### Geometry (R51, R253, R256) -/

/-- A coordinate of a logical index: axis 0 X, 1 Y, 2 Z. -/
def coordOf (idx axis : Nat) : Nat :=
  if axis = 0 then idx % 16 else if axis = 1 then idx / 16 % 8 else idx / 128 % 8
/-- The index with a coordinate replaced. -/
def withCoord (idx axis v : Nat) : Nat :=
  if axis = 0 then idx / 16 * 16 + v
  else if axis = 1 then idx / 128 * 128 + v * 16 + idx % 16
  else idx / 1024 * 1024 + v * 128 + idx % 128

/-- The pod's extent on an axis. -/
def State.extent (s : State) (axis : Nat) : Nat :=
  if axis = 0 then s.fld Reg.TOR_GEOM 11 8 + 1 else if axis = 1 then s.fld Reg.TOR_GEOM 6 4 + 1 else s.fld Reg.TOR_GEOM 2 0 + 1
/-- The slice's extent and origin on an axis. -/
def State.sliceExtent (s : State) (axis : Nat) : Nat :=
  if axis = 0 then s.fld Reg.TOR_SLICE 27 24 + 1
  else if axis = 1 then s.fld Reg.TOR_SLICE 22 20 + 1 else s.fld Reg.TOR_SLICE 18 16 + 1
def State.sliceOrigin (s : State) (axis : Nat) : Nat :=
  if axis = 0 then s.fld Reg.TOR_SLICE 11 8 else if axis = 1 then s.fld Reg.TOR_SLICE 6 4 else s.fld Reg.TOR_SLICE 2 0
/-- The slice spans the axis in full (R256). -/
def State.spansAxis (s : State) (axis : Nat) : Bool :=
  s.flag Reg.TOR_SLICE 31 && decide (s.sliceExtent axis = s.extent axis)
/-- The index of this module. -/
def State.ownIndex (s : State) : Nat := s.devnum % 1024
/-- An index lies in the pod. -/
def State.inPod (s : State) (idx : Nat) : Bool := [0, 1, 2].all fun a => decide (coordOf idx a < s.extent a)
/-- A device number lies in this module's pod and slice. -/
def State.inSlice (s : State) (dev : Nat) : Bool :=
  decide (dev / 1024 = s.devnum / 1024) && s.flag Reg.TOR_SLICE 31 && [0, 1, 2].all fun a =>
    decide (s.sliceOrigin a ≤ coordOf (dev % 1024) a) && decide (coordOf (dev % 1024) a < s.sliceOrigin a + s.sliceExtent a)

/-! ### Sending packets (R249, R254, R264) -/

/-- The virtual channel of a packet on an axis: channel of R43 and dateline set. -/
def chanCode : Chan → Nat
  | .request => 0
  | .response => 1
  | .serveRequest => 2
  | .serveResponse => 3
def packetVc (p : TorusPacket) (axis : Nat) : Nat := chanCode p.chan * 2 + boolNat (p.vcset.getLsbD axis)

/-- Credits a link holds on a virtual channel. -/
def Link.credit (x : Link) (vc : Nat) : Nat := Map.get (fun _ => 0) x.credits vc
/-- Changes the credits of a virtual channel. -/
def Link.setCredit (x : Link) (vc n : Nat) : Link := { x with credits := Map.put (fun _ => 0) x.credits vc n }

/-- Changes the credits that a link owes its peer. -/
def Link.owe (x : Link) (vc n : Nat) : Link := { x with owed := Map.put (fun _ => 0) x.owed vc n }

/-- The buffers of n packets that came by a link are free again: a credit of their channel is owed for each (R249). -/
def State.freeBuffer (s : State) (n : Nat) : Option (Nat × Nat) → State
  | none => s
  | some (l, vc) => s.setLink l ((s.link l).owe vc (Map.get (fun _ => 0) (s.link l).owed vc + n))

/-- The CRC word of a flit (R248). -/
def flitCrc (typ seq ack : Nat) (payload : List Byte) : Word :=
  crc32c (leBytes 4 (seq + ack * 2 ^ 12 + typ * 2 ^ 24) ++ payload)

/-- A flit as it goes out. -/
def State.emitFlit (s : State) (l typ seq : Nat) (payload : List Byte) : State :=
  let ack := ((s.link l).rxExp + 4095) % 4096
  s.emit (.flit l (BitVec.ofNat 2 typ) seq ack payload (flitCrc typ seq ack payload))

/-- A DATA flit leaves: it is numbered and kept for replay (R249). -/
def State.sendData (s : State) (l : Nat) (payload : List Byte) : State :=
  let x := s.link l
  (s.setLink l { x with txSeq := (x.txSeq + 1) % 4096, replay := x.replay ++ [(x.txSeq, payload)],
                        ackSince := if x.replay.isEmpty then s.now else x.ackSince }).emitFlit l 1 x.txSeq payload

/-- As many payloads of runs leave as there is room for; a message whose last payload leaves has gone. -/
def State.pumpRuns (l : Nat) : Nat → List OutRun → State → State
  | _, [], s => s.setLink l { s.link l with outq := [] }
  | room, r :: rs, s =>
    let n := min room r.flits.length
    let s1 := (r.flits.take n).foldl (fun t bs => t.sendData l bs) s
    if n = r.flits.length then
      State.pumpRuns l (room - n) rs (match r.whole with
        | some p => s1.emit (.packet l p)
        | none => s1)
    else s1.setLink l { s1.link l with outq := { r with begun := r.begun || decide (0 < n), flits := r.flits.drop n } :: rs }

/-- The DATA payloads that wait leave in order while the link is UP and its replay buffer has room. -/
def State.pump (s : State) (l : Nat) : State :=
  State.pumpRuns l (if s.linkState l = 2 then 1024 - (s.link l).replay.length else 0) (s.link l).outq s

/-- The 8-byte prefix of a torus packet (R248). -/
def prefixWord (p : TorusPacket) : Nat :=
  p.dest.toNat + p.src.toNat * 2 ^ 16 + chanCode p.chan * 2 ^ 32 + p.dir.toNat * 2 ^ 34 + p.vcset.toNat * 2 ^ 37
    + boolNat p.void * 2 ^ 40 + boolNat p.coll * 2 ^ 41

/-- Payload bytes of a message. -/
def msgLen : TorusMsg → Nat
  | .read _ _ | .fetchReq _ _ _ _ _ | .barrier _ => 0
  | .write _ d | .response _ d | .fetchData _ d | .bcastData _ _ _ d | .permuteData _ _ _ d => d.length
  | .tile _ _ _ _ _ d => 4 * d.length
  | .flags _ _ _ _ => 8

/-- The packets of a message, each with up to 256 bytes of payload (R41). -/
def packetCount (p : TorusPacket) : Nat := max 1 ((msgLen p.msg + 255) / 256)

/-- Packets of a message in the byte stream, m from the i-th on: each a prefix, the 16-byte header of R41 and its payload. -/
def packetStream (p : TorusPacket) (i m : Nat) : List Byte :=
  (List.range m).flatMap fun j =>
    leBytes 8 (prefixWord p) ++ (List.range (16 + min 256 (msgLen p.msg - 256 * (i + j)))).map (Config.packetByte p (i + j))

/-- A byte stream cut into the payloads of DATA flits. -/
def flitsOf (bs : List Byte) : List (List Byte) :=
  (List.range ((bs.length + 311) / 312)).map fun i =>
    let c := (bs.drop (312 * i)).take 312
    c ++ (List.range (312 - c.length)).map Config.flitFill

/-- Packets of the first message of a channel that have gone. -/
def Link.gone (x : Link) (vc : Nat) : Nat := Map.get (fun _ => 0) x.sent vc

/-- As many packets of a waiting message go out as its channel has credits for; what is left waits on. -/
def State.drainOne (l : Nat) (s : State) (q : TorusPacket × Option (Nat × Nat)) : State :=
  let x := s.link l
  let vc := packetVc q.1 (l / 2)
  let left := packetCount q.1 - x.gone vc
  let m := min left (x.credit vc)
  if s.linkState l = 2 ∧ 0 < m ∧ !(x.txq.any fun r => packetVc r.1 (l / 2) == vc) then
    let run : OutRun := { own := decide (q.1.src.toNat = s.devnum), vc := vc, packets := m, begun := false
                          whole := if m = left then some q.1 else none, flits := flitsOf (packetStream q.1 (x.gone vc) m) }
    (s.setLink l { x.setCredit vc (x.credit vc - m) with
      outq := x.outq ++ [run]
      sent := Map.put (fun _ => 0) x.sent vc (if m = left then 0 else x.gone vc + m)
      txq := if m = left then x.txq else x.txq ++ [q] }).freeBuffer m q.2
  else s.setLink l { x with txq := x.txq ++ [q] }

/-- Packets waiting on a link go out in order, each against a credit of its channel and in numbered DATA flits; a channel
without credits holds its packets back. -/
def State.drainLink (s : State) (l : Nat) : State :=
  ((s.link l).txq.foldl (State.drainOne l) (s.setLink l { s.link l with txq := [] })).pump l

/-- A packet leaves by a link, and the buffer it came in is free once it has. -/
def State.sendOn (s : State) (l : Nat) (p : TorusPacket) (buf : Option (Nat × Nat)) : State :=
  (s.setLink l { s.link l with txq := (s.link l).txq ++ [(p, buf)] }).drainLink l

/-- A packet leaves by the link of an axis that it starts on or turns to, across Ebsia; a relaying pair forwards straight through its
bridge alone and discards what its own module queues (R252, R264). -/
def State.turnOn (s : State) (l : Nat) (p : TorusPacket) (buf : Option (Nat × Nat)) : State :=
  if s.relaying l then (s.count (Reg.TOR_RELAY_DISCARD l) (packetCount p)).freeBuffer (packetCount p) buf else s.sendOn l p buf

/-- The base die that a link die is attached to (R34). -/
def linkBase (l : Nat) : Nat := if l < 4 then l % 2 else l - 2

/-- The direction a packet takes on an axis at its source (R254): true is minus. -/
def State.direction (s : State) (axis src dst : Nat) : Bool :=
  let n := s.extent axis
  if s.spansAxis axis then decide (n < 2 * ((dst + n - src) % n)) else decide (dst < src)

/-- A packet as its source makes it. -/
def State.newPacket (s : State) (coll void : Bool) (ch : Chan) (dest : Nat) (m : TorusMsg) : TorusPacket :=
  let own := s.ownIndex
  let d (a : Nat) : Nat := boolNat (s.direction a (coordOf own a) (coordOf (dest % 1024) a)) * 2 ^ a
  { coll := coll, void := void, vcset := 0, dir := BitVec.ofNat 3 (d 0 + d 1 + d 2), chan := ch
    src := BitVec.ofNat 16 s.devnum, dest := BitVec.ofNat 16 dest, msg := m, slice := BitVec.ofNat 32 (s.reg Reg.TOR_SLICE) }

/-- The first axis on which a packet has still to travel from an index. -/
def nextAxis (idx dest : Nat) : Option Nat := [0, 1, 2].find? fun a => decide (coordOf idx a ≠ coordOf dest a)

/-- Sends a packet on by dimension order: across a wrap link it changes to set 1, and the set of an axis it
has finished returns to 0. -/
def State.route (s : State) (p : TorusPacket) (buf : Option (Nat × Nat)) : State :=
  let own := s.ownIndex
  match nextAxis own (p.dest.toNat % 1024) with
  | none => s.freeBuffer (packetCount p) buf
  | some a =>
    let minus := p.dir.getLsbD a
    let c := coordOf own a
    let wraps := if minus then decide (c = 0) else decide (c + 1 = s.extent a)
    let keep := if p.vcset.getLsbD a ∨ wraps then 2 ^ a else 0
    s.turnOn (2 * a + boolNat minus) { p with vcset := BitVec.ofNat 3 keep } buf

/-- A packet that has come by a link of an axis has passed its destination in its own direction (R255); at its source's coordinate it
has gone all the way round. -/
def State.beyond (s : State) (p : TorusPacket) (a : Nat) : Bool :=
  let n := s.extent a
  let f := coordOf (p.src.toNat % 1024) a
  let c := coordOf s.ownIndex a
  let d := coordOf (p.dest.toNat % 1024) a
  let run (x y : Nat) : Nat := if p.dir.getLsbD a then (x + n - y) % n else (y + n - x) % n
  decide (run f d < if run f c = 0 then n else run f c)

/-! ### The link layer (R249, R250) -/

/-- The CRC of a flit holds; 320 bytes are a flit, and others are none. -/
def flitSound (f : Flit) : Bool :=
  f.payload.length == 312 && flitCrc f.typ.toNat f.seq.toNat f.ack.toNat f.payload == f.crc

/-- An ACK: every flit up to it leaves the replay buffer. -/
def State.takeAck (s : State) (l ack : Nat) : State :=
  let x := s.link l
  match x.replay.findIdx? fun q => q.1 == ack with
  | none => s
  | some i => s.setLink l { x with replay := x.replay.drop (i + 1), replays := 0, ackSince := s.now }

/-- REPLAY_LIMIT and RETRAIN_LIMIT. -/
def State.replayLimit (s : State) (l : Nat) : Nat := max 1 (s.fld (Reg.TOR_LINK_CTRL l) 7 0)
def State.retrainLimit (s : State) (l : Nat) : Nat := max 1 (s.fld (Reg.TOR_LINK_CTRL l) 11 8)

/-- A retrain starts. -/
def State.startRetrain (s : State) (l : Nat) : State :=
  ((s.setLinkState l 3).tally (Reg.TOR_RETRAINS l)).setLink l { s.link l with replays := 0 }

/-- Flits resent from a SEQ on. -/
def State.resend (s : State) (l seq : Nat) : State :=
  let x := s.link l
  match x.replay.findIdx? fun q => q.1 == seq with
  | none => s
  | some i => (x.replay.drop i).foldl (fun t q => t.emitFlit l 1 q.1 q.2) (s.tally (Reg.TOR_REPLAYS l))

/-- A replay starts at a SEQ; REPLAY_LIMIT of them in a row at one SEQ retrain the link. -/
def State.startReplay (s : State) (l seq : Nat) : State :=
  let x := s.link l
  if x.replay.any fun q => q.1 == seq then
    let n := if x.replayAt = seq then x.replays + 1 else 1
    let s1 := (s.setLink l { x with replays := n, replayAt := seq, ackSince := s.now }).resend l seq
    if s.replayLimit l ≤ n then s1.startRetrain l else s1
  else s

/-- The identity record of this module. -/
def State.ownIdent (s : State) : IdRecord := ⟨BitVec.ofNat 16 s.devnum, false⟩

/-- The credits a link returns in a CONTROL flit, by virtual channel. -/
def Link.returns (x : Link) : List Nat := (List.range 8).map fun vc => Map.get (fun _ => 0) x.owed vc

/-- FLIT_SEND: DATA flits are numbered and kept for replay, and none is sent while the buffer is full; a CONTROL flit returns
the credits owed, with the identity record. No flit has a payload that is not of 312 bytes. The manual gives no SEQ to IDLE
and CONTROL flits. -/
def execFlitSend (l : Fin 6) (typ : BitVec 2) (payload : List Byte) (s : State) : Host.Outcome State Fault Refusal :=
  let x := s.link l
  if payload.length ≠ 312 ∨ s.linkState l ≠ 2 ∨ !s.linkWorks l then .next s
  else if typ = 1 then (if 1024 ≤ x.replay.length then .next s else .next (s.sendData l payload))
  else if typ = 2 then .next (s.emitFlit l 2 x.rxExp payload)
  else if typ = 3 then
    .next (((s.setLink l { x with owed := [] }).emitFlit l 3 (s.freeValue.toNat % 4096)
      ((List.range 312).map (Config.controlByte x.returns s.ownIdent))).nextFree)
  else .next ((s.emitFlit l typ.toNat (s.freeValue.toNat % 4096) payload).nextFree)

/-- FEC counters of a received flit. -/
def State.noteFec (s : State) (l : Nat) : Fec → State
  | .clean => s
  | .corrected k => s.count (Reg.TOR_FEC_CORRECTED l) k
  | .uncorrectable k => s.count (Reg.TOR_FEC_UNCORR l) k

/-- The FEC passed the flit. -/
def fecGood : Fec → Bool
  | .uncorrectable _ => false
  | _ => true

/-- A flit of a type has come: its type fits, and the link is UP and works. -/
def State.flitComes (s : State) (l : Nat) (f : Flit) (typ : BitVec 2) : Bool :=
  decide (f.typ = typ) && decide (s.linkState l = 2) && s.linkWorks l

/-- DATA_FLIT: accepted, or discarded with a NAK on the first discard of an episode. On a relaying die it is counted as
forwarded: its packets go on by the opposite die (assumption 35). -/
def execDataFlit (l : Fin 6) (f : Flit) (fec : Fec) (s : State) : Host.Outcome State Fault Refusal :=
  if !s.flitComes l f 1 then .next s
  else
    let sound := flitSound f
    let s1 := (s.noteFec l fec).tallyIf (!sound) (Reg.TOR_CRC_ERR l)
    let good := sound && fecGood fec
    let s2 := if good then (s1.takeAck l f.ack.toNat).pump l else s1
    let x := s2.link l
    if good ∧ f.seq.toNat = x.rxExp then
      .next ((s2.setLink l { x with rxExp := (x.rxExp + 1) % 4096, nak := false }).tallyIf (s.relaying l) (Reg.TOR_RELAY_FLITS l))
    else if x.nak then .next s2
    else .next ((s2.setLink l { x with nak := true }).emitFlit l 2 x.rxExp (List.replicate 312 0))

/-- A NAK, CONTROL or IDLE flit has come: its FEC codewords are counted, and one that is not good has no other effect. -/
def State.takeFlit (s : State) (l : Nat) (f : Flit) (fec : Fec) (act : State → State) : State :=
  let s1 := s.noteFec l fec
  if flitSound f && fecGood fec then act (s1.takeAck l f.ack.toNat) else s1

/-- NAK_FLIT: the sender resends from the SEQ named. -/
def execNakFlit (l : Fin 6) (f : RxFlit) (s : State) : Host.Outcome State Fault Refusal :=
  if !s.flitComes l f.flit 2 then .next s
  else .next (s.takeFlit l f.flit f.fec fun t => (t.startReplay l f.flit.seq.toNat).pump l)

/-- An identity record reaches a link: noted, and forwarded by a relaying die (R264, R267). -/
def State.takeIdent (s : State) (l : Nat) (r : IdRecord) : State :=
  let s1 := (s.setFld (Reg.TOR_LINK_STATE l) 31 16 r.devnum.toNat).setFld (Reg.TOR_LINK_STATE l) 13 13 (boolNat r.relayed)
  let s2 := { s1 with probeSeen := if s1.probeSeen.contains l then s1.probeSeen else s1.probeSeen ++ [l] }
  if s.relaying l then s2.emit (.ident (oppositeLink l) { r with relayed := true }) else s2

/-- The identity record a CONTROL flit carries. -/
def flitIdent (f : Flit) : IdRecord := ⟨(Config.controlIdent f.payload).1, (Config.controlIdent f.payload).2⟩

/-- CONTROL_FLIT: credits and the identity record. -/
def execControlFlit (l : Fin 6) (f : Flit) (corrected lost : Nat) (s : State) : Host.Outcome State Fault Refusal :=
  if !s.flitComes l f 3 then .next s
  else .next (s.takeFlit l f (fecOf corrected lost) fun t =>
    let x := (List.range 8).foldl (fun (y : Link) vc => y.setCredit vc (y.credit vc + Config.controlCredit f.payload vc)) (t.link l)
    ((t.setLink l x).drainLink l).takeIdent l (flitIdent f))

/-- IDLE_FLIT: acknowledgements only. -/
def execIdleFlit (l : Fin 6) (f : RxFlit) (s : State) : Host.Outcome State Fault Refusal :=
  if !s.flitComes l f.flit 0 then .next s else .next (s.takeFlit l f.flit f.fec fun t => t.pump l)

/-- ACK_TIMEOUT: no ACK has advanced for 100 µs. -/
def execAckTimeout (l : Fin 6) (s : State) : Host.Outcome State Fault Refusal :=
  let x := s.link l
  match x.replay with
  | [] => .next s
  | q :: _ =>
    if s.linkState l = 2 ∧ s.linkWorks l ∧ x.ackSince + 100000 ≤ s.now then .next (s.startReplay l q.1) else .next s

/-! ### Training and lanes (R250, R251, R407) -/

/-- PEER_SIGNAL_DETECT: DOWN → TRAIN, unless a tripped CBL_PWR holds the link DOWN. -/
def execPeerSignalDetect (l : Fin 6) (s : State) : Host.Outcome State Fault Refusal :=
  if s.linkState l = 0 ∧ s.linkWorks l ∧ !(s.link l).tripped then .next (s.setLinkState l 1) else .next s

/-- RX_MARGINAL. -/
def State.rxMarginal (s : State) (l : Nat) : Nat := s.fld (Reg.TOR_LINK_LANES l) 16 0

/-- Lanes a receiver may map: those that passed and are not marked marginal. -/
def State.soundLanes (s : State) (l : Nat) (t : Training) : List Nat :=
  (List.range 17).filter fun i => t.lanesGood.getLsbD i && !bitOf (s.rxMarginal l) i

/-- The receive lane the spare replaces, when the spare is among the 16 lowest-numbered sound lanes. -/
def spareFor (lanes : List Nat) : Option Nat :=
  if (lanes.take 16).contains 16 then (List.range 16).find? fun i => !lanes.contains i else none

/-- The receiver's mapping, of which the transmitter is told; each spare assignment is recorded as a soft repair and counted
(R251). -/
def State.mapLanes (s : State) (l : Nat) (t : Training) : State :=
  let r := Reg.TOR_LINK_LANES l
  let s := s.emit (.lanes l ((s.soundLanes l t).take 16))
  let s1 := match t.txSpared with
    | some i => (s.setFld r 31 31 1).setFld r 29 26 i
    | none => (s.setFld r 31 31 0).setFld r 29 26 0
  match spareFor (s.soundLanes l t) with
  | none => (s1.setFld r 25 25 0).setFld r 24 21 0
  | some i =>
    (((s1.setFld r 25 25 1).setFld r 24 21 i).appendRepair (repairEntry 6 l 0 i 16 2)).tally (Reg.TOR_LANE_SPARED l)

/-- CABLE of the cable's management memory: byte 1 is 1 passive, 2 active. -/
def cableCode (m : Option (Byte × Byte)) : Nat :=
  match m with
  | some (t, _) => if t = 1 then 1 else if t = 2 then 2 else 0
  | none => 0

/-- The training succeeds: lock, link-layer initialisation, and 16 lanes to map. -/
def State.trains (s : State) (l : Nat) (t : Training) : Bool := t.locked && decide (16 ≤ (s.soundLanes l t).length)

/-- TRAIN_COMPLETE: UP with a link layer at its start, which owes the peer the credits of all its buffers, or FAILED. -/
def execTrainComplete (l : Fin 6) (t : Training) (s : State) : Host.Outcome State Fault Refusal :=
  if s.linkState l ≠ 1 ∨ !s.linkWorks l then .next s
  else
    let s1 := (s.setFld (Reg.TOR_LINK_STATE l) 15 14 (cableCode t.cableMem)).trainLanes (17 * l) 17
    if s.trains l t then
      let x := s1.link l
      .next ((((s1.mapLanes l t).setLinkState l 2).setLink l { x with
        txSeq := 0, rxExp := 0, replay := [], nak := false, replays := 0, fails := 0, ackSince := s.now, credits := [],
        owed := (List.range 8).map fun vc => (vc, Config.vcBuffer l vc) }).pump l)
    else .next (s1.setLinkState l 4)

/-- RETRAIN_COMPLETE: a training like TRAIN, the cable read anew; UP with a replay of what is unacknowledged, or one more failure; RETRAIN_LIMIT in a row
fail the link, which is a data-path fault. -/
def execRetrainComplete (l : Fin 6) (t : Training) (s : State) : Host.Outcome State Fault Refusal :=
  if s.linkState l ≠ 3 ∨ !s.linkWorks l then .next s
  else
    let s := (s.setFld (Reg.TOR_LINK_STATE l) 15 14 (cableCode t.cableMem)).trainLanes (17 * l) 17
    let x := s.link l
    if s.trains l t then
      let s1 := ((s.mapLanes l t).setLinkState l 2).setLink l { x with fails := 0, nak := false, ackSince := s.now }
      match x.replay with
      | [] => .next (s1.drainLink l)
      | q :: _ => .next ((s1.resend l q.1).drainLink l)
    else if s.retrainLimit l ≤ x.fails + 1 then
      .next (((s.setLinkState l 4).setLink l { x with fails := 0, replay := [] }).jobFault 6 (some (.link l)))
    else .next ((s.setLink l { x with fails := x.fails + 1 }).startRetrain l)

/-- RETRAIN: a retrain of an UP link, or TRAIN for a FAILED one. -/
def execRetrain (who : Requester) (l : Fin 6) (s : State) : Host.Outcome State Fault Refusal :=
  .next (s.command who (pgLINK l) fun t =>
    if t.linkState l = 2 then t.startRetrain l else if t.linkState l = 4 then t.setLinkState l 1 else t)

/-- LINK_DISABLE. -/
def execLinkDisable (who : Requester) (l : Fin 6) (s : State) : Host.Outcome State Fault Refusal :=
  .next (s.command who (pgLINK l) fun t => (t.setFld (Reg.TOR_LINK_CTRL l) 30 30 1).setLinkState l 5)

/-- LINK_ENABLE: DISABLED → DOWN. -/
def execLinkEnable (who : Requester) (l : Fin 6) (s : State) : Host.Outcome State Fault Refusal :=
  .next (s.command who (pgLINK l) fun t =>
    let t1 := t.setFld (Reg.TOR_LINK_CTRL l) 30 30 0
    if t.linkState l = 5 then t1.setLinkState l 0 else t1)

/-- LANE_LOCK_LOSS: an immediate retrain. -/
def execLaneLockLoss (l : Fin 6) (lane : Fin 17) (s : State) : Host.Outcome State Fault Refusal :=
  if s.linkState l = 2 ∧ s.linkWorks l ∧ lane.val < 17 then .next (s.startRetrain l) else .next s

/-- LANE_MARGIN_CHECK: lanes over TOR_LANE_THRESH in a second are marked. A link has 17 receive lanes (R247). -/
def execLaneMarginCheck (l : Fin 6) (symbols : List Nat) (s : State) : Host.Outcome State Fault Refusal :=
  if s.linkState l ≠ 2 ∨ !s.linkWorks l then .next s
  else
    let top := s.reg (Reg.TOR_LANE_THRESH l)
    let bad := (symbols.take 17).zipIdx.foldl (fun w q => if top < q.1 then Nat.lor w (2 ^ q.2) else w) (s.rxMarginal l)
    .next (s.setFld (Reg.TOR_LINK_LANES l) 16 0 bad)

/-! ### Cables (R406) -/

/-- CABLE_PRESENCE: CBL_PWR is on only while a cable is present; its removal lets a tripped link come up
again. -/
def execCablePresence (l : Fin 6) (present : Bool) (s : State) : Host.Outcome State Fault Refusal :=
  let x := s.link l
  .next (s.setLink l { x with present := present, tripped := x.tripped && present,
                              cablePower := present && s.wardPowered 6 && !x.tripped })

/-- CBL_PWR_TRIP: the limiter opens and the link stays DOWN until the cable is removed. -/
def execCblPwrTrip (l : Fin 6) (s : State) : Host.Outcome State Fault Refusal :=
  let x := s.link l
  if x.cablePower then .next ((s.setLinkState l 0).setLink l { x with cablePower := false, tripped := true }) else .next s

/-! ### Relay and probes (R264, R265, R267) -/

/-- The module's own packets that still wait for credits, or for room with no flit sent: the queues without them, with the credits they
had taken, and how many they are. -/
def Link.dropOwn (x : Link) (devnum axis : Nat) : Link × Nat :=
  let own (q : TorusPacket × Option (Nat × Nat)) : Bool := decide (q.1.src.toNat = devnum)
  let unsent (r : OutRun) : Bool := r.own && !r.begun
  let gone := x.outq.filter unsent
  let y := { x with txq := x.txq.filter fun q => !own q, outq := x.outq.filter fun r => !unsent r
                    sent := x.sent.filter fun e => !((x.txq.find? fun q => packetVc q.1 axis == e.1).map own).getD false }
  (gone.foldl (fun z r => z.setCredit r.vc (z.credit r.vc + r.packets)) y,
    (x.txq.filter own).foldl (fun n q => n + packetCount q.1) 0 - (x.sent.filter fun e =>
      ((x.txq.find? fun q => packetVc q.1 axis == e.1).map own).getD false).foldl (fun n e => n + e.2) 0
      + gone.foldl (fun n r => n + r.packets) 0)

/-- A pair of dies enters relay: packets its own module has queued are discarded and counted; those of other modules, which
pass through, stay. -/
def State.enterRelay (s : State) (axis : Nat) : State :=
  let one (t : State) (l : Nat) : State :=
    let r := (t.link l).dropOwn t.devnum axis
    ((t.count (Reg.TOR_RELAY_DISCARD l) r.2).setLink l r.1).setFld (Reg.TOR_LINK_STATE l) 4 4 1
  if s.relaying (2 * axis) then s else (one (one s (2 * axis)) (2 * axis + 1)).tally Reg.TOR_RELAY_ENTRIES

/-- A pair leaves relay. -/
def State.leaveRelay (s : State) (axis : Nat) : State :=
  (s.setFld (Reg.TOR_LINK_STATE (2 * axis)) 4 4 0).setFld (Reg.TOR_LINK_STATE (2 * axis + 1)) 4 4 0

/-- The link dies of an axis are attached to a base die whose ward is fenced: X and Y to base dies 0 and 1, Z to 2 and 3
(R34, R48); or a module warm reset is under way (R355). -/
def State.relayForced (s : State) (axis : Nat) : Bool :=
  if s.warmDue.isSome then true else if axis < 2 then s.wardFence.contains 1 || s.wardFence.contains 2 else s.wardFence.contains 3 || s.wardFence.contains 4

/-- The pairs follow TOR_RELAY: its AXES, all of them after an automatic entry, and those whose base die is fenced. -/
def State.applyRelay (s : State) : State :=
  [0, 1, 2].foldl (fun t a =>
    if s.flag Reg.TOR_RELAY a ∨ s.flag Reg.TOR_RELAY 9 ∨ s.relayForced a then t.enterRelay a else t.leaveRelay a) s

/-- AXES is written; an automatic relay ends. -/
def State.setRelay (s : State) (axes : Nat) : State :=
  ((s.setFld Reg.TOR_RELAY 2 0 axes).setFld Reg.TOR_RELAY 9 9 0).applyRelay

/-- RELAY_WRITE. -/
def execRelayWrite (who : Requester) (v : Word) (s : State) : Host.Outcome State Fault Refusal :=
  .next (s.command who pgPOD fun t => (t.setFld Reg.TOR_RELAY 8 8 (bitsOf v.toNat 8 8)).setRelay (bitsOf v.toNat 2 0))

/-- The link dies watch the heartbeat; a restart of the binnacle suspends that for up to 1 s (R374). -/
def State.heartbeatWatched (s : State) : Bool :=
  match s.fw.restart with
  | none => true
  | some t => decide (t + 1000000000 ≤ s.now)

/-- AUTO_RELAY: the dies have had no heartbeat for 1 ms. -/
def execAutoRelay (s : State) : Host.Outcome State Fault Refusal :=
  if s.flag Reg.TOR_RELAY 8 ∧ !s.flag Reg.TOR_RELAY 9 ∧ s.wardPowered 6 ∧ s.heartbeatWatched then
    .next (([0, 1, 2].foldl State.enterRelay s).setFld Reg.TOR_RELAY 9 9 1)
  else .next s

/-- TOR_PROBE.START: identity records leave on every link that is UP. -/
def State.startProbe (s : State) : State :=
  let s1 := { s.setReg Reg.TOR_PROBE (1 * 2 ^ 29) with probeSeen := [] }
  (List.range 6).foldl (fun t l =>
    if t.linkState l = 2 then t.emit (.ident l s.ownIdent) else t) s1

/-- TOR_PROBE. -/
def execTorProbe (who : Requester) (s : State) : Host.Outcome State Fault Refusal :=
  .next (s.command who pgPOD State.startProbe)

/-- The device number of the logical neighbour on a link. -/
def State.neighbour (s : State) (l : Nat) : Nat :=
  let a := l / 2
  let n := s.extent a
  let c := coordOf s.ownIndex a
  s.devnum / 1024 * 1024 + withCoord s.ownIndex a ((if l % 2 = 0 then c + 1 else c + n - 1) % n)

/-- PROBE_RESULT: once every UP link has its record, the links are compared with the logical neighbours. An
axis of extent 1 has no neighbour to compare. -/
def execProbeResult (s : State) : Host.Outcome State Fault Refusal :=
  let ls := (List.range 6).filter fun l => decide (1 < s.extent (l / 2))
  if s.fld Reg.TOR_PROBE 30 29 ≠ 1 ∨ ls.any fun l => s.linkState l == 2 && !s.probeSeen.contains l then .next s
  else
    let bad := ls.filter fun l => s.linkState l ≠ 2 ∨ s.fld (Reg.TOR_LINK_STATE l) 31 16 ≠ s.neighbour l
    let m := bad.foldl (fun w l => w + 2 ^ l) 0
    if bad.isEmpty then .next (s.setReg Reg.TOR_PROBE (2 * 2 ^ 29))
    else .next ((s.setReg Reg.TOR_PROBE (3 * 2 ^ 29 + m)).tally Reg.TOR_PROBE_MISMATCH)

/-! ### TOR_SLICE, TOR_GEOM and TOR_COLL_BASE (R256, R270, R429) -/

/-- A write of TOR_GEOM or TOR_SLICE: dropped and counted while a ring is ACTIVE. While a DEFICIT bit is set the module
refuses to enter a job slice (R64). -/
def State.writeSlice (s : State) (geom : Bool) (v : Nat) : State :=
  if s.anyRingActive then s.tally Reg.TOR_SLICE_VIOL
  else if !geom ∧ bitOf v 31 ∧ s.fld Reg.REP_STATUS 3 0 ≠ 0 then s
  else if geom then s.setReg Reg.TOR_GEOM (Nat.land v 0xF77)
  else s.setReg Reg.TOR_SLICE (Nat.land v 0x8F770F77)

/-- TOR_SLICE_WRITE. -/
def execTorSliceWrite (who : Requester) (geom : Bool) (v : Word) (s : State) : Host.Outcome State Fault Refusal :=
  .next (s.command who pgPOD fun t => t.writeSlice geom v.toNat)

/-- Entries of a TOR_COLL_BASE value. -/
def collCount (v : Nat) : Nat := min 1024 (v % 2048)

/-- A write of TOR_COLL_BASE: dropped and counted while a ring is ACTIVE, ignored where the table would not
lie in the bank SRAM of base die 0. -/
def State.writeCollBase (s : State) (v : Nat) : State :=
  let b := v / 65536 * 65536
  if s.anyRingActive then s.tally Reg.TOR_SLICE_VIOL
  else if inBank0 b (64 * collCount v) then s.setReg Reg.TOR_COLL_BASE (b + v % 2048)
  else s

/-- TOR_COLL_BASE_WRITE. -/
def execTorCollBaseWrite (who : Requester) (v : DWord) (s : State) : Host.Outcome State Fault Refusal :=
  .next (s.command who pgPOD fun t => t.writeCollBase v.toNat)

end Sys2Proof.Machine
end

