-- ==== Sys2Proof/Machine/Crypto.lean ====
section
/-! DEFINITION. AES-256, its modes, key unwrap and the erasure code (R290, R318, R320, R322). -/

namespace Sys2Proof.Machine

/-! ### Big-endian numbers and exclusive or -/

/-- The number that bytes spell, most significant first. -/
def beNat (bs : List Byte) : Nat := bs.foldl (fun a b => a * 256 + b.toNat) 0

/-- The low n bytes of a number, most significant first. -/
def beBytes (n x : Nat) : List Byte := (leBytes n x).reverse

/-- Exclusive or of two byte strings, as long as the shorter. -/
def xorBytes (a b : List Byte) : List Byte := List.zipWith (fun x y => x ^^^ y) a b

/-! ### GF(2^8) -/

/-- x times the polynomial x, modulo a polynomial given by its low eight bits. -/
def gfDouble (poly x : Nat) : Nat := if x < 128 then 2 * x else Nat.xor (2 * x - 256) poly

/-- Product in GF(2^8): the bits of b from bit 7 down. -/
def gfTimes (poly a b : Nat) : Nat :=
  [7, 6, 5, 4, 3, 2, 1, 0].foldl (fun r i => Nat.xor (gfDouble poly r) (if bitOf b i then a else 0)) 0

/-- Inverse in GF(2^8), as the 254th power; 0 has 0. -/
def gfInverse (poly a : Nat) : Nat :=
  [true, true, true, true, true, true, false].foldl (fun r b =>
    let q := gfTimes poly r r
    if b then gfTimes poly q a else q) a

/-! ### AES-256 (FIPS 197) -/

/-- Rotation of a byte to the left. -/
def rotByte (x n : Nat) : Nat := (x * 2 ^ n) % 256 + x / 2 ^ (8 - n)

/-- The S-box. -/
def subByte (x : Nat) : Nat :=
  let b := gfInverse 0x1B x
  Nat.xor (Nat.xor (Nat.xor b (rotByte b 1)) (Nat.xor (rotByte b 2) (rotByte b 3))) (Nat.xor (rotByte b 4) 0x63)

/-- The inverse S-box. -/
def unsubByte (x : Nat) : Nat :=
  gfInverse 0x1B (Nat.xor (Nat.xor (rotByte x 1) (rotByte x 3)) (Nat.xor (rotByte x 6) 0x05))

/-- Next eight words of the key schedule, from the eight before and the round constant. -/
def nextKey (w : List (List Nat)) (rcon : Nat) : List (List Nat) :=
  let x (a b : List Nat) : List Nat := List.zipWith Nat.xor a b
  let t := match (w.getD 7 []).map subByte with
    | a :: r => (r ++ [a])
    | [] => []
  let t' := match t with
    | a :: r => Nat.xor a rcon :: r
    | [] => []
  let w0 := x (w.getD 0 []) t'
  let w1 := x (w.getD 1 []) w0
  let w2 := x (w.getD 2 []) w1
  let w3 := x (w.getD 3 []) w2
  let w4 := x (w.getD 4 []) (w3.map subByte)
  let w5 := x (w.getD 5 []) w4
  let w6 := x (w.getD 6 []) w5
  [w0, w1, w2, w3, w4, w5, w6, x (w.getD 7 []) w6]

/-- Lists cut into pieces of n. -/
def pieces {α : Type} (n count : Nat) (l : List α) : List (List α) :=
  (List.range count).map fun i => (l.drop (n * i)).take n

/-- The 15 round keys of a 32-byte key. -/
def roundKeys (key : List Byte) : List (List Nat) :=
  let w0 := pieces 4 8 (key.map fun b => b.toNat)
  let r := [1, 2, 4, 8, 16, 32, 64].foldl (fun (a : List (List Nat) × List (List Nat)) c =>
    let n := nextKey a.2 c
    (a.1 ++ n, n)) (w0, w0)
  (pieces 4 15 r.1).map fun ws => ws.flatten

/-- One column through a circulant matrix. -/
def mixColumn (m : List Nat) (c : List Nat) : List Nat :=
  (List.range 4).map fun i => (List.range 4).foldl (fun a j =>
    Nat.xor a (gfTimes 0x1B (m.getD ((j + 4 - i) % 4) 0) (c.getD j 0))) 0

/-- Rows shifted by r columns per row: byte (r, c) comes from column c + step × r. -/
def shiftRows (step : Nat) (s : List Nat) : List Nat :=
  (List.range 16).map fun i => s.getD (i % 4 + 4 * ((i / 4 + step * (i % 4)) % 4)) 0

/-- One block encrypted. -/
def aesEncrypt (key block : List Byte) : List Byte :=
  let ks := roundKeys key
  let add (s : List Nat) (r : Nat) : List Nat := List.zipWith Nat.xor s (ks.getD r [])
  let s0 := add (block.map fun b => b.toNat) 0
  let s13 := (List.range 13).foldl (fun s r =>
    add (((pieces 4 4 (shiftRows 1 (s.map subByte))).map (mixColumn [2, 3, 1, 1])).flatten) (r + 1)) s0
  (add (shiftRows 1 (s13.map subByte)) 14).map fun n => BitVec.ofNat 8 n

/-- One block decrypted. -/
def aesDecrypt (key block : List Byte) : List Byte :=
  let ks := roundKeys key
  let add (s : List Nat) (r : Nat) : List Nat := List.zipWith Nat.xor s (ks.getD r [])
  let s0 := add (block.map fun b => b.toNat) 14
  let s13 := (List.range 13).foldl (fun s r =>
    ((pieces 4 4 (add ((shiftRows 3 s).map unsubByte) (13 - r))).map (mixColumn [14, 11, 13, 9])).flatten) s0
  (add ((shiftRows 3 s13).map unsubByte) 0).map fun n => BitVec.ofNat 8 n

/-! ### Modes (SP 800-38A, SP 800-38D) -/

/-- 16-byte blocks of a string; the last may be shorter. -/
def blocks16 (bs : List Byte) : List (List Byte) := pieces 16 ((bs.length + 15) / 16) bs

/-- Key stream from a counter block on, `inc` giving the next block. -/
def keyStream (key : List Byte) (inc : Nat → Nat) (ctr : Nat) : Nat → List Byte
  | 0 => []
  | n + 1 => aesEncrypt key (beBytes 16 ctr) ++ keyStream key inc (inc ctr) n

/-- Counter mode over a string. -/
def ctrMode (key : List Byte) (inc : Nat → Nat) (ctr : Nat) (bs : List Byte) : List Byte :=
  xorBytes bs (keyStream key inc ctr ((bs.length + 15) / 16))

/-- The next counter block of CTR: one 128-bit integer (R320). -/
def inc128 (x : Nat) : Nat := (x + 1) % 2 ^ 128
/-- The next counter block of GCM: its low 32 bits count. -/
def inc32 (x : Nat) : Nat := x / 2 ^ 32 * 2 ^ 32 + (x + 1) % 2 ^ 32

/-- CBC: output and last ciphertext block. -/
def cbcMode (key iv : List Byte) (enc : Bool) (bs : List Byte) : List Byte × List Byte :=
  (blocks16 bs).foldl (fun (a : List Byte × List Byte) b =>
    if enc then
      let c := aesEncrypt key (xorBytes b a.2)
      (a.1 ++ c, c)
    else (a.1 ++ xorBytes (aesDecrypt key b) a.2, b)) ([], iv)

/-- CFB-128: output and last ciphertext block; a partial last segment takes the leading bytes of the key
stream and leaves the chaining block before it extended by nothing. -/
def cfbMode (key iv : List Byte) (enc : Bool) (bs : List Byte) : List Byte × List Byte :=
  (blocks16 bs).foldl (fun (a : List Byte × List Byte) b =>
    let o := xorBytes b (aesEncrypt key a.2)
    (a.1 ++ o, if b.length < 16 then a.2 else if enc then o else b)) ([], iv)

/-- Product in GF(2^128) with the bit order of GCM. -/
def ghashTimes (x y : Nat) : Nat :=
  ((List.range 128).foldl (fun (a : Nat × Nat) i =>
    (if bitOf x (127 - i) then Nat.xor a.1 a.2 else a.1,
      if a.2 % 2 = 1 then Nat.xor (a.2 / 2) (0xE1 * 2 ^ 120) else a.2 / 2)) (0, y)).1

/-- A string padded with zeros to whole blocks. -/
def padded16 (bs : List Byte) : List Byte := bs ++ List.replicate ((16 - bs.length % 16) % 16) 0

/-- GHASH of additional data and ciphertext. -/
def ghash (h : Nat) (aad ct : List Byte) : Nat :=
  (blocks16 (padded16 aad ++ padded16 ct ++ beBytes 8 (8 * aad.length) ++ beBytes 8 (8 * ct.length))).foldl
    (fun y b => ghashTimes (Nat.xor y (beNat b)) h) 0

/-- The GCM tag of a ciphertext under a 12-byte IV. -/
def gcmTag (key iv aad ct : List Byte) : List Byte :=
  xorBytes (beBytes 16 (ghash (beNat (aesEncrypt key (List.replicate 16 0))) aad ct))
    (aesEncrypt key (iv ++ beBytes 4 1))

/-- GCM encryption or decryption of the text itself. -/
def gcmText (key iv bs : List Byte) : List Byte := ctrMode key inc32 (beNat (iv ++ beBytes 4 2)) bs

/-! ### Key unwrap (RFC 3394) -/

/-- One step of the unwrap: A, the registers, and the step number t. -/
def unwrapStep (kek : List Byte) (a : List Byte × List (List Byte)) (t : Nat) : List Byte × List (List Byte) :=
  let i := (t - 1) % 4
  let b := aesDecrypt kek (xorBytes a.1 (beBytes 8 t) ++ a.2.getD i [])
  (b.take 8, a.2.set i (b.drop 8))

/-- The 32-byte key that 40 wrapped bytes hold; none when the integrity check fails. -/
def unwrapKey (kek w : List Byte) : Option (List Byte) :=
  let c := pieces 8 5 w
  let r := ((List.range 24).map fun n => 24 - n).foldl (unwrapStep kek) (c.getD 0 [], c.drop 1)
  if r.1 = List.replicate 8 0xA6 then some r.2.flatten else none

/-! ### The erasure code (R290) -/

/-- The field polynomial x^8 + x^4 + x^3 + x^2 + 1, low bits. -/
def rsPoly : Nat := 0x1D

/-- The coefficient of data packet i in parity packet j. -/
def cauchy (j i : Nat) : Nat := gfInverse rsPoly (Nat.xor (0x80 + j) i)

/-- A payload padded to 8,192 bytes. -/
def fullPayload (bs : List Byte) : List Byte := bs ++ List.replicate (8192 - bs.length) 0

/-- A payload times a coefficient. -/
def scalePayload (c : Nat) (bs : List Byte) : List Byte := bs.map fun b => BitVec.ofNat 8 (gfTimes rsPoly c b.toNat)

/-- Weighted sum of payloads. -/
def sumPayloads (l : List (Nat × List Byte)) : List Byte :=
  l.foldl (fun a p => xorBytes a (scalePayload p.1 (fullPayload p.2))) (List.replicate 8192 0)

/-- Parity packet j of a group. -/
def parityPacketOf (group : List (List Byte)) (j : Nat) : List Byte :=
  sumPayloads (group.zipIdx.map fun p => (cauchy j p.2, p.1))

/-- Product in the field over a list. -/
def gfProduct (l : List Nat) : Nat := l.foldl (gfTimes rsPoly) 1

/-- The entry of the inverse of the Cauchy matrix with rows x_j, j ∈ js, and columns y_i, i ∈ is: how syndrome
b enters data packet a. -/
def cauchyInverse (js is : List Nat) (a b : Nat) : Nat :=
  let x (n : Nat) : Nat := 0x80 + js.getD n 0
  let y (n : Nat) : Nat := is.getD n 0
  let r := List.range js.length
  let num := gfTimes rsPoly (gfProduct (r.map fun k => Nat.xor (x b) (y k))) (gfProduct (r.map fun k => Nat.xor (x k) (y a)))
  let den := gfTimes rsPoly (Nat.xor (x b) (y a)) (gfTimes rsPoly
    (gfProduct ((r.filter fun k => decide (k ≠ b)).map fun k => Nat.xor (x b) (x k)))
    (gfProduct ((r.filter fun k => decide (k ≠ a)).map fun k => Nat.xor (y a) (y k))))
  gfTimes rsPoly num (gfInverse rsPoly den)

/-- A held packet of a group: its index and payload. -/
abbrev Held := Nat × List Byte

/-- The payload held under an index. -/
def heldAt (l : List Held) (i : Nat) : Option (List Byte) := (l.find? fun p => decide (p.1 = i)).map Prod.snd

/-- The K′ data payloads of a group of which K′ packets are held. -/
def recoverGroup (k : Nat) (l : List Held) : List (List Byte) :=
  let lost := (List.range k).filter fun i => (heldAt l i).isNone
  let js := (((l.filter fun p => decide (k ≤ p.1)).map fun p => p.1 - k).take lost.length)
  let synd := js.map fun j => xorBytes (fullPayload ((heldAt l (k + j)).getD []))
    (sumPayloads ((l.filter fun p => decide (p.1 < k)).map fun p => (cauchy j p.1, p.2)))
  (List.range k).map fun i =>
    match heldAt l i with
    | some d => d
    | none => sumPayloads (synd.zipIdx.map fun p => (cauchyInverse js lost (lost.idxOf i) p.2, p.1))

end Sys2Proof.Machine
end

