-- ==== Sys2Proof/Machine/Cipher.lean ====
section
/-! DEFINITION. Cipher engines: key slots, epochs, exchange states, wire frames and the core scheduler
(R314 to R319, R322 to R336). -/

namespace Sys2Proof.Machine

/-! ### Key slots (R317 to R319) -/

/-- A key slot. -/
def State.keySlot (s : State) (n : Nat) : KeySlot := Map.get (fun _ => {}) s.keys n
/-- Replaces a key slot. -/
def State.setKeySlot (s : State) (n : Nat) (x : KeySlot) : State := { s with keys := Map.put (fun _ => {}) s.keys n x }

/-- A cipher engine. -/
def State.cipher (s : State) (p : Nat) : CipherEng := Map.get (fun _ => {}) s.ciphers p
/-- Replaces a cipher engine. -/
def State.setCipher (s : State) (p : Nat) (x : CipherEng) : State :=
  { s with ciphers := Map.put (fun _ => {}) s.ciphers p x }

/-- Role of an epoch entry: 0 NONE, 1 NEXT, 2 CURRENT, 3 PREVIOUS. -/
def State.role (s : State) (die e : Nat) : Nat := s.fld (Reg.CPH_EPOCH_SLOT die e) 30 29
/-- Sets a role. -/
def State.setRole (s : State) (die e r : Nat) : State := s.setFld (Reg.CPH_EPOCH_SLOT die e) 30 29 r
/-- The slot an epoch entry names. -/
def State.epochSlot (s : State) (die e : Nat) : Nat := Map.get (fun _ => 0) s.epochs (die * 4 + e)

/-- The roles in which epoch entries name a slot. -/
def State.slotRoles (s : State) (n : Nat) : List Nat :=
  ((List.range 4).filter fun e => decide (s.epochSlot (n / 1024) e = n) && decide (s.role (n / 1024) e ≠ 0)).map
    fun e => s.role (n / 1024) e

/-- The key slot a CIPHER descriptor names. -/
def cphSlot (d : List Byte) : Nat := fieldAt d 0x24 2 % 2048

/-- A descriptor in flight names the slot: one that the engine holds, or one of a CIPHER ring that has been fetched and has
no status, refused ones among them (R192). -/
def State.slotInFlight (s : State) (n : Nat) : Bool :=
  ((s.cipher (n / 1024)).jobs.any fun j => j.slot == n && decide (j.ring < 32768))
    || s.rings.any fun e => decide (s.ringClass e.1 = 4) && e.2.flights.any fun f => f.status.isNone && decide (cphSlot f.bytes = n)

/-- The wrapped key in the wrap registers. -/
def State.wrappedKey (s : State) : List Byte :=
  (List.range 5).flatMap fun i => leBytes 8 (s.reg (Reg.CPH_KEY_WRAP i))

/-- The wrap registers read 0. -/
def State.clearWrap (s : State) : State := (List.range 5).foldl (fun t i => t.setReg (Reg.CPH_KEY_WRAP i) 0) s

/-- CPH_KEY_CMD.RESULT. -/
def State.keyResult (s : State) (r : Nat) : State := s.setFld Reg.CPH_KEY_CMD 29 27 r

/-- LOAD (R318). -/
def State.loadKey (s : State) : State :=
  let n := s.fld Reg.CPH_KEY_SEL 10 0
  let use := s.fld Reg.CPH_KEY_SEL 17 16
  let s1 := s.clearWrap
  match unwrapKey (beBytes 32 Config.deviceKey.toNat) s.wrappedKey with
  | none => (s1.tally Reg.CPH_UNWRAP_FAIL).keyResult 3
  | some k =>
    if !(s.slotRoles n).isEmpty ∨ s.slotInFlight n ∨ use = 0 ∨ use = 3 then s1.keyResult 4
    else (s1.setKeySlot n { use := use, owner := s.fld Reg.CPH_KEY_SEL 31 24, key := k }).keyResult 1

/-- ERASE (R319). -/
def State.eraseKey (s : State) : State :=
  let n := s.fld Reg.CPH_KEY_SEL 10 0
  let die := n / 1024
  let use := (s.keySlot n).use
  if use = 1 ∧ s.slotInFlight n then s.keyResult 4
  else if use = 2 ∧ (s.slotRoles n).any (fun r => r == 2 || r == 3) then s.keyResult 4
  else
    let s1 := (List.range 4).foldl (fun t e =>
      if t.epochSlot die e = n ∧ t.role die e = 1 then t.setRole die e 0 else t) s
    (s1.setKeySlot n {}).keyResult 2

/-- KEY_LOAD. -/
def execKeyLoad (who : Requester) (s : State) : Host.Outcome State Fault Refusal :=
  .next (s.command who pgCPH State.loadKey)

/-- KEY_ERASE. -/
def execKeyErase (who : Requester) (s : State) : Host.Outcome State Fault Refusal :=
  .next (s.command who pgCPH State.eraseKey)

/-! ### Epochs (R323, R327 to R331) -/

/-- The current epoch. -/
def State.currentEpoch (s : State) : Option Nat :=
  if s.flag Reg.CPH_EPOCH 2 then some (s.fld Reg.CPH_EPOCH 1 0) else none

/-- Forgets the highest frames accepted under an epoch on a die. -/
def State.forgetReplay (s : State) (die e : Nat) : State :=
  { s with replay := s.replay.filter fun p => !(decide (p.1 % 2 = die) && decide (p.1 / 4 % 5 = e)) }

/-- INSTALL (R328); a slot that is not a WIRE slot is refused too. -/
def State.installEpoch (s : State) (p e : Nat) : State :=
  let n := p * 1024 + s.fld (Reg.CPH_EPOCH_SLOT p e) 9 0
  let k := s.keySlot n
  let outOfTurn : Bool := match s.currentEpoch with
    | some c => decide (e ≠ (c + 1) % 4)
    | none => false
  if outOfTurn ∨ s.role p e ≠ 0 ∨ k.served ∨ k.use ≠ 2 then s.tally (Reg.CPH_INSTALL_REFUSED p)
  else
    let s1 := { s with
      epochs := Map.put (fun _ => 0) s.epochs (p * 4 + e) n
      epochGone := s.epochGone.filter fun k => k ≠ p * 4 + e }
    ((s1.setRole p e 1).setKeySlot n { k with served := true }).forgetReplay p e

/-- EPOCH_INSTALL. -/
def execEpochInstall (who : Requester) (p : Fin 2) (e : Fin 4) (s : State) : Host.Outcome State Fault Refusal :=
  .next (s.command who (pgCPHD p) fun t => t.installEpoch p e)

/-- The epoch that is NEXT on both dies. -/
def State.nextEpoch (s : State) : Option Nat :=
  (List.range 4).find? fun e => decide (s.role 0 e = 1) && decide (s.role 1 e = 1)

/-- HOLD_S and CPH_GRACE in ns (R294, R331). -/
def State.holdTime (s : State) : Nat := max 1 (s.fld Reg.XCH_TIMERS1 31 24) * 1000000000
def State.graceSet (s : State) : Nat := max 1 (s.fld Reg.CPH_GRACE 7 0) * 1000000000

/-- The counter-exhausted event of both dies ends with a switch (R323). -/
def State.endExhausted (s : State) : State :=
  [0, 1].foldl (fun t d => t.setFld (pgCPHD d + Hdr.EVT_STATUS) 8 8 0) s

/-- SWITCH (R329): an entry that was CURRENT on its die becomes PREVIOUS there, and its grace timer starts at T_grace. -/
def State.switchEpoch (s : State) : State :=
  let held := (List.range 4).any fun e => decide (s.role 0 e = 3) || decide (s.role 1 e = 3)
  match s.nextEpoch with
  | none => (s.tally Reg.CPH_SWITCH_REFUSED).setFld Reg.CPH_EPOCH 30 29 2
  | some e =>
    if held then (s.tally Reg.CPH_SWITCH_REFUSED).setFld Reg.CPH_EPOCH 30 29 2
    else
      let s1 := match s.currentEpoch with
        | some c =>
          let age (t : State) (die : Nat) : State := if s.role die c = 2 then t.setRole die c 3 else t
          { age (age s 0) 1 with prevSince := some s.now, prevGrace := s.graceSet }
        | none => s
      let s2 := (s1.setRole 0 e 2).setRole 1 e 2
      let s3 := (s2.setReg (Reg.CPH_FRAME 0) 0).setReg (Reg.CPH_FRAME 1) (2 ^ 63)
      ((s3.endExhausted.setFld Reg.CPH_EPOCH 2 0 (4 + e)).setFld Reg.CPH_EPOCH 30 29 1).tally Reg.CPH_EPOCH_SWITCHES

/-- EPOCH_SWITCH. -/
def execEpochSwitch (who : Requester) (s : State) : Host.Outcome State Fault Refusal :=
  .next (s.command who pgCPH State.switchEpoch)

/-- T_grace of the PREVIOUS epoch in ns: what its timer started at, and never below T_hold (R329, R331). -/
def State.graceTime (s : State) : Nat := max s.holdTime s.prevGrace

/-- Whether HOLD_S of the PREVIOUS epoch has passed (R330). -/
def State.holdPassed (s : State) : Bool :=
  match s.prevSince with
  | some t => decide (t + s.holdTime ≤ s.now)
  | none => false

/-- The PREVIOUS entries end: NONE, slot erased. -/
def State.endPrevious (s : State) : State :=
  let s1 := [0, 1].foldl (fun t die => (List.range 4).foldl (fun (u : State) e =>
    if u.role die e = 3 then (u.setKeySlot (u.epochSlot die e) {}).setRole die e 0 else u) t) s
  { s1 with prevSince := none }

/-- After a reset of a die: where no entry is CURRENT any more there is no current epoch, and where none is PREVIOUS no grace
runs (R328, R329, R335). -/
def State.settleEpochs (s : State) : State :=
  let held (r : Nat) : Bool := [0, 1].any fun die => (List.range 4).any fun e => s.role die e == r
  let s1 := if held 2 then s else s.setFld Reg.CPH_EPOCH 2 2 0
  if held 3 then s1 else { s1 with prevSince := none }

/-- GRACE_END. -/
def execGraceEnd (s : State) : Host.Outcome State Fault Refusal :=
  match s.prevSince with
  | none => .next s
  | some t => if t + s.graceTime ≤ s.now ∧ s.wardPowered 7 then .next s.endPrevious else .next s

/-! ### Exchange states (R333, R334) -/

/-- STATE is NORMAL. -/
def State.normal (s : State) : Bool := decide (s.fld Reg.CPH_XSTATE 1 0 = 3)

/-- A write of CPH_XSTATE. -/
def State.writeXstate (s : State) (v : Nat) : State :=
  if s.flag Reg.CPH_XSTATE 31 then s.tally Reg.CPH_XSTATE_REJECT
  else if v = 3 then s.setReg Reg.CPH_XSTATE (2 ^ 31 + 3)
  else s.setFld Reg.CPH_XSTATE 1 0 v

/-- XSTATE_WRITE. -/
def execXstateWrite (who : Requester) (v : BitVec 2) (s : State) : Host.Outcome State Fault Refusal :=
  .next (s.command who pgCPH fun t => t.writeXstate v.toNat)

/-- The module sends in cleartext. -/
def State.sendsClear (s : State) : Bool := s.flag Reg.CPH_CLEAR 0 && !s.normal && !s.flag Reg.CPH_XSTATE 31

/-! ### Wire frames (R322 to R326) -/

/-- The 48-byte header in network byte order. -/
def frameHeader (f : Frame) : List Byte :=
  beBytes 1 (16 + f.typ.toNat)
    ++ beBytes 1 (f.epoch.toNat + 4 * boolNat f.clear + 8 * boolNat f.span + 16 * boolNat f.snap)
    ++ beBytes 2 f.job.toNat ++ beBytes 4 f.sender.toNat ++ beBytes 8 f.frame.toNat ++ beBytes 4 f.first.toNat
    ++ beBytes 4 f.last.toNat ++ beBytes 4 f.group.toNat ++ beBytes 4 f.groups.toNat ++ beBytes 1 f.index.toNat
    ++ beBytes 1 f.k.toNat ++ beBytes 1 f.m.toNat ++ [0] ++ beBytes 2 f.len.toNat ++ beBytes 2 f.stream.toNat
    ++ beBytes 4 f.time.toNat ++ [0, 0, 0, 0]

/-- The nonce SENDER ∥ FRAME. -/
def frameNonce (f : Frame) : List Byte := beBytes 4 f.sender.toNat ++ beBytes 8 f.frame.toNat

/-- The tag of a cleartext frame (R334). Which byte of the CRC-32C comes first is not stated; the model puts the least significant
one first (DESIGN CHOICE: assumption 49). -/
def clearTag (f : Frame) : List Byte := leBytes 4 (crc32c (frameHeader f ++ f.payload)).toNat ++ List.replicate 12 0

/-- Frames a die has sent in the current epoch. -/
def State.frameCount (s : State) (p : Nat) : Nat := s.reg (Reg.CPH_FRAME p) % 2 ^ 63

/-- The CURRENT epoch of a die; none where its entry names no slot any more (R334). -/
def State.epochOn (s : State) (p : Nat) : Option Nat := s.currentEpoch.filter fun e => decide (s.role p e = 2)

/-- The die can send a frame: in cleartext, or under its CURRENT epoch, with a count left. -/
def State.canSeal (s : State) (p : Nat) : Bool :=
  (s.sendsClear || (s.epochOn p).isSome) && decide (s.frameCount p < 2 ^ 63 - 1)

/-- The next count is taken; all ones raises the counter-exhausted event. -/
def State.takeCount (s : State) (p : Nat) : State :=
  let n := s.frameCount p + 1
  let s1 := s.setReg (Reg.CPH_FRAME p) (p * 2 ^ 63 + n)
  if n = 2 ^ 63 - 1 then s1.raise (pgCPHD p) 8 else s1

/-- A frame with the sender's own fields: identity, count, timestamp in µs, epoch or CLEAR. -/
def State.stamp (s : State) (p : Nat) (f : Frame) : Frame :=
  { f with
    clear := s.sendsClear
    epoch := BitVec.ofNat 2 (if s.sendsClear then 0 else (s.epochOn p).getD 0)
    job := BitVec.ofNat 16 (s.fld Reg.XCH_IDENT 63 48)
    sender := BitVec.ofNat 32 (s.fld Reg.XCH_IDENT 31 0)
    frame := BitVec.ofNat 64 (p * 2 ^ 63 + s.frameCount p)
    len := BitVec.ofNat 16 f.payload.length
    time := BitVec.ofNat 32 (s.now / 1000) }

/-- The frame as sent: encrypted and tagged, or with the check of R334. -/
def sealFrame (key : List Byte) (f : Frame) : Frame :=
  if f.clear then { f with tag := clearTag f }
  else
    let ct := gcmText key (frameNonce f) f.payload
    { f with payload := ct, tag := gcmTag key (frameNonce f) (frameHeader f) ct }

/-- Takes a count for one frame on a die and gives the frame as its core makes it; none where the die sends nothing. -/
def State.seal (s : State) (p : Nat) (f : Frame) : State × Option Frame :=
  if s.canSeal p then
    (s.takeCount p, some (sealFrame (s.keySlot (s.epochSlot p ((s.epochOn p).getD 0))).key (s.stamp p f)))
  else (s, none)

/-- Frames of a die wait for a core (R315). -/
def State.queueTx (s : State) (p : Nat) (l : List TxUnit) : State :=
  let x := s.cipher p
  s.setCipher p { x with txWait := x.txWait ++ l }

/-- The far-port die runs: power, unit, Ethernet link. -/
def State.portWorks (s : State) (p : Nat) : Bool :=
  s.wardPowered 7 && s.serving (.farPort (Fin.ofNat 2 p)) && s.flag (Reg.FP_CTRL p) 31

/-- Its core logic runs, so that frames and cipher units move on. -/
def State.portRuns (s : State) (p : Nat) : Bool := s.portWorks p && s.clockRuns 7

/-- A frame goes out by a port. -/
def State.sendFrame (s : State) (port : Nat) (f : Frame) : State :=
  ((s.tally (Reg.FP_TX_FRAMES port)).progress (pgFP port) 1).emit (.frame port f)

/-- HOLD_S of a frame's epoch has passed: it is PREVIOUS and has been for that long, or its grace has ended, and no reset of the
die made its entry NONE (R330). -/
def State.expired (s : State) (port : Nat) (f : Frame) : Bool :=
  let r := s.role port f.epoch.toNat
  !f.clear && ((r == 3 && s.holdPassed) || (r == 0 && !s.epochGone.contains (port * 4 + f.epoch.toNat)))

/-- A frame may still be transmitted: cleartext while the die sends in cleartext, else under CURRENT, or under
PREVIOUS until HOLD_S has passed (R330). -/
def State.mayTransmit (s : State) (port : Nat) (f : Frame) : Bool :=
  if f.clear then s.sendsClear
  else
    let r := s.role port f.epoch.toNat
    r == 2 || (r == 3 && !s.holdPassed)

/-- A core is done with a frame to be transmitted: a control packet goes out, if it still may and its partner is UP (R296; a
PROBE goes to a DOWN one too); a frame of a stream counts among the encrypted ones. -/
def State.frameCoded (s : State) (p : Nat) : TxUnit → State
  | .stream n => { s with tx := s.tx.map fun (x : TxStream) => if x.num = n then { x with coded := x.coded + 1 } else x }
  | .control q f =>
    if !s.portWorks p ∨ !s.ptrValid q ∨ (f.typ ≠ 5 ∧ !s.ptrUp q) then s
    else if s.mayTransmit p f then s.sendFrame p f
    else s.tallyIf (s.expired p f) (Reg.CPH_EXPIRED_TX p)

/-- The tag or the cleartext check of a received frame holds. -/
def frameSound (key : List Byte) (f : Frame) : Bool :=
  if f.clear then f.tag == clearTag f else f.tag == gcmTag key (frameNonce f) (frameHeader f) f.payload

/-- The payload in plaintext. -/
def frameText (key : List Byte) (f : Frame) : List Byte :=
  if f.clear then f.payload else gcmText key (frameNonce f) f.payload

/-- The window a frame of a partner, received by a die, is held against. -/
def replayKey (p partner : Nat) (f : Frame) : Nat :=
  ((partner * 5 + if f.clear then 4 else f.epoch.toNat) * 2 + boolNat (f.frame.getLsbD 63)) * 2 + p

/-- CPH_REPLAY_WIN as a count. -/
def State.replayWindow (s : State) : Nat := 2 ^ max 8 (s.fld Reg.CPH_REPLAY_WIN 4 0)

/-- The frame is too old for its window. -/
def State.replayed (s : State) (p partner : Nat) (f : Frame) : Bool :=
  match Map.find s.replay (replayKey p partner f) with
  | some top => decide (f.frame.toNat % 2 ^ 63 + 1 + s.replayWindow < top)
  | none => false

/-- An accepted frame moves its window. -/
def State.noteReplay (s : State) (p partner : Nat) (f : Frame) : State :=
  let k := replayKey p partner f
  { s with replay := Map.set s.replay k (max ((Map.find s.replay k).getD 0) (f.frame.toNat % 2 ^ 63 + 1)) }

/-- The receive checks in order: the plaintext, or none where the frame is discarded. Frames of no partner have
no window. -/
def State.openFrame (s : State) (p : Nat) (partner : Option Nat) (f : Frame) : State × Option (List Byte) :=
  let key := (s.keySlot (s.epochSlot p f.epoch.toNat)).key
  let old : Bool := match partner with
    | some q => s.replayed p q f
    | none => false
  if f.clear ∧ s.normal then (s.tally (Reg.CPH_CLEAR_REJECT p), none)
  else if !f.clear ∧ s.role p f.epoch.toNat = 0 then (s.tally (Reg.CPH_NO_KEY p), none)
  else if !frameSound key f then (s.tally (Reg.CPH_AUTH_FAIL p), none)
  else if old then (s.tally (Reg.CPH_REPLAY p), none)
  else
    let s1 := match partner with
      | some q => s.noteReplay p q f
      | none => s
    (s1, some (frameText key f))

/-! ### The core scheduler (R314, R315) -/

/-- Cores kept for descriptors. -/
def State.hostMin (s : State) (p : Nat) : Nat := min 2 (s.fld (Reg.CPH_HOST_MIN p) 3 0)

/-- What a core works on. -/
def CipherEng.core (x : CipherEng) (c : Nat) : Option CoreWork := Map.get (fun _ => none) x.cores c

/-- A core takes work. -/
def CipherEng.give (x : CipherEng) (c : Nat) (w : Option CoreWork) : CipherEng :=
  { x with cores := Map.put (fun _ => none) x.cores c w }

/-- Cores that serve descriptors. -/
def CipherEng.serving (x : CipherEng) : Nat :=
  (x.cores.filter fun e => match e.2 with
    | some (.descriptor ..) => true
    | _ => false).length

/-- A core takes a unit of the first descriptor that has one waiting. -/
def CipherEng.takeJob (x : CipherEng) (c : Nat) : CipherEng :=
  match x.jobs.find? fun j => decide (0 < j.waiting) with
  | none => x
  | some j =>
    { x.give c (some (.descriptor j.ring j.idx)) with
      jobs := x.jobs.map fun (i : CipherJob) =>
        if i.ring = j.ring ∧ i.idx = j.idx then { i with waiting := i.waiting - 1, begun := true } else i }

/-- A free core takes the first waiting unit in the order of R315. -/
def CipherEng.dispatch (x : CipherEng) (c hostMin : Nat) : CipherEng :=
  let jobs := x.jobs.any fun j => decide (0 < j.waiting)
  if (x.core c).isSome then x
  else if jobs ∧ x.serving < hostMin then x.takeJob c
  else if 0 < x.rxWait then { x.give c (some .receive) with rxWait := x.rxWait - 1 }
  else match x.txWait with
    | u :: rest => { x.give c (some (.transmit u)) with txWait := rest }
    | [] => x.takeJob c

/-- CIPHER_CORE_DISPATCH. -/
def execCipherCoreDispatch (p : Fin 2) (core : Fin 10) (s : State) : Host.Outcome State Fault Refusal :=
  if s.wardPowered 7 then .next (s.setCipher p ((s.cipher p).dispatch core (s.hostMin p))) else .next s

/-- The epoch entries of a die that a reset makes NONE before HOLD_S of their epoch has passed. -/
def State.cutEpochs (s : State) (p : Nat) : List Nat :=
  ((List.range 4).filter fun e => s.role p e == 1 || s.role p e == 2 || (s.role p e == 3 && !s.holdPassed)).map fun e => p * 4 + e

/-- A reset that erases the key slots of a die (R319, R325): slots, epochs and frame counter. -/
def State.resetCipher (s : State) (p : Nat) : State :=
  { s with
    epochGone := s.epochGone ++ (s.cutEpochs p).filter fun k => !s.epochGone.contains k
    keys := s.keys.filter fun e => decide (e.1 / 1024 ≠ p)
    epochs := s.epochs.filter fun e => decide (e.1 / 4 ≠ p)
    ciphers := s.ciphers.filter fun e => decide (e.1 ≠ p) }

end Sys2Proof.Machine
end

