-- ==== Sys2Proof/Machine/UpdMath.lean ====
section
/-! DEFINITION. Tensor maps, masters, moments, the four rules, quantised steps and working copies
(R215 to R221, R225 to R230, R236, R240, R241). -/

namespace Sys2Proof.Machine

/-! ### Tensor map entries (R220, R221) -/

/-- A tensor map entry. -/
structure TensorEntry where
  shard : Nat
  rows : Nat
  cols : Nat
  first : Nat
  blocks : Nat
  variant : Nat
  tiles : Bool
  exchange : Bool
  mask : Nat
  dense : Bool
  bwd : Bool
  fact : Bool
  doneCtr : Nat
  doneValue : Nat
  region : Nat
  die : Nat
  grad : Nat
  touch : Nat
  moment : Nat
  mscale : Nat
  master : Nat
  anchor : Nat
  residual : Nat
  tag : Nat
  maskAt : Nat
  fwdAt : Nat
  bwdAt : Nat
  fwdType : Nat
  bwdType : Nat
  fwdSlot : Nat
  bwdSlot : Nat
  factor : Nat
deriving DecidableEq, Repr

/-- The entry that 192 bytes spell. -/
def tensorEntry (d : List Byte) : TensorEntry :=
  let fl := fieldAt d 0x19 1
  { shard := fieldAt d 0 8, rows := fieldAt d 8 4, cols := fieldAt d 0xC 4, first := fieldAt d 0x10 4
    blocks := fieldAt d 0x14 4, variant := fieldAt d 0x18 1
    tiles := bitOf fl 0, exchange := bitOf fl 1, mask := bitsOf fl 3 2, dense := bitOf fl 4, bwd := bitOf fl 5
    fact := bitOf fl 6, doneCtr := fieldAt d 0x1A 2 % 2 ^ 14, doneValue := fieldAt d 0x1C 2
    region := bitsOf (fieldAt d 0x1E 2) 4 0, die := bitsOf (fieldAt d 0x1E 2) 6 5
    grad := fieldAt d 0x20 8, touch := fieldAt d 0x28 8, moment := fieldAt d 0x30 8, mscale := fieldAt d 0x38 8
    master := fieldAt d 0x40 8, anchor := fieldAt d 0x48 8, residual := fieldAt d 0x50 8, tag := fieldAt d 0x58 8
    maskAt := fieldAt d 0x60 8, fwdAt := fieldAt d 0x68 8, bwdAt := fieldAt d 0x70 8
    fwdType := fieldAt d 0x78 1 % 64, bwdType := fieldAt d 0x79 1 % 64
    fwdSlot := fieldAt d 0x7A 2 % 2 ^ 14, bwdSlot := fieldAt d 0x7C 2 % 2 ^ 14, factor := fieldAt d 0x80 8 }

/-- Blocks of the whole tensor. -/
def TensorEntry.total (e : TensorEntry) : Nat :=
  if e.tiles then e.rows / 16 * (e.cols / 16) else e.rows * e.cols / 256

/-- Row and column of parameter i of block b of the tensor (R221). -/
def TensorEntry.param (e : TensorEntry) (b i : Nat) : Nat × Nat :=
  if e.tiles then
    let t := e.cols / 16
    (b / t * 16 + i / 16, b % t * 16 + i % 16)
  else ((256 * b + i) / e.cols, (256 * b + i) % e.cols)

/-- Row and column of all 256 parameters of a block. -/
def TensorEntry.places (e : TensorEntry) (b : Nat) : List (Nat × Nat) := (List.range 256).map (e.param b)

/-- The mode of the module (R215): compatibility. -/
def State.compat (s : State) : Bool := s.flag Reg.UPD_CTRL 0

/-- Bytes of a block's master, moment codes and journal entry. -/
def masterSize (c : Bool) : Nat := if c then 1024 else 768
def momentSize (c : Bool) : Nat := if c then 2048 else 512
def journalSize (c : Bool) : Nat := if c then 1056 else 288

/-! ### Masters (R216) -/

/-- 2^n as an exact value. -/
def pow2 (n : Int) : Num := .fin false 1 n

/-- The value of a native master. -/
def masterValue (hi r : Nat) : Word :=
  let k := signed 8 r
  ((decodeElem 1 hi).add (.fin (decide (k < 0)) k.natAbs ((max (bitsOf hi 14 7) 1 : Nat) - 142))).toF32 .rne false

/-- The encoding of a new master: hi, remainder, and whether it saturated. -/
def encodeMaster (x : Word) : Nat × Nat × Bool :=
  let hi := (encodeElem 1 .rne true (ofF32 x)).code
  if isNaN32 x then (0x7F7F, 0, true)
  else if bitsOf hi 14 7 = 255 then ((if bitOf x.toNat 31 then 0xFF7F else 0x7F7F), 0, true)
  else
    let u : Int := (max (bitsOf hi 14 7) 1 : Nat) - 142
    match (ofF32 x).add (decodeElem 1 hi).neg with
    | .fin neg m e =>
      let q : Int := roundQ .rne (shlInt m (e - u)) (shlInt 1 (u - e))
      (hi, unsigned 8 (max (-128) (min 127 (if neg then -q else q))), false)
    | _ => (hi, 0, false)

/-- An FP32 master, saturated (R230). -/
def saturateMaster (x : Word) : Word :=
  if isNaN32 x then 0x7F7FFFFF else if magOf x = 0x7F800000 then (if bitOf x.toNat 31 then 0xFF7FFFFF else 0x7F7FFFFF) else x

/-- The masters of a block. -/
def decodeMasters (c : Bool) (d : List Byte) : List Word :=
  if c then bytesLanes (d.take 1024)
  else ((halves (d.take 512)).zip ((d.drop 512).take 256)).map fun p => masterValue p.1 p.2.toNat

/-- The bytes of a block's masters and how many saturated under R216. Parameters that are `kept` keep their
old bytes. -/
def encodeMasters (c : Bool) (old : List Byte) (xs : List Word) (kept : List Bool) : List Byte × Nat :=
  if c then
    (((xs.zip (kept.zip (bytesLanes old))).map fun p => if p.2.1 then p.2.2 else saturateMaster p.1).flatMap
      fun w => leBytes 4 w.toNat, 0)
  else
    let prev := (halves (old.take 512)).zip ((old.drop 512).take 256)
    let es := (xs.zip (kept.zip prev)).map fun p =>
      if p.2.1 then (p.2.2.1, p.2.2.2.toNat, false) else encodeMaster p.1
    (es.flatMap (fun e => leBytes 2 e.1) ++ es.map (fun e => BitVec.ofNat 8 e.2.1), (es.filter fun e => e.2.2).length)

/-! ### Half-blocks and quantised steps (R217, R230) -/

/-- The FP16 code of a / lim rounded toward +infinity, at most 65,504. -/
def scale16 (a : Word) (lim : Nat) : Nat :=
  match ofF32 a with
  | .fin _ m e =>
    let (n, lsb) := roundMag .up 10 (some (-14)) m lim e
    if n = 0 then 0
    else if lsb > 5 then 0x7BFF
    else if n < 1024 then n
    else (lsb + 25).toNat * 1024 + (n - 1024)
  | _ => 0x7BFF

/-- x / s rounded in a mode, by magnitude; s is not zero. -/
def quotient (md : Rnd) (x : Word) (s : Num) : Int :=
  match ofF32 x, s with
  | .fin neg m e, .fin _ n f =>
    let q : Int := roundQ md (shlInt m (e - f)) (n * shlInt 1 (f - e))
    if neg then -q else q
  | .inf neg, _ => if neg then -(2 ^ 20) else 2 ^ 20
  | _, _ => 0

/-- A group of values quantised against a shared scale: the FP16 scale, the codes, and how many were
clamped. The values come with their draws. -/
def quantise (lim : Nat) (rnd : Nat) (xs : List (Word × Nat)) : Nat × List Int × Nat :=
  let vs := xs.map Prod.fst
  if vs.any isNaN32 then
    (Config.nanGroup lim vs 0 % 0x7C00,
      (List.range xs.length).map fun i => ((Config.nanGroup lim vs (i + 1) % (lim + 1) : Nat) : Int), 0)
  else
    let a : Word := BitVec.ofNat 32 (vs.foldl (fun m w => max m (magOf w)) 0)
    if magOf a = 0 then (0, xs.map fun _ => 0, 0)
    else
      let sc := scale16 a lim
      let s := decodeElem 2 sc
      let qs := xs.map fun p => quotient (rndOf (if rnd = 0 then 0 else 2) p.2) p.1 s
      (sc, qs.map fun q => max (-(lim : Int)) (min lim q), (qs.filter fun q => decide (lim < q.natAbs)).length)

/-- code × scale, exact in FP32. -/
def codeTimes (c : Int) (sc : Nat) : Word :=
  ((Num.fin (decide (c < 0)) c.natAbs 0).mul (decodeElem 2 sc)).toF32 .rne false

/-- The moments of a block. -/
structure Moments where
  m : List Word
  v : List Word
deriving DecidableEq, Repr

/-- The moments that stored codes and scales give (R217). -/
def decodeMoments (c : Bool) (codes scales : List Byte) : Moments :=
  if c then ⟨bytesLanes (codes.take 1024), bytesLanes ((codes.drop 1024).take 1024)⟩
  else
    let sc := halves scales
    let at_ (j i : Nat) : Nat := sc.getD (2 * j + i / 128) 0
    ⟨((codes.take 256).zipIdx).map fun p => codeTimes p.1.toInt (at_ 0 p.2),
      (((codes.drop 256).take 256).zipIdx).map fun p =>
        let r := codeTimes p.1.toNat (at_ 1 p.2)
        fmul .rne r r⟩

/-- Native codes and scales of one moment and its clamps: two half-blocks. -/
def encodeHalves (lim rnd : Nat) (xs : List Word) (us : List Nat) : List Byte × List Byte × Nat :=
  let gs := (groupsOf 128 2 (xs.zip us)).map (quantise lim rnd)
  (gs.flatMap fun g => g.2.1.map fun q => BitVec.ofNat 8 (unsigned 8 q), gs.flatMap fun g => leBytes 2 g.1,
    gs.foldl (fun n g => n + g.2.2) 0)

/-- The moments written for a block: m and v where the rule writes them, else the old bytes; codes, scales,
clamps (R217, R228). -/
def encodeMoments (c : Bool) (codes scales : List Byte) (new : Moments) (wm wv : Bool) (rnd : Nat)
    (um uv : List Nat) : List Byte × List Byte × Nat :=
  if c then
    ((if wm then laneBytes new.m else codes.take 1024) ++ (if wv then laneBytes new.v else (codes.drop 1024).take 1024),
      [], 0)
  else
    let (mc, ms, mn) := if wm then encodeHalves 127 rnd new.m um else (codes.take 256, scales.take 4, 0)
    let (vc, vs, vn) := if wv then encodeHalves 255 rnd (new.v.map fsqrt) uv else ((codes.drop 256).take 256, scales.drop 4, 0)
    (mc ++ vc, ms ++ vs, mn + vn)

/-! ### The rules (R228, R229) -/

/-- FP32 one. -/
def one32 : Word := 0x3F800000

/-- Negation. -/
def fneg (a : Word) : Word := a ^^^ 0x80000000

/-- pow(b, t) by binary exponentiation, over the given number of bits of t. -/
def powBits (b : Word) (t : Nat) : Nat → Word
  | 0 => one32
  | n + 1 =>
    let r := powBits b (t / 2) n
    let q := fmul .rne r r
    if t % 2 = 1 then fmul .rne q b else q

/-- pow(b, t) of R228. -/
def powT (b : Word) (t : Nat) : Word := powBits b t 32

/-- RULE, NESTEROV, BIAS and ENABLE of a variant. -/
def Variant.rule (v : Variant) : Nat := bitsOf v.ctl.toNat 1 0
def Variant.nesterov (v : Variant) : Bool := bitOf v.ctl.toNat 30
def Variant.bias (v : Variant) : Bool := bitOf v.ctl.toNat 29
def Variant.enabled (v : Variant) : Bool := bitOf v.ctl.toNat 31

/-- b x + (1 - b) y in the order written. -/
def blend (b x y : Word) : Word := fadd .rne (fmul .rne b x) (fmul .rne (fsub .rne one32 b) y)

/-- One parameter under a rule other than FACTORED: u before decay, m, v. -/
def ruleStep (p : Variant) (c1 c2 g m v : Word) : Word × Word × Word :=
  if p.rule = 0 then
    let m' := fadd .rne (fmul .rne p.beta1 m) g
    (if p.nesterov then fadd .rne g (fmul .rne p.beta1 m') else m', m', v)
  else if p.rule = 1 then
    let m' := blend p.beta1 m g
    let v' := fadd .rne (fmul .rne p.beta2 v) (fmul .rne (fsub .rne one32 p.beta2) (fmul .rne g g))
    let mh := if p.bias then fdiv .rne m' c1 else m'
    let vh := if p.bias then fdiv .rne v' c2 else v'
    (fdiv .rne mh (fadd .rne (fsqrt vh) p.eps), m', v')
  else
    let c := blend p.beta1 m g
    let u := if isNaN32 c then Config.signNaN c else if magOf c = 0 then 0
      else if bitOf c.toNat 31 then fneg one32 else one32
    (u, blend p.beta2 m g, v)

/-- The FACTORED direction of one parameter: d of R229, and m. -/
def factorStep (p : Variant) (first : Bool) (rsum r c g m : Word) : Word × Word :=
  let d := if first ∨ isZero32 rsum then 0
    else fdiv .rne g (fadd .rne (fsqrt (fdiv .rne (fmul .rne r c) rsum)) p.eps)
  if isZero32 p.beta1 then (d, m)
  else
    let m' := blend p.beta1 m d
    (m', m')

/-- The moved master of R230 in native mode: code and scale. -/
def moveNative (x lr : Word) (c : Int) (sc : Nat) : Word :=
  fadd .rne x (fmul .rne (fneg lr) (codeTimes c sc))

/-- The moved master of R230 in compatibility mode. -/
def moveCompat (x lr u : Word) : Word := fadd .rne x (fmul .rne (fneg lr) u)

/-! ### Working copies (R236) -/

/-- One side's place and coding: base, format, form, slot, row width of its layout, elements. -/
structure CopySide where
  base : Nat
  fmt : Nat
  form : Nat
  slot : Nat
  width : Nat
  count : Nat
deriving DecidableEq, Repr

/-- The first working copy. -/
def TensorEntry.fwd (e : TensorEntry) : CopySide :=
  ⟨e.fwdAt, e.fwdType % 16, e.fwdType / 16, e.fwdSlot, e.cols, e.rows * e.cols⟩
/-- The second working copy. -/
def TensorEntry.bwdSide (e : TensorEntry) : CopySide :=
  ⟨e.bwdAt, e.bwdType % 16, e.bwdType / 16, e.bwdSlot, e.rows, e.rows * e.cols⟩

/-- Bytes of a copy's elements. -/
def CopySide.bytes (p : CopySide) : Nat := (p.count * fmtBits p.fmt + 7) / 8
/-- Where its block scales begin: the first 64-byte boundary after the elements. -/
def CopySide.scales (p : CopySide) : Nat := (p.base + p.bytes + 63) / 64 * 64
/-- Bytes of its block scales. -/
def CopySide.scaleCount (p : CopySide) : Nat := if p.form < 2 then 0 else p.count / blockLen p.form
/-- All the bytes of a copy. -/
def CopySide.span (p : CopySide) : Nat := p.scales - p.base + p.scaleCount

/-- Runs of neighbouring elements of a copy that a block fills: first element and values. -/
def TensorEntry.runs (e : TensorEntry) (bwd : Bool) (b : Nat) (xs : List Word) : List (Nat × List Word) :=
  if !e.tiles then [(256 * b, xs)]
  else
    let t := e.cols / 16
    let r := b / t * 16
    let c := b % t * 16
    (List.range 16).map fun j =>
      if bwd then ((c + j) * e.rows + r, (List.range 16).map fun i => xs.getD (i * 16 + j) 0)
      else ((r + j) * e.cols + c, (xs.drop (16 * j)).take 16)

/-- An MX32 block of a 16 × 16 tile spans the neighbouring tile: the run of both, lower columns first. -/
def joinRuns (b : Nat) (own other : List (Nat × List Word)) : List (Nat × List Word) :=
  (own.zip other).map fun p => if b % 2 = 0 then (p.1.1, p.1.2 ++ p.2.2) else (p.1.1 - 16, p.2.2 ++ p.1.2)

/-- The bytes of one run of a copy: elements and scales with their addresses, and its conversions. -/
def CopySide.encode (p : CopySide) (t : Num) (start : Nat) (xs : List Word) : List (Nat × List Byte) × List Conv :=
  let vs := xs.map ofF32
  let bits := fmtBits p.fmt
  let at_ := p.base + start * bits / 8
  if p.form < 2 then
    let es := vs.map fun x => encodePlain p.fmt p.form 0 false t x 0
    let ds := decodeAll p.fmt p.form t (es.map Prod.fst) []
    ([(at_, packCodes bits (es.map Prod.fst))], (vs.zip (ds.zip es)).map fun q => ⟨q.1, q.2.1, q.2.2.2⟩)
  else
    let bs := (groupsOf (blockLen p.form) vs.length vs).map fun g => encodeBlock p.fmt p.form 0 false t (g.map fun x => (x, 0))
    let es := bs.flatMap fun b => b.2
    let ds := decodeAll p.fmt p.form t (es.map Prod.fst) (bs.map Prod.fst)
    ([(at_, packCodes bits (es.map Prod.fst)),
      (p.scales + start / blockLen p.form, bs.map fun b => BitVec.ofNat 8 b.1)],
      (vs.zip (ds.zip es)).map fun q => ⟨q.1, q.2.1, q.2.2.2⟩)

end Sys2Proof.Machine
end

