-- ==== Sys2Proof/Machine/Codec.lean ====
section
/-! DEFINITION. Selection, value tables, chunks and their coding (R274 to R288, R307). -/

namespace Sys2Proof.Machine

/-! ### Sections and statistics (R273 to R277) -/

/-- A section table entry. -/
structure Section where
  start : Nat
  params : Nat
  master : Nat
  anchor : Nat
  residual : Nat
  slot : Nat
deriving DecidableEq, Repr

/-- The entry that 64 bytes spell. -/
def sectionOf (d : List Byte) : Section :=
  ⟨fieldAt d 0 8, fieldAt d 8 8, fieldAt d 0x10 8, fieldAt d 0x18 8, fieldAt d 0x20 8, fieldAt d 0x28 2 % 2 ^ 14⟩

/-- The histogram bin of a finite value that is not zero: exponent field and top three fraction bits. -/
def deltaBin (d : Word) : Nat := bitsOf d.toNat 30 20

/-- The delta of R274: not finite is treated as 0. -/
def usableDelta (d : Word) : Word := if isFinite32 d then d else 0

/-- A count per number. -/
def bump (m : Map Nat) (k : Nat) : Map Nat := Map.put (fun _ => 0) m k (Map.get (fun _ => 0) m k + 1)

/-- The E2M1 magnitude code the proxy of R275 gives: 6 |d| / a under RNE and SATURATE. -/
def proxyCode (d a : Word) : Nat :=
  let ad : Word := BitVec.ofNat 32 (magOf d)
  (encodeElem 5 .rne false (ofF32 (fdiv .rne (fmul .rne 0x40C00000 ad) a))).code % 8

/-- What the first pass accumulates of a section: histogram, largest magnitude, proxy counts by code × 2048 +
bin. -/
structure FirstPass where
  hist : Map Nat := []
  amax : Nat := 0
  proxy : Map Nat := []
deriving DecidableEq, Repr

/-- One aligned group of 16 deltas enters the statistics. -/
def FirstPass.group (f : FirstPass) (ds : List Word) : FirstPass :=
  let a : Word := BitVec.ofNat 32 (ds.foldl (fun m d => max m (magOf d)) 0)
  ds.foldl (fun (g : FirstPass) d =>
    if magOf d = 0 then g
    else { hist := bump g.hist (deltaBin d), amax := max g.amax (magOf d)
           proxy := bump g.proxy (proxyCode d a * 2048 + deltaBin d) }) f

/-- The first pass over the deltas of a section. -/
def firstPass (ds : List Word) : FirstPass :=
  (groupsOf 16 ds.length ds).foldl FirstPass.group {}

/-- The count in bins b and above. -/
def countFrom (m : Map Nat) (lo hi : Nat) : Nat :=
  m.foldl (fun n e => if lo ≤ e.1 ∧ e.1 < hi then n + e.2 else n) 0

/-- b* of R276: the highest bin whose count with all higher ones reaches the target. -/
def thresholdBin (h : Map Nat) (target : Nat) : Nat :=
  ((List.range 2048).reverse.find? fun b => decide (target ≤ countFrom h b 2048)).getD 0

/-- A magnitude over a divisor rounded up to a power of two in 2^-126 to 2^127; 1.0 for 0. -/
def tensorScale (amax : Nat) (den : Nat) : Word :=
  match ofF32 (BitVec.ofNat 32 amax) with
  | .fin _ m e =>
    if m = 0 then one32
    else
      let k := ratioLog m den
      let k' := if shlInt m (-k) = shlInt den k then k else k + 1
      (pow2 (max (-126) (min 127 (k' + e)))).toF32 .rne false
  | _ => one32

/-- RICE_K of R276. -/
def riceK (params n : Nat) : Nat := if n = 0 then 0 else min 11 (Nat.log2 (params / n) - 1)

/-- A node of the code tree: weight, symbols in order. -/
abbrev CodeNode := Nat × List Nat

/-- One node stands before another: less weight, then the smaller symbol. -/
def nodeBefore (a b : CodeNode) : Bool :=
  decide (a.1 < b.1) || (decide (a.1 = b.1) && decide (a.2.foldl min 8 < b.2.foldl min 8))

/-- Puts a node at its place in a sorted list. -/
def insertNode (n : CodeNode) : List CodeNode → List CodeNode
  | [] => [n]
  | m :: r => if nodeBefore n m then n :: m :: r else m :: insertNode n r

/-- Merges until one node is left; each merge adds one to the depth of its symbols. -/
def mergeNodes : Nat → List CodeNode → List Nat → List Nat
  | 0, _, ls => ls
  | f + 1, a :: b :: r, ls =>
    let syms := a.2 ++ b.2
    mergeNodes f (insertNode (a.1 + b.1, syms) r) (ls.zipIdx.map fun p => if syms.contains p.2 then p.1 + 1 else p.1)
  | _ + 1, _, ls => ls

/-- The code lengths that eight weights give (R277). -/
def codeLengths (ws : List Nat) : List Nat :=
  let nodes := (ws.zipIdx.map fun p => (p.1, [p.2])).foldr insertNode []
  mergeNodes 8 nodes (List.replicate 8 0)

/-- One code word: symbol, length, bits. -/
structure CodeWord where
  sym : Nat
  len : Nat
  bits : Nat
deriving DecidableEq, Repr

/-- Canonical code words by length, then symbol (R277). -/
def canonical (lens : List Nat) : List CodeWord :=
  let order := (List.range 16).flatMap fun l => ((List.range 8).filter fun c => decide (lens.getD c 0 = l)).map fun c => (c, l)
  (order.foldl (fun (a : List CodeWord × Option (Nat × Nat)) p =>
    let b := match a.2 with
      | none => 0
      | some (w, l) => (w + 1) * 2 ^ (p.2 - l)
    (a.1 ++ [⟨p.1, p.2, b⟩], some (b, p.2))) ([], none)).1

/-- The lengths satisfy the Kraft equality. -/
def kraft (lens : List Nat) : Bool :=
  lens.length == 8 && lens.foldl (fun n l => n + 2 ^ (15 - l)) 0 == 2 ^ 15 && lens.all fun l => decide (1 ≤ l ∧ l ≤ 15)

/-- R276 and R277 after the first pass. -/
def sectStat (f : FirstPass) (params keep : Nat) : SectStat :=
  let b := thresholdBin f.hist (max 1 (params / 2 ^ keep))
  { t := tensorScale f.amax 2688, bin := b, k := riceK params (countFrom f.hist b 2048)
    lens := codeLengths ((List.range 8).map fun c => 1 + countFrom f.proxy (c * 2048 + b) (c * 2048 + 2048)) }

/-! ### Selection and quantisation (R278) -/

/-- A block record. -/
structure BlockRec where
  block : Nat
  pos : List Nat
  codes : List Nat
  scales : List Nat
deriving DecidableEq, Repr

/-- The least bin from b on that keeps at most `cap` values. -/
def blockBin (ds : List Word) (cap : Nat) : Nat → Nat → Nat
  | 0, b => b
  | f + 1, b =>
    if cap < (ds.filter fun d => decide (magOf d ≠ 0) && decide (b * 2 ^ 20 ≤ magOf d)).length then blockBin ds cap f (b + 1)
    else b

/-- The run scale code: the largest magnitude / 6 rounded up to E4M3, in 2^-6 to 448. -/
def runScale (a : Word) : Nat := if magOf a = 0 then 0x08 else fineCode 5 a

/-- A run of up to 16 values, with draws, quantised against t: scale code, codes, decoded values and the
conversions the census sees. -/
def quantRun (rnd : Nat) (t : Word) (run : List (Word × Nat)) : Nat × List Nat × List Word × List Conv :=
  let ys := run.map fun p => (fdiv .rne p.1 t, p.2)
  let sc := runScale (amaxOf (ys.map Prod.fst))
  let s := blockScale 3 sc
  let es := ys.map fun p => encodeElem 5 (rndOf (if rnd = 0 then 0 else 2) p.2) false (ofF32 (divF32 .rne (ofF32 p.1) s))
  let vs := es.map fun e => ((decodeElem 5 e.code).mul s)
  (sc, es.map fun e => e.code, vs.map fun v => fmul .rne (v.toF32 .rne false) t,
    (ys.zip (es.zip vs)).map fun q => ⟨ofF32 q.1.1, q.2.2, q.2.1.ovf⟩)

/-- Selected values quantised in runs: the record's codes and scales, the decoded values, the conversions. -/
def quantRuns (rnd : Nat) (t : Word) (xs : List (Word × Nat)) : List Nat × List Nat × List Word × List Conv :=
  let rs := (groupsOf 16 xs.length xs).map (quantRun rnd t)
  (rs.flatMap fun r => r.2.1, rs.map fun r => r.1, rs.flatMap fun r => r.2.2.1, rs.flatMap fun r => r.2.2.2)

/-- The decoded value of each code of a record under a tensor scale. -/
def recordValues (r : BlockRec) (t : Word) : List Word :=
  r.codes.zipIdx.map fun p =>
    fmul .rne (((decodeElem 5 p.1).mul (blockScale 3 (r.scales.getD (p.2 / 16) 0))).toF32 .rne false) t

/-! ### Raw records (R282) -/

/-- Fields of w bits packed least significant first into bytes. -/
def packLow (w : Nat) (l : List Nat) : List Byte :=
  leBytes ((w * l.length + 7) / 8) (l.foldr (fun x a => x % 2 ^ w + a * 2 ^ w) 0)

/-- n fields of w bits from bytes. -/
def unpackLow (w n : Nat) (bs : List Byte) : List Nat :=
  (List.range n).map fun i => bitsOf (leNat bs) (w * i + w - 1) (w * i)

/-- Bytes of a record of n parameters before and with its pad. -/
def recordBody (n : Nat) : Nat := 8 + (3 * n + 1) / 2 + (n + 1) / 2 + (n + 15) / 16
def recordSize (n : Nat) : Nat := (recordBody n + 3) / 4 * 4

/-- The raw bytes of a record. -/
def rawRecord (r : BlockRec) : List Byte :=
  let n := r.pos.length
  leBytes 4 r.block ++ leBytes 2 n ++ [0, 0] ++ packLow 12 r.pos ++ packLow 4 r.codes
    ++ r.scales.map (fun c => BitVec.ofNat 8 c) ++ List.replicate (recordSize n - recordBody n) 0

/-- The records of raw data; none where it is not whole records. -/
def parseRecords : Nat → List Byte → Option (List BlockRec)
  | 0, bs => if bs.isEmpty then some [] else none
  | f + 1, bs =>
    if bs.isEmpty then some []
    else
      let n := fieldAt bs 4 2
      if n = 0 ∨ 4096 < n ∨ bs.length < recordSize n then none
      else
        let p := (3 * n + 1) / 2
        let c := (n + 1) / 2
        let r : BlockRec := ⟨fieldAt bs 0 4, unpackLow 12 n (slice bs 8 p), unpackLow 4 n (slice bs (8 + p) c),
          (slice bs (8 + p + c) ((n + 15) / 16)).map BitVec.toNat⟩
        (parseRecords f (bs.drop (recordSize n))).map fun l => r :: l

/-! ### Coded form (R283) -/

/-- A field, most significant bit first. -/
def msbBits (n v : Nat) : List Bool := (List.range n).reverse.map fun i => bitOf v i

/-- The gaps of ascending positions. -/
def gapsOf (pos : List Nat) : List Nat :=
  (pos.foldl (fun (a : List Nat × Option Nat) p =>
    (a.1 ++ [match a.2 with
      | none => p + 1
      | some q => p - q], some p)) ([], none)).1

/-- The code word of a magnitude. -/
def wordOf (ws : List CodeWord) (c : Nat) : List Bool :=
  match ws.find? fun w => w.sym == c with
  | some w => msbBits w.len w.bits
  | none => []

/-- A record's coded bits. -/
def codeRecord (ws : List CodeWord) (k : Nat) (r : BlockRec) : List Bool :=
  msbBits 32 r.block ++ msbBits 12 (r.pos.length - 1)
    ++ ((gapsOf r.pos).zip r.codes).flatMap (fun p =>
      List.replicate ((p.1 - 1) / 2 ^ k) true ++ false :: (msbBits k ((p.1 - 1) % 2 ^ k)
        ++ (wordOf ws (p.2 % 8) ++ [bitOf p.2 3])))
    ++ r.scales.flatMap (msbBits 8)

/-- Bits packed from bit 0 of each byte. -/
def bitsToBytes (l : List Bool) : List Byte := packLow 1 (l.map boolNat)

/-- The bits of bytes, bit 0 of each first. -/
def bytesToBits (bs : List Byte) : List Bool := bs.flatMap fun b => (List.range 8).map fun i => b.getLsbD i

/-- Takes a field, most significant bit first. -/
def takeBits (n : Nat) (l : List Bool) : Option (Nat × List Bool) :=
  if l.length < n then none else some ((l.take n).foldl (fun a b => 2 * a + boolNat b) 0, l.drop n)

/-- Takes a run of one-bits and the zero-bit after it. -/
def takeUnary : List Bool → Option (Nat × List Bool)
  | [] => none
  | false :: r => some (0, r)
  | true :: r => (takeUnary r).map fun p => (p.1 + 1, p.2)

/-- Takes a code word. -/
def takeWord (ws : List CodeWord) (l : List Bool) : Option (Nat × List Bool) :=
  match ws.find? fun w => decide (w.len ≤ l.length) && l.take w.len == msbBits w.len w.bits with
  | some w => some (w.sym, l.drop w.len)
  | none => none

/-- Takes n selected parameters: positions and codes. -/
def takePairs (ws : List CodeWord) (k : Nat) : Nat → Option Nat → List Bool → Option (List (Nat × Nat) × List Bool)
  | 0, _, l => some ([], l)
  | n + 1, last, l => do
    let (q, l1) ← takeUnary l
    let (r, l2) ← takeBits k l1
    let (c, l3) ← takeWord ws l2
    let (sg, l4) ← takeBits 1 l3
    let g := q * 2 ^ k + r + 1
    let p := match last with
      | none => g - 1
      | some x => x + g
    let (rest, l5) ← takePairs ws k n (some p) l4
    some ((p, c + 8 * sg) :: rest, l5)

/-- Takes n run scales. -/
def takeScales : Nat → List Bool → Option (List Nat × List Bool)
  | 0, l => some ([], l)
  | n + 1, l => do
    let (x, l1) ← takeBits 8 l
    let (r, l2) ← takeScales n l1
    some (x :: r, l2)

/-- Takes one coded record. -/
def takeRecord (ws : List CodeWord) (k : Nat) (l : List Bool) : Option (BlockRec × List Bool) := do
  let (b, l1) ← takeBits 32 l
  let (n, l2) ← takeBits 12 l1
  let (ps, l3) ← takePairs ws k (n + 1) none l2
  let (ss, l4) ← takeScales ((n + 16) / 16) l3
  some (⟨b, ps.map Prod.fst, ps.map Prod.snd, ss⟩, l4)

/-- Expands a coded body to exactly `raw` bytes (R285); none is a SIZE_FAULT. -/
def expandBody (ws : List CodeWord) (k : Nat) : Nat → Nat → List Bool → Option (List Byte)
  | 0, _, _ => none
  | f + 1, raw, l =>
    if raw = 0 then (if 8 ≤ l.length then none else some [])
    else do
      let (r, l1) ← takeRecord ws k l
      let bs := rawRecord r
      if raw < bs.length then none
      else (expandBody ws k f (raw - bs.length) l1).map fun rest => bs ++ rest

/-! ### Chunks (R282 to R286) -/

/-- A chunk. -/
structure Chunk where
  kind : Nat
  escape : Bool
  table : Nat
  rawLen : Nat
  body : List Byte
  crc : Nat
deriving DecidableEq, Repr

/-- A chunk's bytes. -/
def Chunk.bytes (c : Chunk) : List Byte :=
  leBytes 1 c.kind ++ leBytes 1 (boolNat c.escape) ++ leBytes 2 c.table ++ leBytes 4 c.rawLen ++ leBytes 4 c.body.length
    ++ leBytes 4 c.crc ++ c.body

/-- An escaped chunk over raw data. -/
def escaped (kind table : Nat) (raw : List Byte) : Chunk := ⟨kind, true, table, raw.length, raw, (crc32c raw).toNat⟩

/-- A DATA chunk over records; the raw form where the coded one would not be shorter (R284). -/
def dataChunk (table : Nat) (lens : List Nat) (k : Nat) (rs : List BlockRec) : Chunk :=
  let raw := rs.flatMap rawRecord
  let coded := bitsToBytes (rs.flatMap (codeRecord (canonical lens) k))
  if coded.length < raw.length then ⟨2, false, table, raw.length, coded, (crc32c raw).toNat⟩ else escaped 2 table raw

/-- The TABLE chunk of a section. -/
def tableChunk (table start params : Nat) (t : Word) (lens : List Nat) (k : Nat) : Chunk :=
  escaped 1 table (leBytes 8 start ++ leBytes 8 params ++ leBytes 4 t.toNat ++ packLow 4 lens ++ leBytes 1 k ++ List.replicate 7 0)

/-- Records gathered into groups of at most 65,536 raw bytes. -/
def packRecords (rs : List BlockRec) : List (List BlockRec) :=
  let r := rs.foldl (fun (a : List (List BlockRec) × List BlockRec × Nat) x =>
    let n := recordSize x.pos.length
    if 65536 < a.2.2 + n then (a.1 ++ [a.2.1], [x], n) else (a.1, a.2.1 ++ [x], a.2.2 + n)) ([], [], 0)
  if r.2.1.isEmpty then r.1 else r.1 ++ [r.2.1]

/-- A section's stream part (R278). -/
def sectionPart (table start params : Nat) (st : SectStat) (rs : List BlockRec) : List Chunk :=
  tableChunk table start params st.t st.lens st.k :: (packRecords rs).map (dataChunk table st.lens st.k)

/-- The table that 32 raw bytes spell. -/
def chunkTable (raw : List Byte) : ChunkTable :=
  ⟨fieldAt raw 0 8, fieldAt raw 8 8, BitVec.ofNat 32 (fieldAt raw 0x10 4), unpackLow 4 8 (slice raw 0x14 4), fieldAt raw 0x18 1⟩

/-- A table a receiver can decode with. -/
def ChunkTable.sound (c : ChunkTable) : Bool := kraft c.lens && decide (c.k ≤ 11)

/-- How a chunk fares. -/
inductive Expanded where
  | size
  | crc
  | bad
  | ok (raw : List Byte)
deriving DecidableEq, Repr

/-- Expands a chunk: the size rules of R285, then its CRC. A body that is not escaped needs a table. -/
def Chunk.expand (c : Chunk) (tab : Option ChunkTable) : Expanded :=
  if c.rawLen = 0 ∨ 65536 < c.rawLen then .size
  else if c.escape then
    if c.body.length ≠ c.rawLen then .size
    else if (crc32c c.body).toNat = c.crc then .ok c.body else .crc
  else if c.rawLen ≤ c.body.length then .size
  else match tab with
    | none => .bad
    | some t =>
      match expandBody (canonical t.lens) t.k (c.rawLen + 1) c.rawLen (bytesToBits c.body) with
      | none => .size
      | some raw => if (crc32c raw).toNat = c.crc then .ok raw else .crc

/-- The header of a chunk: the chunk without its body, and CODED_LEN. -/
def chunkHead (h : List Byte) : Chunk × Nat :=
  (⟨fieldAt h 0 1, bitOf (fieldAt h 1 1) 0, fieldAt h 2 2, fieldAt h 4 4, [], fieldAt h 0xC 4⟩, fieldAt h 8 4)

/-- The chunks of joined bytes; a header or body cut short ends the list, with what is left. -/
def splitChunks : Nat → List Byte → List Chunk × List Byte
  | 0, bs => ([], bs)
  | f + 1, bs =>
    if bs.length < 16 then ([], bs)
    else
      let (c, n) := chunkHead (bs.take 16)
      if bs.length < 16 + n then ([], bs)
      else
        let r := splitChunks f (bs.drop (16 + n))
        ({ c with body := (bs.drop 16).take n } :: r.1, r.2)

/-- Numbers strictly rising. -/
def ascending : List Nat → Bool
  | a :: b :: r => decide (a < b) && ascending (b :: r)
  | _ => true

/-- A record of a DATA chunk is in order and lies within its section (R286). -/
def recordGood (start params : Nat) (r : BlockRec) : Bool :=
  ascending r.pos && r.pos.all fun p => decide (start ≤ 4096 * r.block + p) && decide (4096 * r.block + p < start + params)

/-! ### Merging rounds (R307) -/

/-- One round's records of a section with the scale they decode under. -/
structure HeldPart where
  t : Word
  recs : List BlockRec
deriving DecidableEq, Repr

/-- The parts of a section in a formed stream. -/
def partOf (chunks : List Chunk) (table : Nat) : Option HeldPart :=
  let cs := chunks.filter fun c => decide (c.table = table)
  match cs.find? fun c => c.kind == 1 with
  | none => none
  | some tc =>
    let t := chunkTable tc.body
    some ⟨t.t, (cs.filter fun c => c.kind == 2).flatMap fun c =>
      match c.expand (some t) with
      | .ok raw => (parseRecords raw.length raw).getD []
      | _ => []⟩

/-- The value a part holds at a position of a block. -/
def HeldPart.value (p : HeldPart) (block pos : Nat) : Option Word :=
  (p.recs.find? fun r => decide (r.block = block)).bind fun r =>
    match r.pos.findIdx? fun x => x == pos with
    | some i => some ((recordValues r p.t).getD i 0)
    | none => none

/-- A number put at its place in a rising list. -/
def insertUp (n : Nat) : List Nat → List Nat
  | [] => [n]
  | m :: r => if n < m then n :: m :: r else if n = m then m :: r else m :: insertUp n r

/-- The merged record of a block over some rounds, oldest first, under a scale. -/
def mergeBlock (parts : List HeldPart) (t : Word) (block : Nat) : BlockRec :=
  let ps := parts.foldl (fun l p => ((p.recs.filter fun r => decide (r.block = block)).flatMap fun r => r.pos).foldl
    (fun l x => insertUp x l) l) []
  let us := ps.map fun x => (parts.filterMap fun p => p.value block x).foldl (fadd .rne) 0
  let q := quantRuns 0 t (us.map fun u => (u, 0))
  ⟨block, ps, q.1, q.2.1⟩

/-- Weights from exact code counts. -/
def exactLengths (rs : List BlockRec) : List Nat :=
  codeLengths ((List.range 8).map fun c => 1 + (rs.flatMap fun r => r.codes.filter fun x => decide (x % 8 = c)).length)

/-- ⌈log2 n⌉. -/
def ceilLog2 (n : Nat) : Nat := if n ≤ 1 then 0 else Nat.log2 (n - 1) + 1

/-- The largest of some positive scales. -/
def largestScale (ts : List Word) : Word := BitVec.ofNat 32 (ts.foldl (fun m t => max m (magOf t)) 0)

/-- A section of a span stream over rounds whose parts are given, oldest first, `span` rounds in all. -/
def spanSection (table start params span : Nat) (parts : List HeldPart) : List Chunk :=
  let t := fmul .rne (largestScale (parts.map fun p => p.t)) ((pow2 (ceilLog2 span)).toF32 .rne false)
  let blocks := (parts.flatMap fun p => p.recs.map fun r => r.block).foldl (fun l b => insertUp b l) []
  let rs := blocks.map (mergeBlock parts t)
  let n := rs.foldl (fun a r => a + r.pos.length) 0
  sectionPart table start params ⟨t, 0, riceK params n, exactLengths rs⟩ rs

end Sys2Proof.Machine
end

