-- ==== Sys2Proof/Machine/SeqMat.lean ====
section
/-! DEFINITION. The matrix arrays: MMA and TSTORE slots, acceptance, re-sight, stand-ins and chains
(R85, R86, R93 to R98, R101, R116 to R119, R127 to R134, R147, R148, R159, R160, R168, R430). -/

namespace Sys2Proof.Machine

/-! ### Arithmetic of one accumulation (R92 to R96) -/

/-- An element as an array takes it: subnormals flush to zero of their sign (R101). -/
def arrayElem (f code : Nat) : Num :=
  match decodeElem f code with
  | .fin neg m e =>
    if (f = 1 ∨ f = 2 ∨ f = 3 ∨ f = 4) ∧ m ≠ 0 then
      let low : Int := if f = 1 then -126 else if f = 3 then -6 else -14
      if (Nat.log2 m : Int) + e < low then .fin neg 0 0 else .fin neg m e
    else .fin neg m e
  | n => n

/-- A product in A20 (R93). -/
def prod20 (a b : Num) : Word := (a.mul b).toA20

/-- An addition in A20 (R94). -/
def add20 (a b : Word) : Word := ((ofF32 a).add (ofF32 b)).toA20

/-- The sum that one reduction cycle adds: one product, or four as (p0 + p1) + (p2 + p3). -/
def cycleSum : List Word → Word
  | [p] => p
  | [p0, p1, p2, p3] => add20 (add20 p0 p1) (add20 p2 p3)
  | l => l.foldl add20 0

/-- The partial sum of one promotion period: 64 reduction cycles from +0. -/
def periodSum (cs : List Word) : Word := cs.foldl add20 0

/-- The reduction of one output element, g indices per cycle: periods of 64 cycles, each promoted into FP32
with flush (R95). -/
def reduceElem (g : Nat) (a b : List Num) : Word :=
  let ps := (a.zip b).map fun p => prod20 p.1 p.2
  let cs := (groupsOf g ps.length ps).map cycleSum
  ((groupsOf 64 cs.length cs).map periodSum).foldl faddFlush 0

/-- Reduction indices per cycle of a pair of formats; none where the pair is not one of R97. -/
def pairRate (fa fb : Nat) : Option Nat :=
  let w (f : Nat) := f = 8 ∨ f = 9
  let b8 (f : Nat) := f = 3 ∨ f = 4 ∨ f = 6
  let b4 (f : Nat) := f = 5 ∨ f = 7
  if fa = 0 ∨ fb = 0 ∨ 9 < fa ∨ 9 < fb then none
  else if w fa ∨ w fb then (if (w fa ∧ b8 fb) ∨ (w fb ∧ b8 fa) then some 4 else none)
  else if b4 fa ∧ b4 fb then some 4 else some 1

/-! ### Operand streams (R430, R85, R86) -/

/-- The format an operand enters the array in: narrowed operands as E2M1, or as stored E4M3 in a re-sight. -/
def Operand.enters (o : Operand) (stored : Bool) : Nat := if o.narrow && !stored then 5 else o.fmt

/-- The tensor scale of an operand: 1.0 in form NONE. -/
def State.operandT (s : State) (o : Operand) : Word := if o.form = 0 then 0x3F800000 else s.slotT o.slot

/-- The codes and block-scale bytes of row i of a stream with K elements. -/
def State.streamRow (s : State) (o : Operand) (k i : Nat) : List Nat × List Nat :=
  let b := fmtBits o.fmt
  let codes := (codesOf b (s.load (o.addr + i * k * b / 8) (k * b / 8))).take k
  let l := blockLen o.form
  let scales := if o.form < 2 then [] else (s.load (o.scale + i * k / l) (k / l)).map BitVec.toNat
  (codes, scales)

/-- A row as it enters the array, and the conversions narrowing makes (R85). -/
def State.operandRow (s : State) (o : Operand) (k : Nat) (stored : Bool) (i : Nat) : List Num × List Conv :=
  let (codes, scales) := s.streamRow o k i
  if o.narrow && !stored then narrowRow o.form (ofF32 (s.operandT o)) codes scales
  else if o.form < 2 then (codes.map (arrayElem o.fmt), [])
  else
    (((groupsOf (blockLen o.form) codes.length codes).zip scales).flatMap fun g =>
      g.1.map fun c => (arrayElem o.fmt c).mul (blockScale o.form g.2), [])

/-- All rows of a stream, and its conversions in row order. -/
def State.operandRows (s : State) (o : Operand) (k : Nat) (stored : Bool) : List (List Num) × List Conv :=
  let rs := (List.range o.rows).map (s.operandRow o k stored)
  (rs.map Prod.fst, rs.flatMap Prod.snd)

/-- The tile of one accumulation (R96, R128): elements outside the named rows and columns keep their former
contents. A tensor scale, and the product of two, is not flushed where it is subnormal (DESIGN CHOICE: assumption 63, between
R96 and R101). -/
def State.tileResult (s : State) (a b : Operand) (k : Nat) (accum : Bool) (old : List Word) (stored : Bool) : List Word :=
  let ra := (s.operandRows a k stored).1
  let rb := (s.operandRows b k stored).1
  let g := (pairRate (a.enters stored) (b.enters stored)).getD 1
  let t := fmul .rne (s.operandT a) (s.operandT b)
  (old.zipIdx).map fun p =>
    match ra[p.2 / 32]?, rb[p.2 % 32]? with
    | some x, some y =>
      let v := fmulFlush (reduceElem g x y) t
      if accum then faddFlush p.1 v else v
    | _, _ => p.1

/-- A narrowed operand of a tile passes its threshold (R116). -/
def State.passes (s : State) (o : Operand) (cs : List Conv) : Bool :=
  let sh := cfgShift (s.slotCfg o.slot)
  o.narrow && decide (o.slot ≠ 0) && decide (sh ≠ 0)
    && decide (cs.length < (cs.filter fun c => c.ovf).length * 2 ^ sh)

/-! ### The MMA descriptor (R159, R160, R430) -/

/-- The descriptor of an MMA. -/
structure MmaDesc where
  aAddr : Nat
  bAddr : Nat
  aScale : Nat
  bScale : Nat
  k : Nat
  rows : Nat
  cols : Nat
  aSlot : Nat
  bSlot : Nat
  aType : Nat
  bType : Nat
  aStep : Nat
  bStep : Nat
  dest : Nat
  chain : Nat
deriving DecidableEq, Repr

/-- The 64 bytes of an MMA descriptor read. -/
def mmaDesc (d : List Byte) : MmaDesc :=
  { aAddr := fieldAt d 0 8, bAddr := fieldAt d 8 8, aScale := fieldAt d 16 8, bScale := fieldAt d 24 8,
    k := fieldAt d 32 4, rows := fieldAt d 36 1, cols := fieldAt d 37 1,
    aSlot := fieldAt d 38 2 % 16384, bSlot := fieldAt d 40 2 % 16384, aType := fieldAt d 42 1,
    bType := fieldAt d 43 1, aStep := fieldAt d 44 4, bStep := fieldAt d 48 4, dest := fieldAt d 52 1,
    chain := fieldAt d 56 8 }

/-- Stream n of an operand: n = 0 is the first. -/
def streamOf (addr scale step n rows typ slot : Nat) : Operand :=
  let fmt := bitsOf typ 3 0
  let form := bitsOf typ 5 4
  { addr := addr + n * step
    scale := if form < 2 then 0 else scale + n * step * 8 / (blockLen form * fmtBits fmt)
    rows := rows, fmt := fmt, form := form, narrow := bitOf typ 6, slot := slot }

/-- Stream r of A and stream c of B. -/
def MmaDesc.streamA (d : MmaDesc) (r : Nat) : Operand := streamOf d.aAddr d.aScale d.aStep r d.rows d.aType d.aSlot
def MmaDesc.streamB (d : MmaDesc) (c : Nat) : Operand := streamOf d.bAddr d.bScale d.bStep c d.cols d.bType d.bSlot

/-- The bytes a stream covers: elements, and block scales. -/
def Operand.spans (o : Operand) (k : Nat) : List (Nat × Nat) :=
  let b := fmtBits o.fmt
  (o.addr, (o.rows * k * b + 7) / 8)
    :: (if o.form < 2 then [] else [(o.scale, o.rows * k / blockLen o.form)])

/-- An operand's format, form, slot, block length and step keep R73, R78, R80, R85, R103, R107 and R430. -/
def State.operandOk (s : State) (o : Operand) (k scale step : Nat) : Bool :=
  let l := blockLen o.form
  legalPair o.fmt o.form && decide (o.fmt ≤ 9) && !s.slotBad o.slot
    && (!o.narrow || (o.fmt == 3 && decide (2 ≤ o.form)))
    && (decide (o.form < 2) || (k % l == 0 && scale % 64 == 0 && step * 8 % (l * fmtBits o.fmt * 64) == 0))

/-- Where a span of an operand lies: some false in the chiplet's scratch, some true in its base die's bank
SRAM (R130). -/
def operandPlace (c : Nat) (sp : Nat × Nat) : Option Bool :=
  if scratchAt c 0 ≤ sp.1 ∧ sp.1 + sp.2 ≤ scratchAt c 0 + 0x800000 then some false
  else if bankAt (dieOf c) 0 ≤ sp.1 ∧ sp.1 + sp.2 ≤ bankAt (dieOf c) 0 + 0x40000000 then some true
  else none

/-! ### Chain descriptors (R133, R160) -/

/-- Fields of a chain descriptor. -/
def chainMembers (d : List Byte) : Nat := fieldAt d 0 1
def chainKind (d : List Byte) : Nat := fieldAt d 1 1
def chainMicro (d : List Byte) : Nat := fieldAt d 2 2
def chainRegion (d : List Byte) : Nat := fieldAt d 4 1 % 32
def chainDie (d : List Byte) : Nat := fieldAt d 5 1
def chainAddr (d : List Byte) : Nat := fieldAt d 8 8
/-- Member j: chiplet, array, tile. -/
def chainMember (d : List Byte) (j : Nat) : Nat × Nat × Nat :=
  (fieldAt d (0x10 + 4 * j) 1, fieldAt d (0x11 + 4 * j) 1, fieldAt d (0x12 + 4 * j) 1)
/-- The step a chain belongs to, kept behind the descriptor's bytes. -/
def chainTag (d : List Byte) : Nat := fieldAt d (0x10 + 4 * chainMembers d) 6

/-- All members of a chain. -/
def chainList (d : List Byte) : List (Nat × Nat × Nat) := (List.range (chainMembers d)).map (chainMember d)

/-- The position of a member that a consistent chain descriptor lists exactly once. -/
def State.chainPos (s : State) (d : List Byte) (c a t : Nat) : Option Nat :=
  let ms := chainList d
  let me := (c, a, t)
  let bad := decide (chainMembers d < 2) || decide (64 < chainMembers d) || decide (3 < chainKind d)
    || (ms.any fun m => decide (63 < m.1) || decide (35 < m.2.1) || decide (7 < m.2.2))
    || ((chainKind d == 1 || chainKind d == 2) && decide (3 < chainDie d))
    || (ms.any fun m => s.isServing m.1 != s.isServing c)
    || (ms.filter fun m => m == me).length != 1
  if bad then none else ms.findIdx? fun m => m == me

/-- The chain descriptor of tile n of a set, with the step it belongs to behind it. -/
def State.chainDesc (s : State) (base n : Nat) : List Byte :=
  let a := base + 512 * n
  let m := min 64 (leNat (s.load a 1))
  s.load a (0x10 + 4 * m) ++ leBytes 6 (s.reg Reg.WPC_WAYPOINT)

/-- The local destination of a chain on its last member (R165 records it as a range of that member's MMA). -/
def chainRange (d : List Byte) (c pos : Nat) : Option (Nat × Nat) :=
  if pos + 1 ≠ chainMembers d then none
  else if chainKind d = 0 then some (grains (scratchAt c (chainAddr d)) 4096)
  else if chainKind d = 1 ∧ chainDie d = dieOf c then some (grains (bankAt (chainDie d) (chainAddr d)) 4096)
  else none

/-- The destinations of chains whose write on this chiplet has not completed: a slot that touches one is
held (R165). -/
def Chiplet.chainRuns (x : Chiplet) (c : Nat) : List (Nat × Nat) :=
  (x.accums.filterMap fun a => if a.chain.isEmpty then none else chainRange a.chain c a.pos)
    ++ x.chainOwn.filterMap fun o => chainRange o.desc c o.pos

/-- New ranges touch a chain destination that is still to be written. -/
def Chiplet.chainHeld (x : Chiplet) (c : Nat) (new : List NewRange) : Bool :=
  new.any fun n => runsMeet n.runs (x.chainRuns c)

/-- Ranges become entries of the range table. -/
def Chiplet.enter (x : Chiplet) (new : List NewRange) : List Range :=
  new.map fun n => ⟨x.inSection, n.runs, n.write, n.until_⟩

/-! ### MMA and TSTORE -/

/-- The array set of an MMA: pairs (row, column) in ascending logical array. -/
def setTiles (f : MmaFields) : List (Nat × Nat) :=
  let cs := f.colsM1.toNat + 1
  (List.range ((f.rowsM1.toNat + 1) * cs)).map fun i => (i / cs, i % cs)

/-- The scratch offset P[PD] + DOFF × 64. -/
def Chiplet.mmaAt (x : Chiplet) (f : MmaFields) : Nat := ((x.preg f.pd.toNat).toNat + f.doff.toNat * 64) % 2 ^ 64

/-- The 64 bytes at P[PD] + DOFF × 64 of the chiplet's scratch, where they lie within it. -/
def State.mmaBytes (s : State) (x : Chiplet) (c : Nat) (f : MmaFields) : Option (List Byte) :=
  let a := x.mmaAt f
  if a + 64 ≤ 0x800000 then some (s.load (scratchAt c a) 64) else none

/-- The n-th tile of undefined words (R162). -/
def State.freeTile (s : State) (n : Nat) : List Word :=
  (List.range 1024).map fun i => (Config.free (s.freeCount + 1024 * n + i)).setWidth 32

/-- What an MMA reads beside its operands: its descriptor, and each chain descriptor. -/
def State.mmaReads (s : State) (x : Chiplet) (c : Nat) (f : MmaFields) (linked : Bool) (chain n : Nat) : List (Nat × Nat) :=
  (scratchAt c (x.mmaAt f), 64)
    :: (if linked then (List.range n).map fun i => (chain + 512 * i, 0x10 + 4 * min 64 (s.loadNat (chain + 512 * i) 1)) else [])

/-- An MMA: verdict, accumulations, ranges and voids. Issue holds (none) while a tile it writes is not yet
accepted, or while it touches a chain destination still to be written. -/
def State.fxMma (s : State) (x : Chiplet) (c : Nat) (f : MmaFields) : Option SlotFx :=
  let tiles := setTiles f
  let n := tiles.length
  let a0 := f.a0.toNat
  let tile := f.tile.toNat
  let arrays := (List.range n).map (a0 + ·)
  let tregs := arrays.map fun a => (RClass.tile, a * 8 + tile)
  match s.mmaBytes x c f with
  | none => some (x.judge 1 false false true [] tregs f.accum [] [] false)
  | some bytes =>
    let d := mmaDesc bytes
    let as_ := (List.range (f.rowsM1.toNat + 1)).map d.streamA
    let bs := (List.range (f.colsM1.toNat + 1)).map d.streamB
    let oa := d.streamA 0
    let ob := d.streamB 0
    let rate := pairRate (oa.enters false) (ob.enters false)
    let spansA := as_.flatMap fun o => o.spans d.k
    let spansB := bs.flatMap fun o => o.spans d.k
    let plA := spansA.map (operandPlace c)
    let plB := spansB.map (operandPlace c)
    let shape := decide (36 < n) || decide (36 < a0 + n) || decide (d.k = 0) || decide (0x1000000 < d.k)
      || decide (d.rows = 0) || decide (32 < d.rows) || decide (d.cols = 0) || decide (32 < d.cols)
      || decide (1 < d.dest) || rate.isNone || (rate == some 4 && decide (d.k % 4 ≠ 0))
      || !s.operandOk oa d.k d.aScale d.aStep || !s.operandOk ob d.k d.bScale d.bStep
      || plA.contains none || plB.contains none || (plA.contains (some true) && plB.contains (some true))
    let linked := decide (d.dest = 1)
    let hole := linked && !populated d.chain (512 * n)
    let descs := if linked && !hole then (List.range n).map (s.chainDesc d.chain) else []
    let poss := (descs.zip arrays).map fun p => s.chainPos p.1 c p.2 tile
    let badChain := linked && (decide (d.chain % 512 ≠ 0) || poss.contains none)
    let units := (d.k + rate.getD 1 - 1) / rate.getD 1
    let till := RangeEnd.clock (x.cur.clock + latency 10 units)
    let dst := ((descs.zip poss).filterMap fun p => p.2.bind fun q => chainRange p.1 c q)
    let new : List NewRange :=
      [⟨spansA.map fun p => grains p.1 p.2, false, till⟩, ⟨spansB.map fun p => grains p.1 p.2, false, till⟩]
        ++ dst.map fun r => ⟨[r], true, till⟩
    let voids := if hole then [] else (descs.zip poss).filterMap fun p => p.2.map fun q => ChainOwn.mk p.1 q none
    if hole ∧ !shape then some { slot := 1, violation := some d.chain, dests := tregs }
    else
      let j0 := x.judge 1 false false (shape || badChain) [] tregs f.accum arrays new false
      let j := { j0 with voids := voids }
      if j.cause ≠ 0 then some j
      else if (arrays.any fun a => x.tileOpen a tile) ∨ x.chainHeld c new then none
      else
        let lost := f.readErr || (spansA ++ spansB).any fun p => s.uncorrectable p.1 p.2
        let accs := (tiles.zip arrays).map fun p =>
          let a := d.streamA p.1.1
          let b := d.streamB p.1.2
          let old := x.accTile p.2 tile
          let cd := (descs[p.2 - a0]?).getD []
          Accum.mk p.2 tile a b d.k f.accum old
            (if lost then s.freeTile (p.2 - a0) else s.tileResult a b d.k f.accum old false)
            (s.passes a (s.operandRows a d.k false).2) (s.passes b (s.operandRows b d.k false).2)
            cd ((poss[p.2 - a0]?.getD none).getD 0) .running false
        some { j with
          accums := accs
          pend := x.pendFor tregs (latency 10 units)
          busy := arrays.map fun a => (a, x.cur.clock + latency 11 units)
          ranges := x.enter new
          uncorr := lost || (linked && s.uncorrectable d.chain (512 * n))
          bads := if linked then (s.badBurst d.chain (512 * n)).toList else []
          violation := (s.mmaReads x c f linked d.chain n ++ spansA ++ spansB).findSome? fun p => s.argShut c p.1 p.2
          frees := if lost then 1024 * n else 0
          census := tiles.flatMap fun p =>
            let one (o : Operand) := if o.narrow && o.slot != 0 then
              [(o.slot, convCensus ((s.operandRows o d.k false).2.map some))] else []
            one (d.streamA p.1) ++ one (d.streamB p.2) }

/-- TSTORE: an accepted tile as 4 KiB of FP32 into scratch. -/
def Chiplet.fxTstore (x : Chiplet) (c : Nat) (f : TstoreFields) : Option SlotFx :=
  let a := f.array.toNat
  let t := f.tile.toNat
  let off := ((x.preg f.pd.toNat).toNat + f.offset.toNat * 64) % 2 ^ 64
  let bad := decide (35 < a) || decide (0x800000 < off + 4096)
  let new : List NewRange := [⟨[grains (scratchAt c off) 4096], true, .clock (x.cur.clock + latency 12 0)⟩]
  let j := x.judge 1 false false bad [(.tile, a * 8 + t)] [] false [] new false
  if j.cause ≠ 0 then some j
  else if x.tileOpen a t ∨ x.chainHeld c new then none
  else some { j with
    ranges := x.enter new
    mem := [(scratchAt c off, laneBytes (x.accTile a t))] }

/-! ### Acceptance (R118, R132, R147) -/

/-- A tile is accepted: it enters the accumulator, and its chain unit holds it when it is in a chain. -/
def State.acceptTile (s : State) (c : Nat) (r : Accum) : State :=
  let x := (s.chip c).setAcc r.array r.tile r.value
  s.setChip c { x with
    accums := x.accums.drop 1
    chainOwn := if r.chain.isEmpty then x.chainOwn else x.chainOwn ++ [⟨r.chain, r.pos, some r.value⟩] }

/-- Replaces the oldest accumulation. -/
def State.setOldest (s : State) (c : Nat) (r : Accum) : State :=
  let x := s.chip c
  s.setChip c { x with accums := r :: x.accums.drop 1 }

/-- The slots whose threshold a tile passed, each once (R119). -/
def Accum.slots (r : Accum) : List Nat :=
  let l := (if r.passA then [r.a.slot] else []) ++ (if r.passB then [r.b.slot] else [])
  l.eraseDups

/-- The re-sight decision on a tile whose residues agree (R116 to R119). -/
def State.decideTile (s : State) (c : Nat) (r : Accum) : State :=
  if r.sighted ∨ r.slots.isEmpty ∨ s.isServing c then s.acceptTile c r
  else
    let x := s.chip c
    if x.rsUsed < s.reg Reg.SC_RS_BUDGET_LIVE then
      let s1 := s.setChip c { x with rsUsed := x.rsUsed + 1 }
      let s2 := (r.slots.foldl (fun t n => t.noteSight n false) s1).tally Reg.SC_RS_TILES
      ({ s2 with wp := { s2.wp with rsTiles := s2.wp.rsTiles + 1 } }).setOldest c { r with phase := .resight }
    else ((r.slots.foldl (fun t n => t.noteSight n true) s).tally Reg.SC_RS_OVERRUN).acceptTile c r

/-- A data-path fault of an exhausted chiplet: it is marked for replacement (R63, R148). -/
def State.arrayExhausted (s : State) (c : Nat) : State :=
  (s.markChiplet c).jobFault 1 (some (.chiplet (Fin.ofNat 64 c)))

/-- The oldest tile of a chiplet that goes on serving is not accepted: its accumulator keeps what it held (R148). -/
def State.rejectTile (s : State) (c : Nat) : State :=
  let x := s.chip c
  if s.isServing c then s.setChip c { x with accums := x.accums.drop 1 } else s

/-- A residue mismatch (R147, R148): the tile is rejected and runs on a stand-in, or the job halts. -/
def State.mismatch (s : State) (c : Nat) (r : Accum) : State :=
  let s1 := s.tally (Reg.ENG_RESIDUE_FAULTS c)
  if (s1.chip c).standins.any fun e => e.1 == r.array then
    (s1.jobFault 1 (some (.chiplet (Fin.ofNat 64 c)))).rejectTile c
  else
    match s1.freeSpare c with
    | none => (s1.arrayExhausted c).rejectTile c
    | some sp =>
      let x := s1.chip c
      ((s1.setChip c { x with standins := x.standins ++ [(r.array, sp)] }).showStandin c).setOldest c
        { r with phase := .standin }

/-- The array of a tile has a stand-in: every run of a tile on it is counted, a re-sight as well as the run before it (R147;
DESIGN CHOICE, assumption 65). -/
def State.tallyStandin (s : State) (c : Nat) (r : Accum) : State :=
  s.tallyIf ((s.chip c).standins.any fun e => e.1 == r.array) (Reg.ENG_STANDIN_TILES c)

/-- A read of the operands of a tile meets an uncorrectable error. -/
def State.rerunBad (s : State) (c : Nat) (r : Accum) : Bool :=
  (r.a.spans r.k ++ r.b.spans r.k).any fun p => (s.serveView c).uncorrectable p.1 p.2

/-- The tile recomputed from its operands, read again from their sources; undefined where a read meets an uncorrectable error,
which is a data-path fault on a training chiplet (R162). -/
def State.rerun (s : State) (c : Nat) (r : Accum) : State × List Word :=
  if s.rerunBad c r then (({ s with freeCount := s.freeCount + 1024 }).chipUncorrectable c, s.freeTile 0)
  else (s, (s.serveView c).tileResult r.a r.b r.k r.accum r.start r.sighted)

/-- A tile that has run again is decided, unless a read of its operands has halted the job. -/
def State.afterRerun (s : State) (c : Nat) (f : State → State) : State := if (s.chip c).accums.isEmpty then s else f s

/-- ACCUMULATION_COMPLETE: the oldest accumulation of the chiplet ends and is decided; its operands may have been short for
some cycles, in which issue was held (R131). -/
def execAccumulationComplete (c : Fin 64) (e : TileEnd) (s : State) : Host.Outcome State Fault Refusal :=
  match (s.chip c).accums with
  | [] => .next s
  | r :: _ =>
    if r.phase = .running ∧ s.chipServes c then
      let s1 := (s.count (Reg.ENG_HOLD_CYCLES c) e.held).tallyStandin c r
      .next (if e.residueOk then s1.decideTile c r else s1.mismatch c r)
    else .next s

/-- RESIGHT_COMPLETE: the tile has run again with its stored operands (R117); issue was held meanwhile, and while they were short
(R131). -/
def execResightComplete (c : Fin 64) (e : TileEnd) (s : State) : Host.Outcome State Fault Refusal :=
  match (s.chip c).accums with
  | [] => .next s
  | r :: _ =>
    if r.phase = .resight ∧ s.chipServes c then
      let r1 := { r with sighted := true, phase := .running }
      let s0 := (s.count (Reg.ENG_HOLD_CYCLES c) (r.k + 24 + e.held)).tallyStandin c r
      let q := s0.rerun c r1
      let r2 := { r1 with value := q.2 }
      .next (q.1.afterRerun c fun t => if e.residueOk then t.acceptTile c r2 else t.mismatch c r2)
    else .next s

/-- STANDIN_COMPLETE: the tile has run on a stand-in, both operands read again (R147). Issue was held for the cycles of the run and
while the operands were short (R131); that the run takes ⌈K / g⌉ cycles is the model's choice (DESIGN CHOICE, assumption 65). -/
def execStandinComplete (c : Fin 64) (e : TileEnd) (s : State) : Host.Outcome State Fault Refusal :=
  match (s.chip c).accums with
  | [] => .next s
  | r :: _ =>
    if r.phase = .standin ∧ s.chipServes c then
      let g := (pairRate (r.a.enters r.sighted) (r.b.enters r.sighted)).getD 1
      let s0 := (s.count (Reg.ENG_HOLD_CYCLES c) ((r.k + g - 1) / g + e.held)).tallyStandin c r
      let q := s0.rerun c r
      let r1 := { r with phase := .running, value := q.2 }
      .next (q.1.afterRerun c fun t => if e.residueOk then t.decideTile c r1 else t.mismatch c r1)
    else .next s

/-! ### Chains (R98, R134, R168) -/

/-- The running sum a member forwards: void stays void. -/
def chainAdd (run own : Option (List Word)) : Option (List Word) :=
  match run, own with
  | some a, some b => some ((a.zip b).map fun p => faddFlush p.1 p.2)
  | _, _ => none

/-- The sum of a chain reaches its destination. -/
def State.chainEnd (s : State) (c : Nat) (d : List Byte) (v : Option (List Word)) : State :=
  match chainKind d with
  | 0 =>
    if chainAddr d + 4096 ≤ 0x800000 then
      match v with
      | some l => s.guardedStore (scratchAt c (chainAddr d)) (laneBytes l)
      | none => s
    else s.freezeChip c (scratchAt c (chainAddr d))
  | 1 =>
    if chainAddr d + 4096 ≤ 0x40000000 then
      match v with
      | some l => s.guardedStore (bankAt (chainDie d) (chainAddr d)) (laneBytes l)
      | none => s
    else s.freezeChip c (bankAt (chainDie d) (chainAddr d))
  | 2 =>
    { s with accNet := s.accNet ++ [⟨chainDie d, chainRegion d, chainAddr d, chainTag d, chainMicro d, v,
                                     .chiplet (Fin.ofNat 64 c), 0, 0⟩] }
  | _ => { s with injects := s.injects ++ [⟨chainAddr d, v, c⟩] }

/-- The next member's chain unit takes a running sum. -/
def State.sendSum (s : State) (nxt pos : Nat) (d : List Byte) (v : Option (List Word)) : State :=
  let y := s.chip nxt
  let s1 := s.setChip nxt { y with chainIn := y.chainIn ++ [⟨d, pos, v⟩] }
  if v.isNone then s1.receiveVoid nxt else s1

/-- The mesh carries a finished sum to the base die of a destination in bank SRAM (R42); accumulation writes and injections
find their way when they arrive. -/
def State.chainReaches (s : State) (c : Nat) (d : List Byte) : Bool :=
  decide (chainKind d ≠ 1) || s.meshServes (dieOf c) (chainDie d)

/-- CHAIN_FORWARD: the i-th tile a chain unit holds is added to the running sum that has arrived and goes on, when the next
chain unit has room (a sum that the addition takes from the same buffer makes some) and the mesh carries it there (R42, R134). -/
def execChainForward (c : Fin 64) (i : Nat) (s : State) : Host.Outcome State Fault Refusal :=
  let x := s.chip c
  match x.chainOwn[i]? with
  | none => .next s
  | some o =>
    let at? := x.chainIn.findIdx? fun r => r.desc == o.desc && r.pos + 1 == o.pos
    let run : Option (Option (List Word)) := if o.pos = 0 then some none else
      match at? with
      | some q => (x.chainIn[q]?).map RunSum.value
      | none => none
    let last := decide (o.pos + 1 = chainMembers o.desc)
    let nxt := (chainMember o.desc (o.pos + 1)).1
    let used := if nxt = c.val ∧ o.pos ≠ 0 then x.chainIn.length - 1 else (s.chip nxt).chainIn.length
    let room := if last then s.chainReaches c o.desc
      else decide (used < 8) && s.chipServes nxt && s.meshServes (dieOf c) (dieOf nxt)
    match run with
    | none => .next s
    | some rv =>
      if !room ∨ !s.chipServes c then .next s
      else
        let v := if o.pos = 0 then o.value else chainAdd rv o.value
        let ins := match at? with
          | some q => if o.pos = 0 then x.chainIn else x.chainIn.eraseIdx q
          | none => x.chainIn
        let s1 := s.setChip c { x with chainOwn := x.chainOwn.eraseIdx i, chainIn := ins }
        .next (if last then s1.chainEnd c o.desc v else s1.sendSum nxt o.pos o.desc v)

/-! ### Accumulation regions (R135 to R138, R153, R431) -/

/-- BLOCKS of a region, as it acts. -/
def State.regionBlocks (s : State) (die r : Nat) : Nat :=
  min (bitsOf (s.reg (banked (Reg.ACC_SIZE die) r)) 16 0) 65536

/-- The base of a region. -/
def State.regionBase (s : State) (die r : Nat) : Nat := s.reg (banked (Reg.ACC_BASE die) r) / 4096 * 4096

/-- Where a block lies, and where its state word lies. -/
def State.blockAt (s : State) (die r b : Nat) : Nat := s.regionBase die r + 4096 * b
def State.stateAt (s : State) (die r b : Nat) : Nat := s.regionBase die r + 4096 * s.regionBlocks die r + 8 * b

/-- A region with its shadow area lies in its base die's bank SRAM, as R135 has it. Where it does not, the manual gives its unit no
effect: a write freezes its writer, with nothing counted, and INVALIDATE clears nothing (DESIGN CHOICE, assumption 65). -/
def State.regionPlaced (s : State) (die r : Nat) : Bool :=
  let n := s.regionBlocks die r
  decide (placeOf (s.regionBase die r) = .bank die)
    && decide (placeOf (s.regionBase die r + 4096 * n + (8 * n + 4095) / 4096 * 4096 - 1) = .bank die)

/-- The step tag and the next-microbatch count of a block. -/
def State.blockTag (s : State) (die r b : Nat) : Nat := s.loadNat (s.stateAt die r b) 6
def State.blockNext (s : State) (die r b : Nat) : Nat := s.loadNat (s.stateAt die r b + 6) 2

/-- What the rule of R136 does with a write. -/
inductive AccVerdict where
  | first
  | add
  | hold
  | duplicate
deriving DecidableEq, Repr

/-- The rule of R136. -/
def State.accVerdict (s : State) (w : AccWrite) : AccVerdict :=
  let next := s.blockNext w.die w.region w.block
  if s.blockTag w.die w.region w.block ≠ w.tag ∨ next = 0 then (if w.m = 0 then .first else .hold)
  else if w.m = next then .add
  else if next < w.m then .hold
  else .duplicate

/-- An applied write: block, tag and next count; a void leaves the data (R168). -/
def State.applyAcc (s : State) (w : AccWrite) (first : Bool) : State :=
  let at_ := s.blockAt w.die w.region w.block
  let next := if first then 1 else s.blockNext w.die w.region w.block + 1
  let s1 := match w.data with
    | none => s
    | some l =>
      if first then s.guardedStore at_ (laneBytes l)
      else s.guardedStore at_ (laneBytes (List.zipWith (fadd .rne) (bytesLanes (s.load at_ 4096)) l))
  s1.guardedStore (s.stateAt w.die w.region w.block) (leBytes 8 (w.tag % 2 ^ 48 + next % 65536 * 2 ^ 48))

/-- A duplicate is answered VIOLATION and freezes its writer (R136). -/
def State.accDuplicate (s : State) (w : AccWrite) : State :=
  (s.tally (Reg.ACC_DUPLICATE w.die)).freeze w.writer (s.blockAt w.die w.region w.block)

/-- The held write of a block with the smallest m, and its place. -/
def State.nextHeld (s : State) (w : AccWrite) : Option (Nat × AccWrite) :=
  let able := (s.accHeld.zipIdx).filter fun (p : AccWrite × Nat) =>
    p.1.die == w.die && p.1.region == w.region && p.1.block == w.block && s.accVerdict p.1 != .hold
  able.foldl (fun (m : Option (Nat × AccWrite)) (p : AccWrite × Nat) =>
    match m with
    | some q => if p.1.m < q.2.m then some (p.2, p.1) else some q
    | none => some (p.2, p.1)) none

/-- Retries held writes of a block in order of m, as long as one can go. -/
def State.retryHeld (s : State) (w : AccWrite) : Nat → State
  | 0 => s
  | fuel + 1 =>
    match s.nextHeld w with
    | none => s
    | some (i, h) =>
      let s1 := { s with accHeld := s.accHeld.eraseIdx i }
      let s2 := match s.accVerdict h with
        | .first => s1.applyAcc h true
        | .add => s1.applyAcc h false
        | _ => s1.accDuplicate h
      State.retryHeld s2 w fuel

/-- Writes a base die's region unit holds. -/
def State.heldOn (s : State) (die : Nat) : Nat := (s.accHeld.filter fun w => w.die = die).length

/-- The ward, block type and instance of a writer, by which an arbiter's port names it (R214). -/
def writerIdent : Requester → Nat
  | .chiplet c => pageId (unitPage (.chiplet c))
  | .coll => pageId (unitPage .coll)
  | .upd k => pageId (unitPage (.upd k))
  | .codec k => pageId (unitPage (.codec k))
  | _ => 0

/-- A write that the region unit returns: its sender loses, and sends it again after its backoff (R138, R206). -/
def State.returnWrite (s : State) (w : AccWrite) : State :=
  let w1 := { w with returns := w.returns + 1, waitTill := s.now + s.backoffTime w.die (w.returns + 1) }
  (({ s with accNet := s.accNet ++ [w1] }).tally (Reg.ACC_HOLD_FULL w.die)).regionLoss w.die (writerIdent w.writer) s.now

/-- The region unit takes a write (R136, R138, R431), which is off the net. -/
def State.regionTake (s : State) (w : AccWrite) : State :=
  if s.regionBlocks w.die w.region ≤ w.block then
    (s.tally (Reg.ACC_RANGE_VIOL w.die)).freeze w.writer (s.blockAt w.die w.region w.block)
  else if !s.regionPlaced w.die w.region then s.freeze w.writer (s.blockAt w.die w.region w.block)
  else match s.accVerdict w with
    | .first => (s.applyAcc w true).retryHeld w 32
    | .add => (s.applyAcc w false).retryHeld w 32
    | .duplicate => s.accDuplicate w
    | .hold =>
      if s.heldOn w.die < 32 then ({ s with accHeld := s.accHeld ++ [w] }).tally (Reg.ACC_HELD_WRITES w.die)
      else s.returnWrite w

/-- An earlier write of the same sender to the same region unit is still on its way (R44). -/
def State.writeBehind (s : State) (i : Nat) (w : AccWrite) : Bool :=
  (s.accNet.take i).any fun v => v.die == w.die && v.writer == w.writer

/-- ACCUMULATION_WRITE: the i-th write on its way reaches the region unit of a base die, over base dies that are not fenced
(R42), behind every earlier one of its sender and not before its backoff has ended. -/
def execAccumulationWrite (die : Fin 4) (i : Nat) (s : State) : Host.Outcome State Fault Refusal :=
  match s.accNet[i]? with
  | none => .next s
  | some w =>
    if w.die = die ∧ s.dieServes w.writer die ∧ !s.writeBehind i w ∧ w.waitTill ≤ s.now then
      .next ({ s with accNet := s.accNet.eraseIdx i }.regionTake w)
    else .next s

/-- ACC_INVALIDATE: the region that ACC_SEL names (R137). -/
def State.startInvalidate (s : State) (die : Nat) : State :=
  { s with ranges := Map.put (fun _ => 0) s.ranges (die * 32 + s.fld (Reg.ACC_SEL die) 4 0) 1 }

/-- ACC_INVALIDATE. -/
def execAccInvalidate (who : Requester) (die : Fin 4) (s : State) : Host.Outcome State Fault Refusal :=
  .next (s.command who (pgACC die) fun t => t.startInvalidate die)

/-- ACC_INVALIDATE_DONE: every state word of the region is invalid and INVALIDATE reads 0. -/
def execAccInvalidateDone (die : Fin 4) (region : Fin 32) (s : State) : Host.Outcome State Fault Refusal :=
  let k := die.val * 32 + region.val
  if Map.get (fun _ => 0) s.ranges k = 0 then .next s
  else
    let s1 := { s with ranges := Map.put (fun _ => 0) s.ranges k 0 }
    .next (if s.regionPlaced die region ∧ s.regionBlocks die region ≠ 0 then
      s1.guardedStore (s.stateAt die region 0) (List.replicate (8 * s.regionBlocks die region) 0) else s1)

end Sys2Proof.Machine
end

