-- ==== Sys2Proof/Machine/Update.lean ====
section
/-! DEFINITION. The update engines: map validation, passes, journal, roll-forward, sweeps, variant slots and
the UPDATE descriptors (R222 to R246). -/

namespace Sys2Proof.Machine

/-! ### Engines and their maps -/

/-- An update engine. -/
def State.upd (s : State) (k : Nat) : UpdEng := Map.get (fun _ => {}) s.upds k
/-- Replaces an update engine. -/
def State.setUpd (s : State) (k : Nat) (u : UpdEng) : State := { s with upds := Map.put (fun _ => {}) s.upds k u }

/-- The engine's unit. -/
def updUnit (k : Nat) : UnitId := .upd (Fin.ofNat 48 k)

/-- The engine takes work: its ward has power and it is neither fenced nor frozen. -/
def State.updWorks (s : State) (k : Nat) : Bool :=
  s.wardPowered 5 && s.works (updUnit k) && !(s.unit (updUnit k)).frozen

/-- Entry i of a map word: ADDR and COUNT (R245). -/
def State.mapEntry (s : State) (word i : Nat) : TensorEntry :=
  tensorEntry (s.load (word / 65536 * 65536 + 192 * i) 192)
/-- Entries of a map word. -/
def mapCount (word : Nat) : Nat := word % 65536
/-- The live map of an engine. -/
def State.liveMap (s : State) (k : Nat) : Nat := s.reg (Reg.UPD_MAP_LIVE k)
/-- The entry in progress. -/
def State.curEntry (s : State) (k : Nat) : TensorEntry := s.mapEntry (s.liveMap k) (s.upd k).entry

/-- The engine's window set. -/
def State.updWset (s : State) (k : Nat) : Nat := s.fld (Reg.UPD_ENG_WSET k) 9 0

/-- An engine's access lies in its windows and at populated offsets, register space among them (R245, R428). -/
def State.updMay (s : State) (k a n : Nat) (write : Bool) : Bool :=
  populated a n && s.windowed (s.updWset k) (s.globalOf a) n write

/-- A range lies in the HBM of the engine's stack: engine k lies on stack k div 4. -/
def inStack (k a n : Nat) : Bool := decide (placeOf a = .hbm (k / 4)) && decide (placeOf (a + (n - 1)) = .hbm (k / 4))

/-- Entries of the journal ring. -/
def State.journalLen (s : State) (k : Nat) : Nat :=
  let l := s.fld (Reg.UPD_JRNL k) 4 0
  2 ^ (if 4 ≤ l ∧ l ≤ 16 then l else 12)
/-- The address of a journal entry. -/
def State.journalAt (s : State) (k i : Nat) : Nat :=
  s.reg (Reg.UPD_JRNL k) / 4096 * 4096 + journalSize s.compat * i

/-! ### Validation (R222) -/

/-- The ranges an entry names: address, bytes, written, bound to the engine's stack. -/
def TensorEntry.ranges (e : TensorEntry) (c : Bool) : List (Nat × Nat × Bool × Bool) :=
  let n := e.blocks
  [(e.master, n * masterSize c, true, false), (e.moment, n * momentSize c, true, true), (e.tag, 8 * n, true, true)]
  ++ (if c then [] else [(e.mscale, 8 * n, true, true)])
  ++ (if e.exchange then [(e.anchor, 512 * n, true, false), (e.residual, 512 * n, false, false)] else [])
  ++ (if e.mask = 1 then [(e.maskAt, (n + 7) / 8, false, false)] else if e.mask = 2 then [(e.maskAt, 32 * n, false, false)] else [])
  ++ (if e.dense then [(e.grad, 4 * e.rows * e.cols, false, false), (e.touch, (n + 7) / 8, false, false)] else [])
  ++ [(e.fwdAt, e.fwd.span, true, false)] ++ (if e.bwd then [(e.bwdAt, e.bwdSide.span, true, false)] else [])
  ++ (if e.fact then [(e.factor, 16 * (e.rows + e.cols), true, false)] else [])

/-- A range an entry may not have. -/
def State.badRange (s : State) (k : Nat) (r : Nat × Nat × Bool × Bool) : Bool :=
  let n := max 1 r.2.1
  !s.updMay k r.1 n false || (r.2.2.1 && !s.updMay k r.1 n true) || (r.2.2.2 && !inStack k r.1 n)

/-- A working copy that R222 rejects. -/
def State.badCopy (s : State) (p : CopySide) : Bool :=
  !legalPair p.fmt p.form || decide (cfgPolicy (s.slotCfg p.slot) ≠ 0)

/-- The cause for which an entry is bad; 0 when it is good. -/
def State.entryCause (s : State) (k : Nat) (e : TensorEntry) : Nat :=
  let journal := (s.journalAt k 0, journalSize s.compat * s.journalLen k, true, true)
  if (journal :: e.ranges s.compat).any (s.badRange k) then 1
  else if (if e.tiles then e.rows % 16 ≠ 0 ∨ e.cols % 16 ≠ 0 else e.rows * e.cols % 256 ≠ 0 ∨ e.cols % 32 ≠ 0)
      ∨ e.blocks = 0 ∨ e.total < e.first + e.blocks then 2
  else if s.badCopy e.fwd ∨ (e.bwd ∧ (s.badCopy e.bwdSide ∨ !e.tiles ∨ e.bwdType / 16 ≠ 3)) then 3
  else if e.mask = 3 then 4
  else if e.fact ∧ (e.first ≠ 0 ∨ e.blocks ≠ e.total) then 5
  else 0

/-- The first bad entry of a map from an entry on, with its cause. -/
def State.firstBad (s : State) (k word : Nat) : Option (Nat × Nat) :=
  (List.range (mapCount word)).findSome? fun i =>
    let c := s.entryCause k (s.mapEntry word i)
    if c = 0 then none else some (i, c)

/-- The scale slots a map names. -/
def State.mapSlots (s : State) (word : Nat) : List Nat :=
  (List.range (mapCount word)).flatMap fun i =>
    let e := s.mapEntry word i
    if e.bwd then [e.fwdSlot, e.bwdSlot] else [e.fwdSlot]

/-- Replaces the slots an engine pins for its live (0) or pending (1) map (R105). -/
def State.repin (s : State) (key : Nat) (slots : List Nat) : State :=
  { s with pins := (s.pins.filter fun p => decide (p.1 ≠ key)) ++ slots.map fun n => (key, n) }

/-- The map itself lies where the engine can walk it. -/
def State.mapPlaced (s : State) (k word : Nat) : Bool :=
  decide (mapCount word = 0) ||
    (inStack k (word / 65536 * 65536) (192 * mapCount word) && s.updMay k (word / 65536 * 65536) (192 * mapCount word) false)

/-- MAP_VALIDATE: every entry of the pending map is checked; a good map pins its slots and gets its ready
bit, a bad one is recorded. -/
def State.validateMap (s : State) (k : Nat) : State :=
  let w := s.reg (Reg.UPD_MAP k)
  let bad := if s.mapPlaced k w then s.firstBad k w else some (0, 1)
  match bad with
  | some (i, c) =>
    ((s.setReg (Reg.UPD_BAD_ENTRY k) (2 ^ 31 + c * 2 ^ 16 + i)).repin (2 * k + 1) []).setUpd k { s.upd k with mapOk := none }
  | none =>
    ((s.setReg (Reg.UPD_BAD_ENTRY k) 0).repin (2 * k + 1) (s.mapSlots w)).setUpd k { s.upd k with mapOk := some w }

/-- MAP_VALIDATE. -/
def execMapValidate (k : Fin 48) (s : State) : Host.Outcome State Fault Refusal :=
  if s.updWorks k then .next (s.validateMap k) else .next s

/-- A write of UPD_MAP makes a new pending map, which is not validated yet. -/
def State.newMap (s : State) (k : Nat) : State :=
  ((s.setReg (Reg.UPD_BAD_ENTRY k) 0).repin (2 * k + 1) []).setUpd k { s.upd k with mapOk := none }

/-- The engine's ready bit for its pending map. -/
def State.mapReady (s : State) (k : Nat) : Bool :=
  s.reg (Reg.UPD_MAP k) == s.liveMap k || decide ((s.upd k).mapOk = some (s.reg (Reg.UPD_MAP k)))

/-- The pending map becomes live: its pins are the live map's, and the old map's are released (R105). -/
def State.mapLive (s : State) (k : Nat) : State :=
  let w := s.reg (Reg.UPD_MAP k)
  if w = s.liveMap k then s
  else
    let slots := (s.pins.filter fun p => p.1 = 2 * k + 1).map Prod.snd
    (((s.setReg (Reg.UPD_MAP_LIVE k) w).repin (2 * k) slots).repin (2 * k + 1) []).setUpd k { s.upd k with mapOk := none }

/-! ### Reads and writes of an engine -/

/-- Why an engine's access fails. -/
inductive UpdTrouble where
  | violation (a : Nat)
  | bad (b : Nat)
deriving DecidableEq, Repr

/-- What the reads of some ranges meet first. -/
def State.readTrouble (s : State) (k : Nat) (rs : List (Nat × Nat)) : Option UpdTrouble :=
  rs.findSome? fun r =>
    if r.2 = 0 then none
    else if !s.updMay k r.1 r.2 false then some (.violation r.1)
    else (s.badBurst r.1 r.2).map UpdTrouble.bad

/-- What a write meets. -/
def State.writeTrouble (s : State) (k a n : Nat) : Option UpdTrouble :=
  if !s.updMay k a n true then some (.violation a)
  else match s.bankViolation a (List.replicate n 0) with
    | some b => some (.violation b)
    | none => (s.tornBursts a n).head?.map UpdTrouble.bad

/-- An engine in trouble: a violation freezes it (R198), an uncorrectable error is a data-path fault (R234). -/
def State.updFail (s : State) (k : Nat) : UpdTrouble → State
  | .violation a => (s.noteBeyond a 1).freezeUpd k a
  | .bad b => (s.noteBad b).jobFault 4 (some (updUnit k))

/-- Counts the slow-tier traffic of some reads. -/
def State.noteReads (s : State) (rs : List (Nat × Nat)) : State := rs.foldl (fun t r => t.noteSlow r.1 r.2 false) s

/-- A write of an engine. One into register space is taken up when the engine's command ends (State.throughRegs), and stands in `mem` until
then, so that the engine reads it back. -/
def State.updStore (s : State) (a : Nat) (bs : List Byte) : State :=
  if placeOf a = .regs then { s.store a bs with regPort := s.regPort ++ [(a, bs)] } else s.guardedStore a bs

/-- The writes of a block in order, each after the response of the one before (R231); the first that fails
stops the engine. -/
def State.updWrites (s : State) (k : Nat) : List (Nat × List Byte) → State × Bool
  | [] => (s, true)
  | (a, bs) :: r =>
    match s.writeTrouble k a bs.length with
    | some t => ((if (s.bankViolation a bs).isSome ∧ s.updMay k a bs.length true then s.updStore a bs else s).updFail k t, false)
    | none => ((s.updStore a bs).noteSlow a bs.length true).updWrites k r

/-! ### A block's state (R215, R220) -/

/-- Addresses within an entry advance by block, counted from its first block: block j of the entry. -/
def TensorEntry.masterOf (e : TensorEntry) (c : Bool) (j : Nat) : Nat := e.master + masterSize c * j
def TensorEntry.momentOf (e : TensorEntry) (c : Bool) (j : Nat) : Nat := e.moment + momentSize c * j
def TensorEntry.mscaleOf (e : TensorEntry) (j : Nat) : Nat := e.mscale + 8 * j
def TensorEntry.anchorOf (e : TensorEntry) (j : Nat) : Nat := e.anchor + 512 * j
def TensorEntry.tagOf (e : TensorEntry) (j : Nat) : Nat := e.tag + 8 * j

/-- The variant of an entry, as in force. -/
def State.variant (s : State) (v : Nat) : Variant := Map.get (fun _ => {}) s.variants v

/-- The mask bit of a block, or of a parameter of a block (R225). -/
def State.maskBit (s : State) (e : TensorEntry) (n : Nat) : Bool := bitOf (s.loadNat (e.maskAt + n / 8) 1) (n % 8)

/-- The block is frozen (R225). -/
def State.blockFrozen (s : State) (e : TensorEntry) (j : Nat) : Bool :=
  !(s.variant e.variant).enabled || (decide (e.mask = 1) && s.maskBit e j)

/-- Which parameters of a block their mask freezes. -/
def State.paramMask (s : State) (e : TensorEntry) (j : Nat) : List Bool :=
  (List.range 256).map fun i => decide (e.mask = 2) && s.maskBit e (256 * j + i)

/-- The range of mask bits a block reads. -/
def maskRange (e : TensorEntry) (j : Nat) : List (Nat × Nat) :=
  if e.mask = 1 then [(e.maskAt + j / 8, 1)] else if e.mask = 2 then [(e.maskAt + 32 * j, 32)] else []

/-- The region block that holds a parameter: GRAD_ADDR holds tile (0, 0) and the 32 × 32 tiles follow in
row-major order. -/
def TensorEntry.regionBlock (e : TensorEntry) (p : Nat × Nat) : Nat :=
  e.grad + p.1 / 32 * ((e.cols + 31) / 32) + p.2 / 32

/-- A region block carries a step's tag and a valid state (R136, R225). -/
def State.regionHolds (s : State) (e : TensorEntry) (b tag : Nat) : Bool :=
  decide (b < s.regionBlocks e.die e.region) && decide (s.blockNext e.die e.region b ≠ 0)
    && decide (s.blockTag e.die e.region b = tag % 2 ^ 48)

/-- The region blocks of a parameter block. -/
def TensorEntry.regionSet (e : TensorEntry) (b : Nat) : List Nat :=
  (e.places b).foldl (fun l p => insertNat (e.regionBlock p) l) []

/-- The block is touched in the step that waypoint w ended (R225). -/
def State.blockTouched (s : State) (e : TensorEntry) (j w : Nat) : Bool :=
  if e.dense then bitOf (s.loadNat (e.touch + j / 8) 1) (j % 8)
  else (e.regionSet (e.first + j)).any fun b => s.regionHolds e b (w - 1)

/-- The gradient values of a block as they stand (R225). -/
def State.blockGrads (s : State) (e : TensorEntry) (j w : Nat) : List Word :=
  (e.places (e.first + j)).map fun p =>
    BitVec.ofNat 32 (if e.dense then s.loadNat (e.grad + 4 * (p.1 * e.cols + p.2)) 4
      else
        let b := e.regionBlock p
        if s.regionHolds e b (w - 1) then
          s.loadNat (s.blockAt e.die e.region b + 4 * (p.1 % 32 * 32 + p.2 % 32)) 4
        else 0)

/-- Ranges a dense gradient is read from. -/
def TensorEntry.gradRanges (e : TensorEntry) (j : Nat) : List (Nat × Nat) :=
  if e.dense then
    (e.touch + j / 8, 1) ::
      (e.runs false (e.first + j) (List.replicate 256 0)).map fun r => (e.grad + 4 * r.1, 4 * r.2.length)
  else []

/-- Ranges a block's gradient is read from: a dense buffer, or the values of the region blocks that carry the step's tag. -/
def State.gradReads (s : State) (e : TensorEntry) (j w : Nat) : List (Nat × Nat) :=
  if e.dense then e.gradRanges j
  else (e.places (e.first + j)).filterMap fun p =>
    let b := e.regionBlock p
    if s.regionHolds e b (w - 1) then some (s.blockAt e.die e.region b + 4 * (p.1 % 32 * 32 + p.2 % 32), 4) else none

/-- Unscaling of R226: the values and how many were replaced by 0. -/
def unscale (exp : Int) (gs : List Word) : List Word × Nat :=
  let ys := gs.map fun g => if isFinite32 g then ((ofF32 g).mul (pow2 (-exp))).toF32 .rne false else g
  (ys.map fun y => if isFinite32 y then y else 0, (ys.filter fun y => !isFinite32 y).length)

/-- The draws of R227 for a block at position q: 0 the update codes, 16 the first moments, 32 the second. -/
def State.updDraws (s : State) (k w q off : Nat) : List Nat :=
  (List.range 256).map fun i => srDraw (s.reg Reg.ENG_SEED_LIVE) w (0x10000 + k * 16 + i % 16) (q * 48 + off + i / 16)

/-! ### Working copies of a block -/

/-- The masters of a block as stored. -/
def State.masters (s : State) (e : TensorEntry) (c : Bool) (j : Nat) : List Word :=
  decodeMasters c (s.load (e.masterOf c j) (masterSize c))

/-- The block of the entry whose tile shares the MX32 blocks of block j's copy: the tile to its right in an even tile column,
to its left in an odd one; none where the tile row or the entry ends. -/
def TensorEntry.mate (e : TensorEntry) (j : Nat) : Option Nat :=
  let tc := (e.first + j) % (e.cols / 16)
  if tc % 2 = 0 then (if tc + 1 < e.cols / 16 ∧ j + 1 < e.blocks then some (j + 1) else none)
  else if 1 ≤ j then some (j - 1) else none

/-- The block that block j's first copy is derived with. -/
def TensorEntry.sharer (e : TensorEntry) (j : Nat) : Option Nat :=
  if e.tiles ∧ e.fwd.form = 2 ∧ e.fwd.fmt < 8 then e.mate j else none

/-- The range of its master. -/
def TensorEntry.mateReads (e : TensorEntry) (c : Bool) (j : Nat) : List (Nat × Nat) :=
  match e.sharer j with
  | some m => [(e.masterOf c m, masterSize c)]
  | none => []

/-- One side's writes and conversions for a block whose masters are xs. A format that no convert writes (W2,
W1) leaves its copy as the runtime wrote it. A tile whose neighbour lies outside the entry fills its half of the shared MX32
block alone, and the block's scale is its own (DESIGN CHOICE, assumption 63: R236 names no other source). -/
def State.sideOf (s : State) (e : TensorEntry) (c bwd : Bool) (j : Nat) (xs : List Word) :
    List (Nat × List Byte) × List Conv :=
  let p := if bwd then e.bwdSide else e.fwd
  let t := ofF32 (if p.form = 0 then one32 else s.slotT p.slot)
  let b := e.first + j
  let own := e.runs bwd b xs
  if 8 ≤ p.fmt then ([], [])
  else match if bwd then none else e.sharer j with
  | some m =>
    let tc := b % (e.cols / 16)
    let both := joinRuns tc own (e.runs bwd b (s.masters e c m))
    let es := both.map fun r => p.encode t r.1 r.2
    (es.flatMap Prod.fst, es.flatMap fun q => if tc % 2 = 0 then q.2.take 16 else q.2.drop 16)
  | none =>
    let es := own.map fun r => p.encode t r.1 r.2
    (es.flatMap Prod.fst, es.flatMap Prod.snd)

/-- All the writes of a block's working copies, and a census report for the slot of each copy that is converted (R112, R236). -/
def State.copiesOf (s : State) (e : TensorEntry) (c : Bool) (j : Nat) (xs : List Word) :
    List (Nat × List Byte) × List (Nat × CensusRep) :=
  let f := s.sideOf e c false j xs
  let g := if e.bwd then s.sideOf e c true j xs else ([], [])
  (f.1 ++ g.1, (if e.fwd.fmt < 8 then [(e.fwdSlot, convCensus (f.2.map some))] else [])
    ++ if e.bwd ∧ e.bwdSide.fmt < 8 then [(e.bwdSlot, convCensus (g.2.map some))] else [])

/-- Reports of an update engine (R112). -/
def State.updReports (s : State) (k : Nat) (rs : List (Nat × CensusRep)) : State :=
  rs.foldl (fun t r => t.report (64 + k) r.1 r.2) s

/-- The deviation check of one block (R237): a mismatch is raised, counted and a data-path fault. What it derives is compared
only, so it reports to no census. -/
def State.deviation (s : State) (k : Nat) (e : TensorEntry) (j : Nat) : State :=
  let c := s.compat
  let rs := (e.masterOf c j, masterSize c) :: e.mateReads c j
  match s.readTrouble k rs with
  | some t => s.updFail k t
  | none =>
    let ws := (s.copiesOf e c j (s.masters e c j)).1
    match s.readTrouble k (ws.map fun w => (w.1, w.2.length)) with
    | some t => s.updFail k t
    | none =>
      let s1 := (s.noteReads rs).tally (Reg.UPD_DEV_CHECKED k)
      if ws.all fun w => s.load w.1 w.2.length == w.2 then s1
      else ((s1.raise (pgUPD k) 8).tally (Reg.UPD_DEV_MISMATCH k)).jobFault 5 (some (updUnit k))

/-- The block at a position is due for its check (R237). -/
def State.checkDue (s : State) (q w : Nat) : Bool :=
  s.flag Reg.UPD_DEV_CTRL 31 && decide ((q + w) % 2 ^ (min 16 (s.fld Reg.UPD_DEV_CTRL 4 0)) = 0)

/-! ### The walk (R224) -/

/-- The pass runs on the entry. -/
def passRuns (p : UpdPass) (e : TensorEntry) (i : Nat) : Bool :=
  match p with
  | .step => true
  | .outer .. => e.exchange
  | .null .. => e.exchange
  | .derive_ _ _ f n => decide (f ≤ i) && decide (i < f + n)
  | .sweep .. => false

/-- The pass is a sweep. -/
def isSweep : UpdPass → Bool
  | .sweep .. => true
  | _ => false

/-- The descriptor a pass comes from. -/
def passOf : UpdPass → Option (Nat × Nat)
  | .outer r i .. => some (r, i)
  | .null _ o => o
  | .derive_ r i _ _ => some (r, i)
  | .sweep r i => some (r, i)
  | .step => none

/-- The engine has done its part of an UPDATE descriptor; the last engine completes it. -/
def State.updPart (s : State) (k : Nat) (d : Nat × Nat) (sweeps : Bool) : State :=
  match s.updOpen.find? fun o => o.ring = d.1 ∧ o.idx = d.2 with
  | none => s
  | some o =>
    let left := o.left.filter fun x => decide (x ≠ k)
    let rest := s.updOpen.filter fun x => !(x.ring = d.1 ∧ x.idx = d.2)
    if left.isEmpty then
      ({ s with updOpen := rest }).finish o.ring o.idx 0 (if sweeps then satTo 32 o.checked else 0)
    else { s with updOpen := rest ++ [{ o with left := left }] }

/-- The descriptors of the passes an engine has finished. -/
def State.updParts (s : State) (k : Nat) (ps : List UpdPass) : State :=
  ps.foldl (fun t p => match passOf p with
    | some d => t.updPart k d (isSweep p)
    | none => t) s

/-- The engine has no update left to do. -/
def State.updIdle (s : State) (k : Nat) : Bool := !(s.upd k).todo && !(s.upd k).running

/-- A job that stops ends once every engine is done: COMPUTE STOP completes with the final waypoint number (R194). -/
def State.stopDone (s : State) : State :=
  if s.wp.job && s.wp.stopping && (List.range 48).all s.updIdle then
    s.wp.stopBy.foldl (fun (t : State) d => t.finish d.1 d.2 0 (s.reg Reg.WPC_WAYPOINT % 2 ^ 32))
      { s with wp := { s.wp with job := false, stopping := false, stopBy := [] } }
  else s

/-- Where the entry in progress lies. -/
def State.entryRange (s : State) (k : Nat) : Nat × Nat := (s.liveMap k / 65536 * 65536 + 192 * (s.upd k).entry, 192)

/-- The engine takes its next block, entry or sweep, as far as nothing is left to do on the way; an entry it cannot read is an
uncorrectable state error (R234): a finished
entry adds DONE_VALUE to DONE_COUNTER; after the last entry come the sweeps. -/
def State.settleUpd (k : Nat) : Nat → State → State
  | 0, s => s
  | fuel + 1, s =>
    let u := s.upd k
    if !u.running then s
    else if mapCount (s.liveMap k) ≤ u.entry then
      if u.sweeping then
        match u.due with
        | [] => (s.setUpd k { u with running := false, todo := false, sweeping := false, resumed := false }).stopDone
        | p :: r => State.settleUpd k fuel ((s.setUpd k { u with due := r, entry := 0, block := 0, pos := 0 }).updParts k [p])
      else
        let s1 := s.updParts k (u.due.filter fun p => !isSweep p)
        State.settleUpd k fuel (s1.setUpd k { u with due := u.due.filter isSweep, sweeping := true, entry := 0, block := 0,
                                                      pos := 0, idx := 0 })
    else match s.readTrouble k [s.entryRange k] with
    | some t => s.updFail k t
    | none =>
      let e := s.curEntry k
      if u.sweeping then
        if u.due.isEmpty then State.settleUpd k fuel (s.setUpd k { u with entry := mapCount (s.liveMap k) })
        else if u.block < e.blocks then s
        else State.settleUpd k fuel (s.setUpd k { u with entry := u.entry + 1, block := 0, pos := u.pos + e.blocks })
      else
        match u.due[u.idx]? with
        | none =>
          State.settleUpd k fuel ((s.sigArrive e.doneCtr (.add e.doneValue)).setUpd k
            { u with entry := u.entry + 1, block := 0, idx := 0, pos := u.pos + e.blocks })
        | some p =>
          if passRuns p e u.entry ∧ u.block < e.blocks then s
          else State.settleUpd k fuel (s.setUpd k { u with idx := u.idx + 1, block := 0 })

/-- Enough for a whole walk without a block on the way. -/
def State.walkFuel (s : State) (k : Nat) : Nat :=
  let u := s.upd k
  (mapCount (s.liveMap k) + 2) * (u.due.length + 2) * 2

/-- Settles an engine. -/
def State.settle (s : State) (k : Nat) : State := State.settleUpd k (s.walkFuel k) s

/-- The engine may start: no delta formation of an earlier waypoint reads the shard (R27). -/
def State.shardFree (s : State) (w : Nat) : Bool :=
  match s.deltaOpen with
  | none => true
  | some (_, e) => decide (w ≤ e)

/-- The engine has work that a delta formation holds back (R27). -/
def State.heldByDelta (s : State) (k : Nat) : Bool :=
  (s.upd k).todo && !(s.upd k).running && !s.shardFree (s.upd k).wpn

/-- The update passes that follow waypoint w are done on every engine, so that a delta formation opened there may read the
shard (R224). -/
def State.passesDone (s : State) (w : Nat) : Bool :=
  (List.range 48).all fun k => s.updIdle k || decide (w < (s.upd k).wpn)

/-- UPDATE_PASS_START. DERIVE and SWEEP passes accepted while no job runs wait for the next waypoint too (R238); the one that
COMPUTE START performs starts no engine (R194). -/
def execUpdatePassStart (k : Fin 48) (s : State) : Host.Outcome State Fault Refusal :=
  let u := s.upd k
  if !s.updWorks k ∨ !s.unfenced (updUnit k) ∨ u.running ∨ u.recovering ∨ !s.shardFree u.wpn then .next s
  else if u.todo then
    .next ((s.setUpd k { u with running := true, idx := 0, entry := 0, block := 0, pos := 0, sweeping := false }).settle k)
  else .next s

/-- The pass in progress on the block in progress. -/
def State.curPass (s : State) (k : Nat) : Option UpdPass :=
  let u := s.upd k
  if u.running && s.updWorks k && !u.sweeping then u.due[u.idx]? else none

/-- The engine goes on to the next block. -/
def State.nextBlock (s : State) (k : Nat) : State :=
  let u := s.upd k
  (s.setUpd k { u with block := u.block + 1 }).settle k

/-- A block finished by a pass: PROGRESS (R368), and the next block unless the job has halted on it. -/
def State.blockDone (s : State) (k : Nat) : State :=
  if (s.upd k).running then (s.progress (pgUPD k) 1).nextBlock k else s.progress (pgUPD k) 1

/-! ### The journal (R231, R232) -/

/-- The bytes of a journal entry. -/
def journalBytes (step kind entry block scale lr : Nat) (c : Bool) (payload : List Byte) : List Byte :=
  let head := leBytes 32 (step % 2 ^ 32 + kind * 2 ^ 32 + 1 * 2 ^ 40 + entry * 2 ^ 48 + block * 2 ^ 64 + scale * 2 ^ 96
    + boolNat c * 2 ^ 112 + lr * 2 ^ 128)
  head ++ (payload ++ List.replicate (journalSize c - 32 - payload.length) 0)

/-- PHASE of a journal entry. -/
def State.journalPhase (s : State) (a : Nat) : Nat := leNat (Mem.read (fun _ => 0) s.mem (a + 5) 1)
/-- The write of PHASE. -/
def phaseWrite (a n : Nat) : Nat × List Byte := (a + 5, [BitVec.ofNat 8 n])

/-- The engine's next journal entry. -/
def State.journalNext (s : State) (k : Nat) : Nat := s.journalAt k ((s.upd k).jptr % s.journalLen k)

/-- The ring pointer moves on. -/
def State.journalStep (s : State) (k : Nat) : State :=
  let u := s.upd k
  s.setUpd k { u with jptr := (u.jptr + 1) % s.journalLen k }

/-! ### The step update (R225 to R231) -/

/-- The factor set arrays of R229: base of R, C, SR, SC in set p. -/
def TensorEntry.set (e : TensorEntry) (p : Nat) : Nat × Nat × Nat × Nat :=
  let b := e.factor + p % 2 * (8 * (e.rows + e.cols))
  (b, b + 4 * e.rows, b + 4 * (e.rows + e.cols), b + 4 * (2 * e.rows + e.cols))

/-- FP32 words of memory. -/
def State.words (s : State) (a n : Nat) : List Word := bytesLanes (s.load a (4 * n))

/-- A natural number in FP32. -/
def natF32 (n : Nat) : Word := (Num.fin false n 0).toF32 .rne false

/-- One decayed factor array: BETA2 × x + (1 - BETA2) × y / n in the order written. -/
def decayFactor (beta2 : Word) (n : Nat) (xs ys : List Word) : List Word :=
  (xs.zip ys).map fun p =>
    fadd .rne (fmul .rne beta2 p.1) (fdiv .rne (fmul .rne (fsub .rne one32 beta2) p.2) (natF32 n))

/-- Before an entry's first block: R and C of set p from set p', the sum of R, and SR and SC at 0 (R229). -/
def State.factorBegin (s : State) (k : Nat) (e : TensorEntry) (v : Variant) : State :=
  let t := v.step.toNat
  let (r, c, sr, _) := e.set t
  let (r', c', sr', sc') := e.set (t + 1)
  let n := e.rows + e.cols
  let zero := (s.updStore sr (List.replicate (4 * n) 0)).noteSlow sr (4 * n) true
  if 1 < t then
    let rn := decayFactor v.beta2 e.cols (s.words r' e.rows) (s.words sr' e.rows)
    let cn := decayFactor v.beta2 e.rows (s.words c' e.cols) (s.words sc' e.cols)
    let s1 := (((zero.updStore r (laneBytes rn)).updStore c (laneBytes cn)).noteSlow r (4 * n) true).noteSlow r' (8 * n) false
    s1.setUpd k { s1.upd k with rsum := rn.foldl (fadd .rne) 0 }
  else zero.setUpd k { s.upd k with rsum := 0 }

/-- What setting up a FACTORED entry meets: the other factor set is read once t is above 1, and the own set is written. -/
def State.factorTrouble (s : State) (k : Nat) (e : TensorEntry) (t : Nat) : Option UpdTrouble :=
  let n := e.rows + e.cols
  let (r, _, sr, _) := e.set t
  match if 1 < t then s.readTrouble k [((e.set (t + 1)).1, 8 * n)] else none with
  | some x => some x
  | none => if 1 < t then s.writeTrouble k r (8 * n) else s.writeTrouble k sr (4 * n)

/-- The elements of the factor set that a block's parameters name: R, C, SR and SC. -/
def TensorEntry.factorCells (e : TensorEntry) (t b : Nat) : List (Nat × Nat) :=
  let (r, c, sr, sc) := e.set t
  (e.places b).flatMap fun p => [(r + 4 * p.1, 4), (c + 4 * p.2, 4), (sr + 4 * p.1, 4), (sc + 4 * p.2, 4)]

/-- Adds g × g of a touched block to SR and SC in parameter order. -/
def State.factorAdd (s : State) (e : TensorEntry) (t : Nat) (ps : List (Nat × Nat)) (gs : List Word) : State :=
  let (_, _, sr, sc) := e.set t
  (ps.zip gs).foldl (fun st p =>
    let g2 := fmul .rne p.2 p.2
    let add (st : State) (a : Nat) : State :=
      (st.updStore a (leBytes 4 (fadd .rne (BitVec.ofNat 32 (st.loadNat a 4)) g2).toNat)).noteSlow a 4 true
    add (add st (sr + 4 * p.1.1)) (sc + 4 * p.1.2)) s

/-- The directions and moments of a block: u with decay, m, v (R228, R229). -/
def State.directions (s : State) (k : Nat) (e : TensorEntry) (v : Variant) (b : Nat) (gs xs : List Word) (old : Moments)
    (mask : List Bool) : List Word × Moments :=
  let t := v.step.toNat
  let c1 := fsub .rne one32 (powT v.beta1 t)
  let c2 := fsub .rne one32 (powT v.beta2 t)
  let (r, c, _, _) := e.set t
  let rsum := (s.upd k).rsum
  let out := ((e.places b).zip (gs.zip (xs.zip (old.m.zip (old.v.zip mask))))).map fun p =>
    let (place, g, x, m, w, masked) := p
    if masked then ((0 : Word), m, w)
    else
      let (u, m', w') := if v.rule = 3 then
          let (u, m') := factorStep v (decide (t ≤ 1)) rsum (BitVec.ofNat 32 (s.loadNat (r + 4 * place.1) 4))
            (BitVec.ofNat 32 (s.loadNat (c + 4 * place.2) 4)) g m
          (u, m', w)
        else ruleStep v c1 c2 g m w
      (fadd .rne u (fmul .rne v.wd x), m', w')
  (out.map fun o => o.1, ⟨out.map fun o => o.2.1, out.map fun o => o.2.2⟩)

/-- What the step update makes of a block. -/
structure BlockStep where
  master : List Byte
  xs : List Word
  codes : List Byte
  scales : List Byte
  payload : List Byte
  scale : Nat
  msat : Nat
  xsat : Nat
deriving DecidableEq, Repr

/-- R228 to R230 on one touched, unfrozen block. -/
def State.stepBlock (s : State) (k : Nat) (e : TensorEntry) (j : Nat) (gs : List Word) : BlockStep :=
  let c := s.compat
  let u := s.upd k
  let q := u.pos + j
  let v := s.variant e.variant
  let mask := s.paramMask e j
  let oldM := s.load (e.masterOf c j) (masterSize c)
  let xs := decodeMasters c oldM
  let oldC := s.load (e.momentOf c j) (momentSize c)
  let oldS := if c then [] else s.load (e.mscaleOf j) 8
  let (us, mom) := s.directions k e v (e.first + j) gs xs (decodeMoments c oldC oldS) mask
  let wm := !(v.rule = 3 && isZero32 v.beta1)
  let (mc, ms, mn) := encodeMoments c oldC oldS mom wm (decide (v.rule = 1)) (s.fld Reg.UPD_CTRL_LIVE 1 1)
    (s.updDraws k u.wpn q 16) (s.updDraws k u.wpn q 32)
  let (sc, cs, _) := quantise 127 (s.fld Reg.UPD_CTRL_LIVE 2 2) (us.zip (s.updDraws k u.wpn q 0))
  let new := if c then (xs.zip us).map fun p => moveCompat p.1 v.lr p.2
    else (xs.zip cs).map fun p => moveNative p.1 v.lr p.2 sc
  let (nm, sat) := encodeMasters c oldM new mask
  { master := nm, xs := decodeMasters c nm, codes := mc, scales := ms
    payload := if c then laneBytes us else cs.map fun q => BitVec.ofNat 8 (unsigned 8 q)
    scale := if c then 0 else sc, msat := mn, xsat := sat }

/-- The writes of a step update in the order of R231, from journal to PHASE 0. -/
def State.stepWrites (s : State) (k : Nat) (e : TensorEntry) (j : Nat) (n : BlockStep) (copies : List (Nat × List Byte)) :
    List (Nat × List Byte) :=
  let c := s.compat
  let u := s.upd k
  let a := s.journalNext k
  [(a, journalBytes u.wpn 1 u.entry (e.first + j) n.scale (s.variant e.variant).lr.toNat c n.payload)]
  ++ ((e.momentOf c j, n.codes) :: (if c then [] else [(e.mscaleOf j, n.scales)])) ++ [phaseWrite a 2]
  ++ [(e.masterOf c j, n.master), phaseWrite a 3] ++ copies
  ++ [(e.tagOf j, leBytes 4 (u.wpn % 2 ^ 32)), phaseWrite a 0]

/-- Some gradient source of a remaining block has been overwritten by the step in progress (R234). -/
def State.gradLost (s : State) (k : Nat) (e : TensorEntry) (j : Nat) : Bool :=
  let u := s.upd k
  u.resumed && !e.dense && (e.regionSet (e.first + j)).any fun b => s.regionHolds e b u.wpn

/-- Ranges a step update reads of a block. -/
def TensorEntry.stepReads (e : TensorEntry) (c : Bool) (j : Nat) : List (Nat × Nat) :=
  [(e.masterOf c j, masterSize c), (e.momentOf c j, momentSize c)] ++ (if c then [] else [(e.mscaleOf j, 8)])
    ++ e.mateReads c j

/-- A touched, unfrozen block that the step has not reached yet. -/
def State.applyStep (s : State) (k : Nat) (e : TensorEntry) (j : Nat) (gs : List Word) : State :=
  let c := s.compat
  if s.journalPhase (s.journalNext k) ≠ 0 then s
  else match s.readTrouble k (e.stepReads c j) with
    | some t => s.updFail k t
    | none =>
      let n := s.stepBlock k e j gs
      let (ws, reps) := s.copiesOf e c j n.xs
      let (s1, ok) := (s.noteReads (e.stepReads c j)).updWrites k (s.stepWrites k e j n ws)
      if !ok then s1
      else
        let u := s.upd k
        let s2 := ((((s1.updReports k reps).journalStep k).tally (Reg.UPD_BLOCKS k)).count (Reg.UPD_MOMENT_SAT k) n.msat).count
          (Reg.UPD_MASTER_SAT k) n.xsat
        (if s.checkDue (u.pos + j) u.wpn then s2.deviation k e j else s2).blockDone k

/-- The entry's variant names FACTORED and the entry has no factor region: it is treated as frozen (R229). -/
def State.factorless (s : State) (e : TensorEntry) : Bool := decide ((s.variant e.variant).rule = 3) && !e.fact

/-- The block is frozen, or its entry is treated so. -/
def State.passedOver (s : State) (e : TensorEntry) (j : Nat) : Bool := s.blockFrozen e j || s.factorless e

/-- Setting up the FACTORED entry in progress before its first block, and counting one without a factor
region. -/
def State.entryBegin (s : State) (k : Nat) (e : TensorEntry) : State :=
  let v := s.variant e.variant
  if v.rule ≠ 3 ∨ (s.upd k).block ≠ 0 then s
  else if e.fact then s.factorBegin k e v
  else s.tally (Reg.UPD_RULE_MISMATCH k)

/-- What setting it up meets. -/
def State.entryTrouble (s : State) (k : Nat) (e : TensorEntry) : Option UpdTrouble :=
  let v := s.variant e.variant
  if v.rule = 3 ∧ (s.upd k).block = 0 ∧ e.fact then s.factorTrouble k e v.step.toNat else none

/-- What the step update reads of a touched block before it moves anything: its gradient, and the factor set of a FACTORED
entry. -/
def State.liveReads (s : State) (k : Nat) (e : TensorEntry) (j : Nat) : List (Nat × Nat) :=
  let v := s.variant e.variant
  s.gradReads e j (s.upd k).wpn ++ (if v.rule = 3 then e.factorCells v.step.toNat (e.first + j) else [])

/-- The step update of an unfrozen block: passed over when untouched or already tagged. Of a FACTORED entry a tagged block
still adds its gradient to SR and SC, so that a resumed pass reproduces them (R229). -/
def State.stepLive (s : State) (k : Nat) (e : TensorEntry) (j : Nat) : State :=
  let u := s.upd k
  let v := s.variant e.variant
  let tagged := s.loadNat (e.tagOf j) 4 == u.wpn % 2 ^ 32
  if tagged ∧ v.rule ≠ 3 then s.blockDone k
  else match s.readTrouble k (if e.dense then [(e.touch + j / 8, 1)] else []) with
    | some t => s.updFail k t
    | none =>
      if s.gradLost k e j then s.jobFault 4 (some (updUnit k))
      else if !s.blockTouched e j u.wpn then
        if tagged then s.blockDone k
        else (s.tally (Reg.UPD_UNTOUCHED k)).blockDone k
      else match s.readTrouble k (s.liveReads k e j) with
        | some t => s.updFail k t
        | none =>
          let (gs, nf) := unscale u.exp (s.blockGrads e j u.wpn)
          let s1 := s.noteReads (s.liveReads k e j)
          let s2 := if v.rule = 3 then s1.factorAdd e v.step.toNat (e.places (e.first + j)) gs else s1
          if tagged then s2.blockDone k else (s2.count (Reg.UPD_NF_GRAD k) nf).applyStep k e j gs

/-- The step update of one block. -/
def State.stepOne (s0 : State) (k : Nat) : State :=
  let e := s0.curEntry k
  let j := (s0.upd k).block
  match s0.readTrouble k (maskRange e j ++ [(e.tagOf j, 8)]) with
  | some t => s0.updFail k t
  | none =>
    if s0.journalPhase (s0.journalNext k) ≠ 0 then s0
    else match s0.entryTrouble k e with
      | some t => s0.updFail k t
      | none =>
        let s := (s0.entryBegin k e).noteReads (maskRange e j ++ [(e.tagOf j, 8)])
        if s.passedOver e j then (s.tally (Reg.UPD_FROZEN k)).blockDone k else s.stepLive k e j

/-! ### Outer applications and null steps (R240 to R242) -/

/-- A snapshot element of round r at shard index p. -/
def State.snapshot (s : State) (r p : Nat) : Word :=
  let b := s.reg (if r % 2 = 0 then Reg.UPD_SNAP0 else Reg.UPD_SNAP1) / 4096 * 4096
  let n := s.fld Reg.UPD_SHARD 47 0
  codeTimes (signed 8 (s.loadNat (b + p) 1)) (s.loadNat (b + (n + 4095) / 4096 * 4096 + 2 * (p / 256)) 2)

/-- The ranges of a snapshot that 256 shard parameters from p on lie in. -/
def State.snapRanges (s : State) (r p : Nat) : List (Nat × Nat) :=
  let b := s.reg (if r % 2 = 0 then Reg.UPD_SNAP0 else Reg.UPD_SNAP1) / 4096 * 4096
  let n := s.fld Reg.UPD_SHARD 47 0
  [(b + p, 256), (b + (n + 4095) / 4096 * 4096 + 2 * (p / 256), 2 * ((p + 255) / 256 - p / 256 + 1))]

/-- Where the outer step's elements come from: nowhere for a null step. -/
structure OuterSrc where
  fp32 : Bool
  host : Bool
  die : Nat
  at_ : Nat
deriving DecidableEq, Repr

/-- The outer step's element at shard index p, in FP32. -/
def State.outerElem (s : State) (o : Option OuterSrc) (p : Nat) : Word :=
  match o with
  | none => 0
  | some q =>
    let w := if q.fp32 then 4 else 2
    let bs := if q.host then s.hostLoad q.die (q.at_ + w * p) w else s.load (q.at_ + w * p) w
    if q.fp32 then BitVec.ofNat 32 (leNat bs) else BitVec.ofNat 32 (leNat bs * 65536)

/-- The new masters and anchors of a block (R241). -/
def State.outerBlock (s : State) (e : TensorEntry) (j r : Nat) (o : Option OuterSrc) : List Byte × List Byte × Nat :=
  let c := s.compat
  let mask := s.paramMask e j
  let old := s.load (e.masterOf c j) (masterSize c)
  let anchors := halves (s.load (e.anchorOf j) 512)
  let p0 := e.shard + 256 * j
  let es := ((decodeMasters c old).zip (anchors.zip mask)).zipIdx.map fun q =>
    let (x, a, masked) := q.1
    let ov := s.outerElem o (p0 + q.2)
    let x' := fsub .rne (fadd .rne x ov) (s.snapshot r (p0 + q.2))
    let a' := (encodeElem 1 .rne true (ofF32 (fadd .rne (BitVec.ofNat 32 (a * 65536)) ov))).code
    (x', if masked then a else a')
  let (m, sat) := encodeMasters c old (es.map Prod.fst) mask
  (m, es.flatMap fun q => leBytes 2 q.2, sat)

/-- The source cannot be read any longer (R234). -/
def State.outerGone (s : State) (o : Option OuterSrc) (p : Nat) : Bool :=
  match o with
  | none => false
  | some q =>
    let w := if q.fp32 then 4 else 2
    if q.host then s.hostInReset q.die else !populated (q.at_ + w * p) (w * 256) || s.uncorrectable (q.at_ + w * p) (w * 256)

/-- An uncorrectable burst of the source is noted. -/
def State.outerNote (s : State) (o : Option OuterSrc) (p : Nat) : State :=
  match o with
  | none => s
  | some q =>
    let w := if q.fp32 then 4 else 2
    if q.host then s else s.noteBurst (q.at_ + w * p) (w * 256)

/-- Ranges an outer application reads of a block. -/
def State.outerReads (s : State) (e : TensorEntry) (j r : Nat) : List (Nat × Nat) :=
  let c := s.compat
  [(e.masterOf c j, masterSize c), (e.anchorOf j, 512)] ++ s.snapRanges r (e.shard + 256 * j) ++ e.mateReads c j

/-- A resumed pass of round r finds its round, or one of the later rounds that are due with it, in a block's tag (R234). -/
def State.outerRecorded (s : State) (k r tag : Nat) : Bool :=
  let u := s.upd k
  u.resumed && (decide (tag = r % 2 ^ 32) || (u.due.drop (u.idx + 1)).any fun p =>
    match p with
    | .outer _ _ q .. => decide (tag = q % 2 ^ 32)
    | .null q _ => decide (tag = q % 2 ^ 32)
    | _ => false)

/-- One block of an outer application (KIND 2) or a null step (KIND 3), in the order of R231. -/
def State.outerOne (s : State) (k kind r : Nat) (o : Option OuterSrc) : State :=
  let e := s.curEntry k
  let u := s.upd k
  let j := u.block
  let c := s.compat
  match s.readTrouble k (maskRange e j ++ [(e.tagOf j, 8)]) with
  | some t => s.updFail k t
  | none =>
    if s.passedOver e j then (s.tally (Reg.UPD_FROZEN k)).blockDone k
    else if s.outerRecorded k r (s.loadNat (e.tagOf j + 4) 4) then s.blockDone k
    else if s.journalPhase (s.journalNext k) ≠ 0 then s
    else if s.outerGone o (e.shard + 256 * j) then (s.outerNote o (e.shard + 256 * j)).jobFault 4 (some (updUnit k))
    else match s.readTrouble k (s.outerReads e j r) with
      | some t => s.updFail k t
      | none =>
        let (m, a, sat) := s.outerBlock e j r o
        let (ws, reps) := s.copiesOf e c j (decodeMasters c m)
        let jr := s.journalNext k
        let writes := [(jr, journalBytes r kind u.entry (e.first + j) 0 0 c []), (e.masterOf c j, m), phaseWrite jr 3,
          (e.anchorOf j, a), phaseWrite jr 4] ++ ws ++ [(e.tagOf j + 4, leBytes 4 r), phaseWrite jr 0]
        let (s1, ok) := (s.noteReads (s.outerReads e j r)).updWrites k writes
        if !ok then s1
        else
          let s2 := (((s1.updReports k reps).journalStep k).tally (Reg.UPD_BLOCKS k)).count (Reg.UPD_MASTER_SAT k) sat
          (if s.checkDue (u.pos + j) u.wpn then s2.deviation k e j else s2).blockDone k

/-! ### Re-derivation and sweeps (R236 to R238) -/

/-- The working copies of one block are derived afresh; no journal entry is taken (R231). -/
def State.deriveOne (s : State) (k : Nat) : State :=
  let e := s.curEntry k
  let j := (s.upd k).block
  let c := s.compat
  let rs := (e.masterOf c j, masterSize c) :: e.mateReads c j
  match s.readTrouble k rs with
  | some t => s.updFail k t
  | none =>
    let (ws, reps) := s.copiesOf e c j (s.masters e c j)
    let (s1, ok) := (s.noteReads rs).updWrites k ws
    if ok then ((s1.updReports k reps).tally (Reg.UPD_BLOCKS k)).blockDone k else s1

/-- One more block checked for a SWEEP descriptor. -/
def State.sweepCount (s : State) (p : UpdPass) : State :=
  match passOf p with
  | none => s
  | some d => { s with updOpen := s.updOpen.map fun (o : UpdOpen) =>
      if o.ring = d.1 ∧ o.idx = d.2 then { o with checked := o.checked + 1 } else o }

/-! ### Roll-forward (R233, R234) -/

/-- The block number within the entry that a journal entry names. -/
def journalBlock (d : List Byte) (e : TensorEntry) : Nat := fieldAt d 8 4 - e.first

/-- The master of a journalled step update, by its PAYLOAD: the block is taken as unfrozen. -/
def State.redoMaster (s : State) (e : TensorEntry) (j : Nat) (d : List Byte) : List Byte × Nat :=
  let c := bitOf (fieldAt d 0xE 1) 0
  let lr : Word := BitVec.ofNat 32 (fieldAt d 0x10 4)
  let old := s.load (e.masterOf c j) (masterSize c)
  let xs := decodeMasters c old
  let new := if c then (xs.zip (bytesLanes (slice d 0x20 1024))).map fun p => moveCompat p.1 lr p.2
    else (xs.zip (slice d 0x20 256)).map fun p => moveNative p.1 lr p.2.toInt (fieldAt d 0xC 2)
  encodeMasters c old new (s.paramMask e j)

/-- The outer step source of a round an interrupted pass still names; a null step has none. -/
def State.redoSrc (s : State) (k r : Nat) : Option OuterSrc :=
  (s.upd k).held.findSome? fun p => match p with
    | .outer ring _ q fp32 host src => if q = r then some ⟨fp32, host, s.ringDie ring, src⟩ else none
    | _ => none

/-- The anchors of a journalled outer application or null step. -/
def State.redoAnchor (s : State) (k : Nat) (e : TensorEntry) (j : Nat) (d : List Byte) : List Byte :=
  let o := if fieldAt d 4 1 = 2 then s.redoSrc k (fieldAt d 0 4) else none
  let p0 := e.shard + 256 * j
  ((halves (s.load (e.anchorOf j) 512)).zip (s.paramMask e j)).zipIdx.flatMap fun q =>
    leBytes 2 (if q.1.2 then q.1.1
      else (encodeElem 1 .rne true (ofF32 (fadd .rne (BitVec.ofNat 32 (q.1.1 * 65536)) (s.outerElem o (p0 + q.2))))).code)

/-- The writes that roll one journal entry forward; none where nothing was written yet. -/
def State.redoWrites (s : State) (k a : Nat) (d : List Byte) : List (Nat × List Byte) × List (Nat × CensusRep) :=
  let kind := fieldAt d 4 1
  let phase := fieldAt d 5 1
  let c := bitOf (fieldAt d 0xE 1) 0
  let e := s.mapEntry (s.liveMap k) (fieldAt d 6 2)
  let j := journalBlock d e
  let tail := if kind = 1 then [(e.tagOf j, leBytes 4 (fieldAt d 0 4))] else [(e.tagOf j + 4, leBytes 4 (fieldAt d 0 4))]
  if phase = 1 then ([phaseWrite a 0], [])
  else if kind = 1 ∧ phase = 2 then
    let m := (s.redoMaster e j d).1
    let (ws, rs) := s.copiesOf e c j (decodeMasters c m)
    ([(e.masterOf c j, m)] ++ ws ++ tail ++ [phaseWrite a 0], rs)
  else if phase = 3 ∧ kind ≠ 1 then
    let (ws, rs) := s.copiesOf e c j (s.masters e c j)
    ([(e.anchorOf j, s.redoAnchor k e j d)] ++ ws ++ tail ++ [phaseWrite a 0], rs)
  else
    let (ws, rs) := s.copiesOf e c j (s.masters e c j)
    (ws ++ tail ++ [phaseWrite a 0], rs)

/-- The mode of the entries in a ring: FLAGS.MODE of its first entry, since every pass starts there (R235) and the roll-forward
reads no UPD_CTRL (R233). -/
def State.journalMode (s : State) (k : Nat) : Bool :=
  bitOf (leNat (Mem.read (fun _ => 0) s.mem (s.reg (Reg.UPD_JRNL k) / 4096 * 4096 + 0xE) 1)) 0

/-- The address of a journal entry of a ring in a mode. -/
def State.ringAt (s : State) (k : Nat) (c : Bool) (i : Nat) : Nat :=
  s.reg (Reg.UPD_JRNL k) / 4096 * 4096 + journalSize c * i

/-- What the roll-forward of an entry reads: the entry, and the master, the anchor and the outer step it goes on from. -/
def State.redoReads (s : State) (k a : Nat) (d : List Byte) : List (Nat × Nat) :=
  let kind := fieldAt d 4 1
  let c := bitOf (fieldAt d 0xE 1) 0
  let e := s.mapEntry (s.liveMap k) (fieldAt d 6 2)
  let j := journalBlock d e
  if fieldAt d 5 1 = 1 then [(a, journalSize c)]
  else [(a, journalSize c), (e.masterOf c j, masterSize c)] ++ e.mateReads c j
    ++ (if fieldAt d 5 1 = 3 ∧ kind ≠ 1 then [(e.anchorOf j, 512)] else [])

/-- What reads that no window bounds meet first: a hole, or an uncorrectable burst. -/
def State.bareTrouble (s : State) (rs : List (Nat × Nat)) : Option UpdTrouble :=
  rs.findSome? fun r =>
    if r.2 = 0 then none
    else if !populated r.1 r.2 then some (.violation r.1)
    else (s.badBurst r.1 r.2).map UpdTrouble.bad

/-- What an entry's roll-forward meets: in the state it reads, in the bursts it would write in part, or an outer step source
that cannot be read any longer (R234, R246). -/
def State.redoTrouble (s : State) (k a : Nat) (d : List Byte) : Option UpdTrouble :=
  match s.bareTrouble (s.redoReads k a d) with
  | some t => some t
  | none =>
    let e := s.mapEntry (s.liveMap k) (fieldAt d 6 2)
    let p := e.shard + 256 * journalBlock d e
    if fieldAt d 5 1 = 3 ∧ fieldAt d 4 1 = 2 ∧ ((s.redoSrc k (fieldAt d 0 4)).isNone ∨ s.outerGone (s.redoSrc k (fieldAt d 0 4)) p) then
      some (.violation a)
    else (s.redoWrites k a d).1.findSome? fun w => ((s.tornBursts w.1 w.2.length).head?).map UpdTrouble.bad

/-- Masters that saturate when an entry's PAYLOAD is applied (R216). -/
def State.redoSat (s : State) (k : Nat) (d : List Byte) : Nat :=
  let e := s.mapEntry (s.liveMap k) (fieldAt d 6 2)
  if fieldAt d 4 1 = 1 ∧ fieldAt d 5 1 = 2 then (s.redoMaster e (journalBlock d e) d).2 else 0

/-- Rolls one journal entry forward, unless it meets trouble, which is an uncorrectable state error and leaves the entry live.
Its accesses are not checked against the engine's windows, which a reset may have closed (DEDUCED, assumption 64: R233 makes
the roll-forward of every reset bit-exact). -/
def State.redoEntry (s : State) (k : Nat) (c : Bool) (i : Nat) : State :=
  let a := s.ringAt k c i
  let d := s.load a (journalSize c)
  if s.journalPhase a = 0 then s
  else match s.redoTrouble k a d with
    | some (.bad b) => (s.noteBad b).jobFault 4 (some (updUnit k))
    | some (.violation b) => (s.noteBeyond b 1).jobFault 4 (some (updUnit k))
    | none =>
      let (ws, rs) := s.redoWrites k a d
      let s0 := (s.noteReads (s.redoReads k a d)).count (Reg.UPD_MASTER_SAT k) (s.redoSat k d)
      let s1 := (ws.foldl (fun t w => (t.updStore w.1 w.2).noteSlow w.1 w.2.length true) s0).updReports k rs
      if fieldAt d 5 1 = 1 then s1.progress (pgUPD k) 1
      else (s1.tally (Reg.UPD_ROLLFWD k)).progress (pgUPD k) 1

/-- Some journal entry of the engine is live. -/
def State.journalLive (s : State) (k : Nat) : Bool :=
  (List.range (s.journalLen k)).any fun i => decide (s.journalPhase (s.ringAt k (s.journalMode k) i) ≠ 0)

/-- The roll-forward of the whole ring, in ring order. -/
def State.rollForward (s : State) (k : Nat) : State :=
  (List.range (s.journalLen k)).foldl (fun t i => t.redoEntry k (s.journalMode k) i) s

/-- ENGINE_UNFREEZE: FROZEN → READY (R245). -/
def execEngineUnfreeze (who : Requester) (k : Fin 48) (s : State) : Host.Outcome State Fault Refusal :=
  .next (s.command who (pgUPD k) fun t => t.releaseUnit (.upd k))

/-! ### Variant slots (R239, R244) -/

/-- The parameter registers as a variant's parameters. -/
def State.varRegs (s : State) : Variant :=
  let w (a : Nat) : Word := BitVec.ofNat 32 (s.reg a)
  ⟨w Reg.UPD_RULE_CTRL, w Reg.UPD_VAR_LR, w Reg.UPD_VAR_BETA1, w Reg.UPD_VAR_BETA2, w Reg.UPD_VAR_EPS, w Reg.UPD_VAR_WD,
    w Reg.UPD_VAR_STEP⟩

/-- STAGE. -/
def State.stageVar (s : State) : State :=
  let n := s.fld Reg.UPD_VAR_SEL 7 0
  let v := s.varRegs
  if s.varStaged.any fun p => p.1 == n then
    ({ s with varStaged := s.varStaged.map fun (p : Nat × Variant) => if p.1 = n then (n, v) else p }).setFld
      Reg.UPD_VAR_CMD 29 28 1
  else if 256 ≤ s.varStaged.length then (s.tally Reg.UPD_VAR_STAGE_FULL).setFld Reg.UPD_VAR_CMD 29 28 2
  else ({ s with varStaged := s.varStaged ++ [(n, v)] }).setFld Reg.UPD_VAR_CMD 29 28 1

/-- READ. -/
def State.readVar (s : State) : State :=
  let v := s.variant (s.fld Reg.UPD_VAR_SEL 7 0)
  ((((((s.setReg Reg.UPD_RULE_CTRL v.ctl.toNat).setReg Reg.UPD_VAR_LR v.lr.toNat).setReg Reg.UPD_VAR_BETA1
    v.beta1.toNat).setReg Reg.UPD_VAR_BETA2 v.beta2.toNat).setReg Reg.UPD_VAR_EPS v.eps.toNat).setReg Reg.UPD_VAR_WD
      v.wd.toNat).setReg Reg.UPD_VAR_STEP v.step.toNat

/-- UPD_VAR_STAGE. -/
def execUpdVarStage (who : Requester) (s : State) : Host.Outcome State Fault Refusal :=
  .next (s.command who pgUPDC State.stageVar)

/-- UPD_VAR_READ. -/
def execUpdVarRead (who : Requester) (s : State) : Host.Outcome State Fault Refusal :=
  .next (s.command who pgUPDC State.readVar)

/-- Part (a) for the variants: staged writes first, then on a COMMIT that ends a step the count of every
enabled variant. -/
def State.applyVariants (s : State) (counts : Bool) : State :=
  let put (m : Map Variant) (n : Nat) (v : Variant) : Map Variant := Map.put (fun _ => {}) m n v
  let m := s.varStaged.foldl (fun m p => put m p.1 p.2) s.variants
  let m' := if counts then m.foldl (fun a e =>
      if e.2.enabled then put a e.1 { e.2 with step := e.2.step + 1 } else a) m else m
  { s with varStaged := [], variants := m' }

/-! ### UPDATE descriptors (R238, R242) -/

/-- CLOSED and APPLIED; all ones is none. -/
def State.roundClosed (s : State) : Option Nat :=
  let r := s.fld Reg.UPD_OUTER_STATE 31 0
  if r = 0xFFFFFFFF then none else some r
def State.roundApplied (s : State) : Option Nat :=
  let r := s.fld Reg.UPD_OUTER_STATE 63 32
  if r = 0xFFFFFFFF then none else some r

/-- The round is at or below APPLIED. -/
def State.roundStale (s : State) (r : Nat) : Bool :=
  match s.roundApplied with
  | some a => decide (r ≤ a)
  | none => false

/-- OUTER_STEP: bodies of R242. -/
def State.acceptOuter (s : State) (n idx : Nat) (d : List Byte) : State :=
  let r := fieldAt d 0x10 4
  let fl := fieldAt d 0x14 4
  let fp32 := bitOf fl 0
  let host := bitOf fl 1
  let null := bitOf fl 2
  let src := fieldAt d 0x18 8
  let cnt := fieldAt d 0x20 8
  let len := cnt * (if fp32 then 4 else 2)
  let late : Bool := match s.roundClosed with
    | some c => decide (c < r)
    | none => true
  let outside := !null && !host && decide (0 < cnt) &&
    (!s.windowed (s.ringWset n) src len false || match s.local? src with
      | some a => !populated a len
      | none => true)
  if late || decide (cnt ≠ s.fld Reg.UPD_SHARD 47 0) then s.freezeRing n (some idx) 0
  else if outside then
    s.freezeRing n (some idx)
      (if s.windowed (s.ringWset n) src len false then holeAt src len else s.firstShut (s.ringWset n) src false)
  else if s.roundStale r then (s.tally Reg.UPD_OUTER_STALE).finish n idx 8 0
  else
    let p := if null then UpdPass.null r (some (n, idx)) else .outer n idx r fp32 host (if host then src else src % 2 ^ 48)
    let s1 := s.acceptFlight n idx none
    { s1 with updQueue := s1.updQueue ++ [p], updOpen := s1.updOpen ++ [{ ring := n, idx := idx, left := List.range 48 }] }

/-- Every OUTER_STEP of the ring before a descriptor has been accepted or has its status: they are accepted in ring order. -/
def State.outerTurn (s : State) (n idx : Nat) : Bool :=
  ((s.ring n).flights.takeWhile fun f => decide (f.idx ≠ idx)).all fun f =>
    f.accepted || f.status.isSome || decide (opOf f.bytes ≠ 1)

/-- OUTER_STEP. -/
def execOuterStep (n : Fin 32768) (idx : BitVec 16) (s : State) : Host.Outcome State Fault Refusal :=
  match s.flightOf n idx.toNat 5 1 with
  | none => .next s
  | some f => if f.accepted ∨ !s.outerTurn n idx.toNat then .next s else .next (s.acceptOuter n idx.toNat f.bytes)

/-- The engines an ENGINE field names: 0xFF all; none where no such engine exists. -/
def enginesNamed (e : Nat) : List Nat := if e = 0xFF then List.range 48 else if e < 48 then [e] else []

/-- DERIVE and SWEEP wait on their engines for the next waypoint; a field that names no engine is a violation, and a
fenced engine among those named refuses. -/
def State.acceptPass (s : State) (n idx engine : Nat) (p : UpdPass) : State :=
  match enginesNamed engine with
  | [] => s.freezeRing n (some idx) 0
  | ks =>
    if ks.any fun k => !s.serving (updUnit k) then s.refuseFlight n idx else
    let s1 := ks.foldl (fun (t : State) k => t.setUpd k { t.upd k with later := (t.upd k).later ++ [p] }) (s.acceptFlight n idx none)
    { s1 with updOpen := s1.updOpen ++ [{ ring := n, idx := idx, left := ks }] }

/-- DERIVE. -/
def execDerive (n : Fin 32768) (idx : BitVec 16) (s : State) : Host.Outcome State Fault Refusal :=
  match s.flightOf n idx.toNat 5 2 with
  | none => .next s
  | some f =>
    if f.accepted then .next s
    else .next (s.acceptPass n idx.toNat (fieldAt f.bytes 0x10 1)
      (.derive_ n idx.toNat (fieldAt f.bytes 0x14 2) (fieldAt f.bytes 0x18 2)))

/-- SWEEP. -/
def execSweep (n : Fin 32768) (idx : BitVec 16) (s : State) : Host.Outcome State Fault Refusal :=
  match s.flightOf n idx.toNat 5 3 with
  | none => .next s
  | some f =>
    if f.accepted then .next s
    else .next (s.acceptPass n idx.toNat (fieldAt f.bytes 0x10 1) (.sweep n idx.toNat))

/-! ### What a waypoint makes due (R224, R235, R242) -/

/-- The null steps of the rounds from the one after APPLIED up to but not with r. -/
def State.nullsBefore (s : State) (r : Nat) : List UpdPass :=
  let a := match s.roundApplied with
    | some a => a + 1
    | none => 0
  (List.range (r - a)).map fun i => .null (a + i) none

/-- The round of an outer pass. -/
def passRound : UpdPass → Nat
  | .outer _ _ r .. => r
  | .null r _ => r
  | _ => 0

/-- Puts an outer step in its place by round, behind those of the same round. -/
def insertRound (p : UpdPass) : List UpdPass → List UpdPass
  | [] => [p]
  | q :: r => if passRound p < passRound q then p :: q :: r else q :: insertRound p r

/-- Sets APPLIED. -/
def State.setApplied (s : State) (r : Nat) : State := s.setFld Reg.UPD_OUTER_STATE 63 32 r

/-- The outer steps latched at a gather, oldest round first: the passes they make, APPLIED after each; a
round that has been applied meanwhile is stale. -/
def State.outerPasses (s : State) : List UpdPass → State × List UpdPass
  | [] => (s, [])
  | p :: r =>
    let n := passRound p
    if s.roundStale n then
      let s1 := match passOf p with
        | some d => ({ s with updOpen := s.updOpen.filter fun o => !(o.ring = d.1 ∧ o.idx = d.2) }.tally
            Reg.UPD_OUTER_STALE).finish d.1 d.2 8 0
        | none => s
      State.outerPasses s1 r
    else
      let nulls := s.nullsBefore n
      let (s2, ps) := State.outerPasses ((s.setApplied n).tally Reg.UPD_OUTER_APPLIED) r
      (s2, nulls ++ (p :: ps))

/-- Passes 2 and 3 of a waypoint; `opens` is the round the waypoint opens. -/
def State.outerDue (s : State) (queued : List UpdPass) (opens : Option Nat) : State × List UpdPass :=
  let (s1, ps) := s.outerPasses (queued.foldl (fun l p => insertRound p l) [])
  match opens with
  | some o =>
    if o < 2 ∨ s1.roundStale (o - 2) then (s1, ps)
    else ((s1.setApplied (o - 2)).tally Reg.UPD_OUTER_EXPIRED, ps ++ (s1.nullsBefore (o - 2) ++ [.null (o - 2) none]))
  | none => (s1, ps)

/-- WAYPOINT_DONE starts the engines (R17 step 5): the step update on COMMIT, then the outer steps; the
derivations and sweeps of `due` were latched at the gather instant. -/
def State.startUpdates (s : State) (commit : Bool) (outers : List UpdPass) (w : Nat) : State :=
  (List.range 48).foldl (fun (t : State) k =>
    let u := t.upd k
    t.setUpd k { u with todo := true, running := false, sweeping := false, held := [], resumed := false, wpn := w
                        exp := signed 8 (t.fld Reg.SC_LS_COMMITTED 7 0)
                        due := (if commit then [UpdPass.step] else []) ++ (outers ++ u.due) }) s

/-- At the gather instant each engine latches the DERIVE and SWEEP passes accepted so far, and part (g)
resets its journal ring pointer (R235). -/
def State.gatherUpdates (s : State) : State :=
  (List.range 48).foldl (fun (t : State) k =>
    let u := t.upd k
    t.setUpd k { u with due := u.later, later := [], jptr := 0 }) s

end Sys2Proof.Machine
end

