-- ==== Sys2Proof/Machine/Delta.lean ====
section
/-! DEFINITION. Delta formation, the hold store, span and snapshot streams (R271 to R281, R302, R305 to R309,
R367). -/

namespace Sys2Proof.Machine

/-! ### Registers of the exchange -/

/-- A region of the exchange: 0 ACC, 1 HOLD, 2 RESEND, 3 RXQ, 4 ANCHOR_COPY. -/
def State.regionAddr (s : State) (i : Nat) : Nat := s.reg (banked Reg.XCH_REGION_ADDR i) / 4096 * 4096
/-- Its size in bytes; 0 leaves it unset. -/
def State.regionSize (s : State) (i : Nat) : Nat := s.reg (banked Reg.XCH_REGION_SIZE i) % 2 ^ 48 / 4096 * 4096

/-- Sections of the table. -/
def State.sectCount (s : State) : Nat := s.fld Reg.XCH_SECT 11 0
/-- Section i. -/
def State.sect (s : State) (i : Nat) : Section := sectionOf (s.load (s.reg Reg.XCH_SECT / 4096 * 4096 + 64 * i) 64)

/-- The sections of an engine's segment. -/
def State.segment (s : State) (k : Nat) : List Nat :=
  let r := s.reg (Reg.CODEC_SEG k)
  ((List.range (bitsOf r 27 16)).map fun i => bitsOf r 11 0 + i).filter fun i => decide (i < s.sectCount)

/-- The codec engine's unit. -/
def codecUnit (k : Nat) : UnitId := .codec (Fin.ofNat 32 k)

/-- The engine takes work. -/
def State.codecWorks (s : State) (k : Nat) : Bool :=
  s.wardPowered 7 && s.serving (codecUnit k) && s.clockRuns 7 && !(s.unit (codecUnit k)).frozen

/-- ENABLE, KEEP_SHIFT, SMAX, Q_RND, K and M in force. -/
def State.xchEnabled (s : State) : Bool := s.flag Reg.XCH_CTRL_LIVE 31
def State.keepShift (s : State) : Nat := max 2 (min 8 (s.fld Reg.XCH_CTRL_LIVE 3 0))
def State.smax (s : State) : Nat := s.fld Reg.XCH_CTRL_LIVE 18 16
def State.qRnd (s : State) : Nat := s.fld Reg.XCH_CTRL_LIVE 8 8
def State.groupK (s : State) : Nat := s.fld Reg.XCH_CTRL_LIVE 29 24 + 1
def State.groupM (s : State) : Nat := min 16 (s.fld Reg.XCH_CTRL_LIVE 23 19)

/-! ### Reading a section (R274) -/

/-- BF16 elements as FP32. -/
def bf16s (bs : List Byte) : List Word := (halves bs).map fun n => BitVec.ofNat 32 (n * 65536)

/-- The masters of a section. -/
def State.sectMasters (s : State) (x : Section) : List Word :=
  let c := s.compat
  (List.range (x.params / 256)).flatMap fun j => decodeMasters c (s.load (x.master + masterSize c * j) (masterSize c))

/-- Master minus anchor, and the delta, of every parameter of a section. -/
def State.sectDeltas (s : State) (x : Section) : List (Word × Word) :=
  ((s.sectMasters x).zip ((bf16s (s.load x.anchor (2 * x.params))).zip (bf16s (s.load x.residual (2 * x.params))))).map
    fun q =>
      let l := fsub .rne q.1 q.2.1
      (l, fadd .rne l q.2.2)

/-- The ranges a pass reads of a section. -/
def State.sectReads (s : State) (x : Section) : List (Nat × Nat) :=
  [(x.master, masterSize s.compat * (x.params / 256)), (x.anchor, 2 * x.params), (x.residual, 2 * x.params)]

/-- Base and scales of fix snapshot r mod 2 (R240). -/
def State.snapBase (s : State) (r : Nat) : Nat := s.reg (if r % 2 = 0 then Reg.UPD_SNAP0 else Reg.UPD_SNAP1) / 4096 * 4096
def State.snapScales (s : State) (r : Nat) : Nat := s.snapBase r + (s.fld Reg.UPD_SHARD 47 0 + 4095) / 4096 * 4096

/-- What the reads of a section meet: an address outside populated memory, or an uncorrectable burst. -/
def State.sectTrouble (s : State) (rs : List (Nat × Nat)) : Option UpdTrouble :=
  s.bareTrouble rs

/-- The engine in trouble: a hole freezes it, an uncorrectable error in a shard's state is a data-path fault. -/
def State.codecFail (s : State) (k : Nat) : UpdTrouble → State
  | .violation a => (s.noteBeyond a 1).freezeCodec k a
  | .bad b => (s.noteBad b).jobFault 4 (some (codecUnit k))

/-! ### First pass (R275 to R277) -/

/-- The first pass over one section. -/
def State.passOne (s : State) (i : Nat) : State :=
  let x := s.sect i
  let st := sectStat (firstPass ((s.sectDeltas x).map fun q => usableDelta q.2)) x.params s.keepShift
  let s1 := { s with delta := { s.delta with stats := Map.set s.delta.stats i st } }
  if x.slot = 0 then s1 else { s1 with sectT := s1.sectT ++ [(x.slot, st.t)] }

/-- The formation in progress may read the shard: the update passes of its waypoint are done (R224). -/
def State.shardReady (s : State) : Bool :=
  match s.deltaOpen with
  | none => false
  | some (_, w) => s.passesDone w

/-- DELTA_FIRST_PASS: engine k passes over its segment once. -/
def execDeltaFirstPass (k : Fin 32) (s : State) : Host.Outcome State Fault Refusal :=
  let rs := (s.segment k).flatMap fun i => s.sectReads (s.sect i)
  if !s.shardReady ∨ !s.codecWorks k ∨ s.delta.pass1.contains k.val ∨ (s.segment k).isEmpty then .next s
  else match s.sectTrouble rs with
    | some t => .next (s.codecFail k t)
    | none =>
      let s1 := (s.segment k).foldl State.passOne (s.noteReads rs)
      .next { s1 with delta := { s1.delta with pass1 := s1.delta.pass1 ++ [k.val] } }

/-! ### Second pass (R278 to R281) -/

/-- The residuals of a block: d, less the value sent where it was selected. -/
def residuals : List (Nat × Word) → List (Nat × Word) → List Word
  | [], _ => []
  | (_, d) :: r, [] => usableDelta d :: residuals r []
  | (i, d) :: r, (j, v) :: t =>
    if i = j then fsub .rne d v :: residuals r t else usableDelta d :: residuals r ((j, v) :: t)

/-- One selection block: its record, if any is selected, residuals, conversions. `draw` gives the draw of a
parameter of the block. -/
def State.selectBlock (s : State) (st : SectStat) (block : Nat) (ds : List Word) (draw : Nat → Nat) :
    Option BlockRec × List Word × List Conv :=
  let keep := s.keepShift
  let us := ds.map usableDelta
  let b := blockBin us (min 4096 (4 * (4096 / 2 ^ keep))) 2048 st.bin
  let sel := (us.zipIdx.map fun p => (p.2, p.1)).filter fun p => decide (magOf p.2 ≠ 0) && decide (b * 2 ^ 20 ≤ magOf p.2)
  let q := quantRuns s.qRnd st.t (sel.map fun p => (p.2, draw p.1))
  let pos := sel.map Prod.fst
  (if sel.isEmpty then none else some ⟨block, pos, q.1, q.2.1⟩,
    residuals (ds.zipIdx.map fun p => (p.2, p.1)) (pos.zip q.2.2.1), q.2.2.2)

/-- A BF16 element of an FP32 value, RNE. -/
def toBf16 (w : Word) : List Byte := leBytes 2 (encodeElem 1 .rne true (ofF32 w)).code

/-- What pass 2 makes of a section: records, residual bytes, conversions, non-finite deltas. `first` is the number
of the section's first parameter within the segment, `w` the waypoint that opened the round, which the draws of R89 take however late
pass 2 runs (DEDUCED, assumption 49). -/
def State.selectSection (s : State) (k w first : Nat) (x : Section) (st : SectStat) (ds : List Word) :
    List BlockRec × List Byte × List Conv × Nat :=
  let seed := s.reg Reg.ENG_SEED_LIVE
  let bs := ((groupsOf 4096 ds.length ds).zipIdx).map fun g =>
    s.selectBlock st (x.start / 4096 + g.2) g.1 fun i =>
      let n := first + 4096 * g.2 + i
      srDraw seed w (0x20000 + k * 32 + n % 32) (n / 32)
  (bs.filterMap fun b => b.1, bs.flatMap fun b => b.2.1.flatMap toBf16, bs.flatMap fun b => b.2.2,
    (ds.filter fun d => !isFinite32 d).length)

/-- Codes and scales of a section's fix snapshot (R279). -/
def snapshotOf (ls : List Word) : List Byte × List Byte :=
  let gs := (groupsOf 256 ls.length ls).map fun g => quantise 127 0 (g.map fun l => (l, 0))
  (gs.flatMap fun g => g.2.1.map fun q => BitVec.ofNat 8 (unsigned 8 q), gs.flatMap fun g => leBytes 2 g.1)

/-- Bytes a section forms in its stream. -/
def chunkListBytes (cs : List Chunk) : List Byte := cs.flatMap Chunk.bytes

/-- Pass 2 over one section: residuals, snapshot, anchor copy, census, chunks. -/
def State.passTwo (s : State) (k r w first i : Nat) : State :=
  let x := s.sect i
  let st := (Map.find s.delta.stats i).getD ⟨one32, 0, 0, List.replicate 8 3⟩
  let both := s.sectDeltas x
  let (rs, res, cv, nf) := s.selectSection k w first x st (both.map Prod.snd)
  let cs := sectionPart i x.start x.params st rs
  let (codes, scales) := snapshotOf (both.map Prod.fst)
  let copy := match s.delta.snaps with
    | some (_ :: _) => true
    | _ => false
  let s1 := (s.guardedStore x.residual res).noteSlow x.residual res.length true
  let s2 := (s1.guardedStore (s1.snapBase r + x.start) codes).guardedStore (s1.snapScales r + 2 * (x.start / 256)) scales
  let s3 := if copy then s2.guardedStore (s2.regionAddr 4 + 2 * x.start) (s2.load x.anchor (2 * x.params)) else s2
  let rep := convCensus (cv.map some)
  let s4 := s3.report (112 + k) x.slot { rep with nonfinite := rep.nonfinite + nf }
  let raw := cs.foldl (fun n c => n + c.rawLen) 0
  let s5 := (s4.count (Reg.CODEC_ESCAPES k) (cs.filter fun c => c.kind == 2 && c.escape).length).progress (pgCODEC k)
    ((raw + 4095) / 4096)
  { s5 with delta := { s5.delta with parts := Map.set s5.delta.parts i (chunkListBytes cs) } }

/-- The ranges pass 2 writes besides. -/
def State.sectWrites (s : State) (r : Nat) (x : Section) : List (Nat × Nat) :=
  [(s.snapBase r + x.start, x.params), (s.snapScales r + 2 * (x.start / 256), (x.params + 255) / 256 * 2)]
  ++ (match s.delta.snaps with
    | some (_ :: _) => [(s.regionAddr 4 + 2 * x.start, 2 * x.params)]
    | _ => [])

/-- The first number of each section of a segment among its parameters. -/
def State.segmentFirsts (s : State) (l : List Nat) : List (Nat × Nat) :=
  (l.foldl (fun (a : List (Nat × Nat) × Nat) i => (a.1 ++ [(i, a.2)], a.2 + (s.sect i).params)) ([], 0)).1

/-! ### Streams and the hold store (R272, R302, R305, R306) -/

/-- A stream is formed: it takes the next STREAM number. -/
def State.formStream (s : State) (kind : StreamKind) (first last : Nat) (bytes : List Byte) (targets : List Nat) : State :=
  { s with
    tx := s.tx ++ [{ num := s.streamNum, kind := kind, first := first, last := last, bytes := bytes, targets := targets }]
    streamNum := (s.streamNum + 1) % 2 ^ 16 }

/-- Removes the oldest rounds of a hold store until it fits a size; counts them. -/
def trimHold (size : Nat) : List (Nat × List Byte) → List (Nat × List Byte) × Nat
  | [] => ([], 0)
  | e :: r =>
    if (e :: r).foldl (fun n x => n + x.2.length) 0 ≤ size then (e :: r, 0)
    else
      let t := trimHold size r
      (t.1, t.2 + 1)

/-- A round enters the hold store, which keeps the latest SMAX + 1 rounds and no more than its region holds. -/
def State.holdRound (s : State) (wire : Nat) (bytes : List Byte) : State :=
  let old := s.hold.filter fun e => decide (e.1 ≠ wire) && decide (roundsFrom e.1 wire ≤ s.smax)
  let (kept, lost) := trimHold (s.regionSize 1) (old ++ [(wire, bytes)])
  { s.count Reg.XCH_HOLD_LOST lost with hold := kept }

/-- The module's own round stream enters its receive path (R302). -/
def State.receiveOwn (s : State) (num wire : Nat) (bytes : List Byte) : State :=
  { s with rx := s.rx ++ [{ who := none, num := num, kind := .round, first := wire, last := wire, groups := 1
                            size := bytes.length + 1, grp := [(0, { k := 1, m := 0, data := some bytes })] }] }

/-- How many rounds before `wire` a partner's span begins, SMAX at most, once it is raised past rounds missing from the hold
store, so that every round of it is held; none where even `wire` is missing or the range begins after it. -/
def State.spanBack (s : State) (u wire : Nat) : Option Nat :=
  let n := roundsFrom u wire
  let held (i : Nat) : Bool := s.hold.any fun e => e.1 == (wire + 2 ^ 32 - i) % 2 ^ 32
  if 2 ^ 31 ≤ n then none
  else (List.range (min n s.smax + 1)).reverse.find? fun i => (List.range (i + 1)).all held

/-- A partner joins the span that begins at F. -/
def addSpan (l : List (Nat × List Nat)) (f p : Nat) : List (Nat × List Nat) :=
  if l.any fun e => e.1 == f then l.map fun e => if e.1 = f then (e.1, e.2 ++ [p]) else e else l ++ [(f, [p])]

/-- The first later round that opened while this one was being formed and that a partner has no part in (R305). -/
def State.laterMissed (s : State) (p : Nat) : Option Nat :=
  (s.deltaNext.find? fun e => !e.2.2.contains p).map fun e => s.wireRound e.1

/-- One partner that was UP at the opening: the round stream, or a span in its place (R306). The answer says
whether it takes the round stream. Where a later round has opened meanwhile, a partner that is no longer UP has the round
undelivered, as one whose stream was not started by then. -/
def State.assignPartner (s : State) (wire p : Nat) : State × Bool :=
  let late := match s.undelivered p with
    | none => true
    | some u => decide (2 ^ 31 ≤ roundsFrom u wire)
  if !s.ptrUp p ∧ s.deltaNext ≠ [] then (if late then s.setUndelivered p (some wire) else s, false)
  else match s.undelivered p with
    | none => (s, true)
    | some u =>
      let n := roundsFrom u wire
      if 2 ^ 31 ≤ n ∧ s.deltaNext ≠ [] then (s, true)
      else
        let left := if 2 ^ 31 ≤ n then 0 else n - (s.spanBack u wire).getD 0
        let s1 := (s.count Reg.XCH_SPAN_TRIMMED left).setUndelivered p (s.laterMissed p)
        match s.spanBack u wire with
        | none => (s1, true)
        | some i => ({ s1 with spanDue := addSpan s1.spanDue ((wire + 2 ^ 32 - i) % 2 ^ 32) p }, false)

/-- The shard indices that lie in no section, as ranges (R273). -/
def State.sectGaps (s : State) : List (Nat × Nat) :=
  let r := ((List.range s.sectCount).map s.sect).foldl (fun (a : List (Nat × Nat) × Nat) x =>
    (if a.2 < x.start then a.1 ++ [(a.2, x.start - a.2)] else a.1, max a.2 (x.start + x.params))) ([], 0)
  let n := s.fld Reg.UPD_SHARD 47 0
  if r.2 < n then r.1 ++ [(r.2, n - r.2)] else r.1

/-- The snapshot code of a shard index in no section is written as 0 (R273). -/
def State.clearGaps (s : State) (r : Nat) : State :=
  s.sectGaps.foldl (fun t g => t.guardedStore (t.snapBase r + g.1) (List.replicate g.2 0)) s

/-- The snapshot streams due: requests that wait still get the newer anchor where pass 2 has just copied it again. -/
def State.dueSnaps (s : State) (wire : Nat) : Option (Nat × List Nat) :=
  match s.delta.snaps with
  | some (p :: ps) => some (wire, (s.snapDue.map Prod.snd).getD [] ++ p :: ps)
  | _ => s.snapDue

/-- Delta formation of round r is done: hold store, own receive path, the round stream and the spans due, and the
snapshot stream due. -/
def State.finishRound (s : State) (r : Nat) : State :=
  let wire := s.wireRound r
  let bytes := s.delta.parts.flatMap fun e => e.2
  let s1 := ((s.clearGaps r).holdRound wire bytes).receiveOwn s.streamNum wire bytes
  let (s2, takers) := s1.delta.targets.foldl (fun (a : State × List Nat) p =>
    let (t, takes) := a.1.assignPartner wire p
    (t, if takes then a.2 ++ [p] else a.2)) (s1, [])
  let s3 := s2.formStream .round wire wire bytes takers
  { s3 with deltaOpen := none, delta := {}, snapDue := s3.dueSnaps wire }

/-- The engines that have sections. -/
def State.codecsDue (s : State) : List Nat := (List.range 32).filter fun k => !(s.segment k).isEmpty

/-- Finishes the round when every engine has done its second pass. -/
def State.tryFinish (s : State) : State :=
  match s.deltaOpen with
  | none => s
  | some (r, _) => if s.codecsDue.all fun k => s.delta.pass2.contains k then s.finishRound r else s

/-- The rounds that wait are taken up; one for which no engine has a section is formed at once. -/
def State.nextRounds (s : State) : State := iterate (fun t => t.takeRound.tryFinish) s.deltaNext.length s

/-- Latches the partners whose SNAP_REQ arrived before pass 2 began. -/
def State.latchSnaps (s : State) : State :=
  match s.delta.snaps with
  | some _ => s
  | none =>
    let ps := (List.range 256).filter fun p => (s.partner p).snapReq
    let s1 := ps.foldl (fun (t : State) p => t.setPartner p { t.partner p with snapReq := false }) s
    { s1 with delta := { s1.delta with snaps := some ps } }

/-- The second pass of engine k for round r, opened at waypoint w, which its draws take (DEDUCED, assumption 49). -/
def State.secondPass (s : State) (k r w : Nat) : State :=
  let s0 := s.latchSnaps
  let rs := (s0.segment k).flatMap fun i => s0.sectReads (s0.sect i)
  let ws := (s0.segment k).flatMap fun i => s0.sectWrites r (s0.sect i)
  match s0.sectTrouble rs with
  | some t => s0.codecFail k t
  | none =>
    match ws.find? fun x => decide (x.2 ≠ 0) && !populated x.1 x.2 with
    | some x => s0.codecFail k (.violation x.1)
    | none =>
      let s1 := (s0.segmentFirsts (s0.segment k)).foldl (fun t p => t.passTwo k r w p.2 p.1) (s0.noteReads rs)
      (State.tryFinish { s1 with delta := { s1.delta with pass2 := s1.delta.pass2 ++ [k] } }).nextRounds

/-- DELTA_SECOND_PASS: engine k passes over its segment again; the last engine forms the round stream. -/
def execDeltaSecondPass (k : Fin 32) (s : State) : Host.Outcome State Fault Refusal :=
  match s.deltaOpen with
  | none => .next s
  | some (r, w) =>
    if !s.shardReady ∨ !s.codecWorks k ∨ !s.delta.pass1.contains k.val ∨ s.delta.pass2.contains k.val then .next s
    else .next (s.secondPass k r w)

/-! ### Opening and closing (R24, R300, R305) -/

/-- A stream waits unstarted in a partner's queue. -/
def State.txOf (s : State) (n : Nat) : Option TxStream := s.tx.find? fun x => x.num == n

/-- A stream unstarted at a round opening leaves a partner's queue, and its rounds are undelivered (R305). -/
def State.unqueue (s : State) (p n : Nat) : State :=
  let s1 := { s with tx := s.tx.map fun (x : TxStream) =>
    if x.num = n then { x with targets := x.targets.filter fun q => q ≠ p } else x }
  match s.txOf n with
  | some x => if x.kind = .snapshot then s1 else s1.addUndelivered p x.first
  | none => s1

/-- Streams formed for a partner and neither started nor sent. -/
def State.unstarted (s : State) (p : Nat) : List Nat :=
  (s.tx.filter fun x => x.targets.contains p && !x.sent.contains p
    && ((s.partner p).cur.map Prod.fst != some x.num)).map fun x => x.num

/-- A partner at the opening of a round: its unstarted streams fall back; a DOWN partner adds the round. -/
def State.openPartner (s : State) (wire p : Nat) : State :=
  let s1 := (s.unstarted p).foldl (fun t n => t.unqueue p n) s
  let s2 := s1.setPartner p { s1.partner p with queue := [] }
  if s2.ptrState p = 1 then s2 else s2.addUndelivered p wire

/-- Round r opens at waypoint w. It is formed once the rounds before it are. -/
def State.openRound (s : State) (r w : Nat) : State :=
  let wire := s.wireRound r
  let s1 := (s.setFld Reg.XCH_ROUND 63 32 wire).dropSpans
  if s1.xchEnabled then
    let s2 := s1.validPartners.foldl (fun t p => t.openPartner wire p) s1
    State.nextRounds { s2 with deltaNext := s2.deltaNext ++ [(r, w, s2.validPartners.filter s2.ptrUp)] }
  else s1

/-! ### Span and snapshot streams (R307, R309) -/

/-- The parts of a section in the held rounds of a range, oldest first. -/
def State.heldParts (s : State) (first last i : Nat) : List HeldPart :=
  (s.hold.filter fun e => decide (roundsFrom first e.1 ≤ roundsFrom first last)).filterMap fun e => partOf (splitChunks e.2.length e.2).1 i

/-- The chunks of a span stream. -/
def State.spanChunks (s : State) (first last : Nat) : List Chunk :=
  (List.range s.sectCount).flatMap fun i =>
    let x := s.sect i
    match s.heldParts first last i with
    | [] => []
    | ps => spanSection i x.start x.params (roundsFrom first last + 1) ps

/-- Raw DATA chunks of a span are counted by the engine whose segment holds the section (R284, R307). -/
def State.countEscapes (s : State) (cs : List Chunk) : State :=
  (List.range 32).foldl (fun t k =>
    t.count (Reg.CODEC_ESCAPES k) (cs.filter fun c => c.kind == 2 && c.escape && (s.segment k).contains c.table).length) s

/-- The last round whose stream is formed: the newest one in the hold store. -/
def State.lastFormed (s : State) : Nat := (s.hold.getLast?.map Prod.fst).getD (s.fld Reg.XCH_ROUND 63 32)

/-- SPAN_STREAM_FORM: the span stream [first, r] of the partners it is due to, r being the last round formed. -/
def execSpanStreamForm (first : Word) (s : State) : Host.Outcome State Fault Refusal :=
  let f := first.toNat
  match s.spanDue.find? fun e => e.1 == f with
  | none => .next s
  | some e =>
    if !s.wardPowered 7 then .next s
    else
      let last := s.lastFormed
      let s1 := { s with spanDue := s.spanDue.filter fun d => d.1 ≠ f }
      let cs := s.spanChunks f last
      .next (((s1.formStream .span f last (chunkListBytes cs) e.2).countEscapes cs).tally Reg.XCH_SPANS_SENT)

/-- The ANCHOR chunks of a section, from the anchor copy. -/
def State.anchorChunks (s : State) (i : Nat) : List Chunk :=
  let x := s.sect i
  let a := s.fld Reg.UPD_OUTER_STATE 63 32
  let applied := if a = 0xFFFFFFFF then a else s.wireRound a
  (List.range ((x.params + 32759) / 32760)).map fun j =>
    let at_ := x.start + 32760 * j
    let n := min 32760 (x.params - 32760 * j)
    escaped 3 i (leBytes 8 at_ ++ leBytes 4 applied ++ [0, 0, 0, 0] ++ s.load (s.regionAddr 4 + 2 * at_) (2 * n))

/-- SNAPSHOT_STREAM_FORM: the snapshot stream of the round that served the requests. -/
def execSnapshotStreamForm (s : State) : Host.Outcome State Fault Refusal :=
  match s.snapDue with
  | none => .next s
  | some (r, ps) =>
    if !s.wardPowered 7 then .next s
    else
      let bytes := chunkListBytes ((List.range s.sectCount).flatMap s.anchorChunks)
      .next ((({ s with snapDue := none }).formStream .snapshot r r bytes ps).count Reg.XCH_SNAP_SERVED ps.length)

end Sys2Proof.Machine
end

