-- ==== Sys2Proof/Machine/Exchange.lean ====
section
/-! DEFINITION. Packets, partners, pacing, NACKs, feedback and the receive side up to chunks (R289 to R301,
R304, R308, R310, R330). -/

namespace Sys2Proof.Machine

/-! ### Ports and identity -/

/-- The SENDER of a partner: no register holds it, and the manual does not say how a receiver knows it. -/
def State.senderOf (s : State) (p : Nat) : Word :=
  Config.partnerSender p (BitVec.ofNat 64 (s.reg (banked Reg.XCH_PTR_IP_LO p)))
    (BitVec.ofNat 64 (s.reg (banked Reg.XCH_PTR_IP_HI p))) (BitVec.ofNat 64 (s.reg (banked Reg.XCH_PTR_MAC p)))

/-- The valid partner that a frame's JOB and SENDER match (R291). -/
def State.partnerOf (s : State) (f : Frame) : Option Nat :=
  if f.job.toNat = s.fld Reg.XCH_IDENT 63 48 then
    (List.range 256).find? fun p => s.ptrValid p && s.senderOf p == f.sender
  else none

/-- PROBE_MS, DOWN_MS and NACK_MS in ns; NACK_LIMIT. -/
def State.probeTime (s : State) : Nat := max 1 (s.fld Reg.XCH_TIMERS0 15 0) * 1000000
def State.downTime (s : State) : Nat := s.fld Reg.XCH_TIMERS0 31 16 * 1000000
def State.nackTime (s : State) : Nat := max 1 (s.fld Reg.XCH_TIMERS1 15 0) * 1000000
def State.nackLimit (s : State) : Nat := max 1 (s.fld Reg.XCH_TIMERS1 19 16)

/-- RATE.START, MAX and MIN in bit/s. -/
def State.rateStart (s : State) (p : Nat) : Nat := s.fld (banked Reg.XCH_PTR_RATE p) 47 32 * 10000000
def State.rateMax (s : State) (p : Nat) : Nat := s.fld (banked Reg.XCH_PTR_RATE p) 31 16 * 10000000
def State.rateMin (s : State) (p : Nat) : Nat := s.fld (banked Reg.XCH_PTR_RATE p) 15 0 * 10000000

/-- Sets a partner's rate and shows it in 10 Mb/s units. -/
def State.setRate (s : State) (p r : Nat) : State :=
  (s.setPartner p { s.partner p with rate := r }).setFld (ptrStatus p) 15 0 (min 0xFFFF (r / 10000000))

/-! ### Sending frames -/

/-- A frame with every field 0. -/
def blankFrame (typ : Nat) (payload : List Byte) : Frame :=
  { typ := BitVec.ofNat 4 typ, epoch := 0, clear := false, span := false, snap := false, job := 0, sender := 0, frame := 0
    first := 0, last := 0, group := 0, groups := 0, index := 0, k := 0, m := 0, len := 0, stream := 0, time := 0
    payload := payload, tag := [] }

/-- A control packet to a partner, encrypted for it alone (R324): it waits for a core and then goes out (R315). -/
def State.sendControl (s : State) (p : Nat) (f : Frame) : State :=
  let port := s.ptrPort p
  if !s.portWorks port then s
  else
    match s.seal port f with
    | (s1, some g) => s1.queueTx port [.control p g]
    | (s1, none) => s1

/-- The module's die can send control packets other than PROBEs to a partner: it is UP (R296), and the port sends. -/
def State.reaches (s : State) (p : Nat) : Bool := s.ptrUp p && s.portWorks (s.ptrPort p) && s.canSeal (s.ptrPort p)

/-- A PROBE to a partner. -/
def State.sendProbe (s : State) (p : Nat) : State :=
  (s.setPartner p { s.partner p with probed := some s.now }).sendControl p (blankFrame 5 (List.replicate 16 0))

/-! ### Cutting a stream (R289, R290) -/

/-- Consecutive runs of n. -/
def chop {α : Type} (n : Nat) (l : List α) : List (List α) := groupsOf n l.length l

/-- The packets of one group: data, then parity. -/
def groupPackets (x : TxStream) (m g groups : Nat) (data : List (List Byte)) : List Frame :=
  let k := data.length
  let mk (typ i : Nat) (d : List Byte) : Frame :=
    { blankFrame typ d with
      span := decide (x.kind = .span), snap := decide (x.kind = .snapshot)
      first := BitVec.ofNat 32 x.first, last := BitVec.ofNat 32 x.last, group := BitVec.ofNat 32 g
      groups := BitVec.ofNat 32 groups, index := BitVec.ofNat 8 i, k := BitVec.ofNat 8 k, m := BitVec.ofNat 8 m
      stream := BitVec.ofNat 16 x.num }
  data.zipIdx.map (fun p => mk 1 p.2 p.1) ++ (List.range m).map fun j => mk 2 (k + j) (parityPacketOf data j)

/-- All packets of a stream, in order. -/
def streamPackets (x : TxStream) (k m : Nat) : List Frame :=
  let gs := chop k (chop 8192 x.bytes)
  gs.zipIdx.flatMap fun g => groupPackets x m g.2 gs.length g.1

/-- Bytes a list of frames takes in the re-send buffer: header, payload and tag. -/
def framesSize (l : List Frame) : Nat := l.foldl (fun n f => n + 64 + f.payload.length) 0

/-- Bytes in the re-send buffer. -/
def State.resendUsed (s : State) : Nat :=
  s.tx.foldl (fun n x => n + framesSize x.frames) 0

/-- Encrypts packets one after the other. -/
def State.sealAll (s : State) (port : Nat) : List Frame → State × List Frame
  | [] => (s, [])
  | f :: r =>
    match s.seal port f with
    | (s1, some g) =>
      let (s2, gs) := s1.sealAll port r
      (s2, g :: gs)
    | (s1, none) => (s1, [])

/-- Replaces a stream. -/
def State.setTx (s : State) (x : TxStream) : State :=
  { s with tx := s.tx.map fun (y : TxStream) => if y.num = x.num then x else y }

/-- A stream that finds no room is not sent (R295); its rounds are undelivered to every partner. -/
def State.dropStream (s : State) (x : TxStream) : State :=
  let s1 := { (s.tally Reg.XCH_RESEND_FULL) with tx := s.tx.filter fun y => y.num ≠ x.num }
  let s2 := (List.range 256).foldl (fun (t : State) p =>
    t.setPartner p { t.partner p with queue := (t.partner p).queue.filter fun n => n ≠ x.num }) s1
  match x.kind with
  | .snapshot => s2
  | .round => s2.validPartners.foldl (fun t p => t.addUndelivered p x.first) s2
  | .span => x.targets.foldl (fun t p => t.addUndelivered p x.first) s2

/-- The partners of a stream on a port. -/
def State.targetsOn (s : State) (x : TxStream) (port : Nat) : List Nat := x.targets.filter fun p => decide (s.ptrPort p = port)

/-- A formed stream is cut, coded and encrypted on a die, once for all its partners (R324): its frames wait for cores, and the
stream is queued to the partners. -/
def State.encodeStream (s : State) (port : Nat) (x : TxStream) : State :=
  let ps := streamPackets x s.groupK s.groupM
  if s.regionSize 2 < s.resendUsed + framesSize ps + 0 then s.dropStream x
  else
    let (s1, fs) := s.sealAll port ps
    if fs.length < ps.length then s1
    else
      let s2 := (s1.setTx { x with frames := fs, coded := 0 }).queueTx port (fs.map fun _ => .stream x.num)
      x.targets.foldl (fun (t : State) p =>
        t.setPartner p { t.partner p with queue := (t.partner p).queue ++ [x.num] }) s2

/-- STREAM_ENCODE. A stream is encrypted once; one without partners on the die is not encrypted there. -/
def execStreamEncode (p : Fin 2) (stream : BitVec 16) (s : State) : Host.Outcome State Fault Refusal :=
  match s.txOf stream.toNat with
  | none => .next s
  | some x =>
    if !x.frames.isEmpty ∨ (s.targetsOn x p).isEmpty ∨ !s.wardPowered 7 ∨ !s.serving (.farPort p) ∨ !s.clockRuns 7 ∨ !s.canSeal p
    then .next s
    else .next (s.encodeStream p x)

/-! ### Pacing (R298, R299) -/

/-- Bits of a frame (R289's framing): Ethernet, IP, UDP, header, payload, tag, check sequence. -/
def State.frameBits (s : State) (port : Nat) (f : Frame) : Nat :=
  8 * (14 + (if s.flag (Reg.FP_CTRL port) 16 then 20 else 40) + 8 + 48 + f.payload.length + 16 + 4)

/-- Bits of a frame on the line: preamble and gap, 20 bytes, included (R5). -/
def State.lineBits (s : State) (port : Nat) (f : Frame) : Nat := s.frameBits port f + 160

/-- A pacer may start a stream: its frames are under the CURRENT epoch, or in cleartext. -/
def State.mayStart (s : State) (port : Nat) (fs : List Frame) : Bool :=
  match fs with
  | [] => true
  | f :: _ => if f.clear then s.sendsClear else decide (s.role port f.epoch.toNat = 2)

/-- The frames of a stream. -/
def State.txFrames (s : State) (n : Nat) : List Frame :=
  match s.txOf n with
  | some x => x.frames
  | none => []

/-- The stream is wholly erasure-coded and encrypted (R272). -/
def TxStream.ready (x : TxStream) : Bool := (x.bytes.isEmpty || !x.frames.isEmpty) && decide (x.frames.length ≤ x.coded)

/-- The same of the stream of a number. -/
def State.isCoded (s : State) (n : Nat) : Bool :=
  match s.txOf n with
  | some x => x.ready
  | none => false

/-- A partner has been sent all of a stream that it gets. -/
def State.markSent (s : State) (n p : Nat) : State :=
  { s with tx := s.tx.map fun (x : TxStream) =>
      if x.num = n ∧ !x.sent.contains p then { x with sent := x.sent ++ [p] } else x }

/-- A packet of a stream has just been transmitted. -/
def State.markTime (s : State) (n : Nat) : State :=
  { s with tx := s.tx.map fun (x : TxStream) => if x.num = n then { x with lastSent := s.now } else x }

/-- A paced frame goes out, and the next may follow after its bits at the rate; the port's line of 1.6 Tb/s is taken for its
bits there (R5, R299). -/
def State.pacedSend (s : State) (p n : Nat) (f : Frame) : State :=
  let port := s.ptrPort p
  let x := s.partner p
  let gap := if x.rate = 0 then 0 else s.frameBits port f * 1000000000 / x.rate
  let c := s.cipher port
  (((s.setPartner p { x with nextSend := s.now + gap }).setCipher port
    { c with lineFree := max c.lineFree (s.now * 1000) + s.lineBits port f * 1000 / 1600, lastServed := p }).sendFrame port f).markTime n

/-- A packet to re-send goes first (R293). -/
def State.sendAgain (s : State) (p n i : Nat) (rest : List (Nat × Nat)) : State :=
  let port := s.ptrPort p
  let s1 := s.setPartner p { s.partner p with resend := rest }
  match (s.txFrames n)[i]? with
  | none => s1
  | some f =>
    if !s.isCoded n then s else
    if s1.mayTransmit port f then (s1.pacedSend p n f).tally (Reg.FP_RESENT port)
    else s1.tallyIf (s.expired port f) (Reg.CPH_EXPIRED_TX port)

/-- The next packet of the stream in progress; a stream whose frames are held back is interrupted. -/
def State.sendNext (s : State) (p n i : Nat) : State :=
  let port := s.ptrPort p
  let fs := s.txFrames n
  match fs[i]? with
  | none => (s.setPartner p { s.partner p with cur := none }).markSent n p
  | some f =>
    if !s.isCoded n then s else
    if s.mayTransmit port f then
      let s1 := s.pacedSend p n f
      if i + 1 < fs.length then s1.setPartner p { s1.partner p with cur := some (n, i + 1) }
      else (s1.setPartner p { s1.partner p with cur := none }).markSent n p
    else
      ((s.setPartner p { s.partner p with cur := none }).markSent n p).count (Reg.CPH_EXPIRED_TX port)
        ((fs.drop i).filter (s.expired port)).length

/-- The first stream, in formation order, that a partner is to receive and has not been sent, those left out whose epoch is not
the current one. The ones behind it wait until it is encrypted (R272, R298). -/
def State.startable (s : State) (p : Nat) : Option Nat :=
  match s.tx.find? fun x => x.targets.contains p && !x.sent.contains p && s.mayStart (s.ptrPort p) x.frames with
  | some x => if x.ready then some x.num else none
  | none => none

/-- One turn of a partner's pacer. -/
def State.pacerTurn (s : State) (p : Nat) : State :=
  let x := s.partner p
  match x.resend with
  | (n, i) :: r => s.sendAgain p n i r
  | [] =>
    match x.cur with
    | some (n, i) => s.sendNext p n i
    | none =>
      match s.startable p with
      | none => s
      | some n =>
        (s.setPartner p { x with cur := some (n, 0), queue := x.queue.filter fun m => m ≠ n }).sendNext p n 0

/-- A partner's pacer has a packet that it may send now. -/
def State.pacerDue (s : State) (p : Nat) : Bool :=
  s.ptrUp p && decide ((s.partner p).nextSend ≤ s.now)
    && (!(s.partner p).resend.isEmpty || (s.partner p).cur.isSome || (s.startable p).isSome)

/-- The rates of a port's partners exceed its line rate of 1.6 Tb/s (R5, R299). -/
def State.portOver (s : State) (port : Nat) : Bool :=
  decide (1600000000000 < ((s.validPartners.filter fun q => s.ptrUp q && decide (s.ptrPort q = port)).map
    fun q => (s.partner q).rate).foldl (· + ·) 0)

/-- A partner's turn on its port: while the rates exceed the line rate the partners with a packet take turns, one packet each,
from the one served last on (R299). -/
def State.portTurn (s : State) (p : Nat) : Bool :=
  let port := s.ptrPort p
  let next := ((List.range 256).map fun i => ((s.cipher port).lastServed + 1 + i) % 256).find? fun q =>
    decide (s.ptrPort q = port) && s.pacerDue q
  !s.portOver port || next == some p

/-- PACER_SEND: one packet to a partner that is UP, once its spacing has passed, the port's line is free and it is the
partner's turn. -/
def execPacerSend (p : Fin 256) (s : State) : Host.Outcome State Fault Refusal :=
  let port := s.ptrPort p
  if s.ptrUp p ∧ s.portRuns port ∧ (s.partner p).nextSend ≤ s.now ∧ (s.cipher port).lineFree ≤ s.now * 1000 ∧ s.portTurn p then
    .next (s.pacerTurn p)
  else .next s

/-- The base rtt in µs: the smallest of the last 10 s since the partner became UP. -/
def Partner.base (x : Partner) (now : Nat) : Option Nat :=
  let l := (x.rtts.filter fun e => decide (now ≤ e.1 + 10000000000)).map Prod.snd
  match l with
  | [] => none
  | a :: r => some (r.foldl min a)

/-- The rate after one base interval whose smallest queuing delay is q µs. -/
def State.nextRate (s : State) (p q : Nat) : Nat :=
  let pace := s.reg (banked Reg.XCH_PTR_PACE p)
  let target := bitsOf pace 15 0
  let rate := (s.partner p).rate
  if q ≤ target then min (rate + bitsOf pace 23 16 * 10000000) (s.rateMax p)
  else
    let beta := bitsOf pace 31 24
    let cut := if 2 * (q - target) ≤ q then rate * beta * (q - target) / (256 * q) else rate * beta / 512
    max (rate - cut) (s.rateMin p)

/-- PACER_RATE_UPDATE: once per base interval. -/
def execPacerRateUpdate (p : Fin 256) (s : State) : Host.Outcome State Fault Refusal :=
  let x := s.partner p
  match x.base s.now, x.qmin with
  | some b, some q =>
    if s.ptrUp p ∧ x.interval + b * 1000 ≤ s.now then
      let s1 := s.setRate p (s.nextRate p q)
      .next (s1.setPartner p { s1.partner p with interval := s.now, qmin := none })
    else .next s
  | _, _ => .next s

/-! ### Partners coming and going (R296, R297) -/

/-- A partner comes UP: its pacer restarts, and base and rtts start afresh. -/
def State.partnerUp (s : State) (p : Nat) : State :=
  let s1 := (s.setPtrState p 1).setRate p (s.rateStart p)
  s1.setPartner p { s1.partner p with rtts := [], qmin := none, interval := s.now, nextSend := s.now }

/-- An authenticated packet with a TIME has come from a partner. -/
def State.heardFrom (s : State) (p time : Nat) : State :=
  let s1 := s.setPartner p { s.partner p with heard := s.now, newest := time }
  if s1.ptrState p = 1 then s1 else s1.partnerUp p

/-- A partner goes DOWN: the rest of the stream in progress and what waits to be re-sent are not sent. -/
def State.partnerLost (s : State) (p : Nat) : State :=
  let x := s.partner p
  let s1 := match x.cur with
    | some (n, _) => s.markSent n p
    | none => s
  ((s1.setPartner p { x with cur := none, resend := [] }).setPtrState p 2).tally Reg.XCH_PARTNER_DOWN

/-- PARTNER_DOWN: DOWN_MS without an authenticated packet. -/
def execPartnerDown (p : Fin 256) (s : State) : Host.Outcome State Fault Refusal :=
  if s.ptrUp p ∧ (s.partner p).heard + s.downTime ≤ s.now ∧ s.wardPowered 7 then .next (s.partnerLost p) else .next s

/-- VALID goes to 1 (R297). -/
def State.validatePartner (s : State) (p : Nat) : State :=
  if s.ptrValid p then s
  else
    let s1 := ((s.setFld (ptrCfg p) 31 31 1).setPtrState p 2).setUndelivered p none
    ((s1.setPartner p {}).setRate p (s.rateStart p)).sendProbe p

/-- VALID goes to 0: the partner is OFF. -/
def State.invalidatePartner (s : State) (p : Nat) : State :=
  let s1 := ((s.setFld (ptrCfg p) 31 31 0).setPtrState p 0).setPartner p {}
  { s1 with tx := s1.tx.map fun (x : TxStream) => { x with targets := x.targets.filter fun q => q ≠ p } }

/-- PARTNER_VALID. -/
def execPartnerValid (who : Requester) (p : Fin 256) (s : State) : Host.Outcome State Fault Refusal :=
  .next (s.command who pgXCH fun t => t.validatePartner p)

/-- PROBE_TIMER: a PROBE to each partner of the port whose interval has passed. -/
def execProbeTimer (p : Fin 2) (s : State) : Host.Outcome State Fault Refusal :=
  if !s.portWorks p then .next s
  else
    let due := s.validPartners.filter fun q => decide (s.ptrPort q = p.val) && (match (s.partner q).probed with
      | some t => decide (t + s.probeTime ≤ s.now)
      | none => true)
    .next (due.foldl State.sendProbe s)

/-! ### Receiving packets (R291) -/

/-- The frame's own sizes: LEN bytes of payload, 1 to 8,192, and a 16-byte tag. -/
def frameShaped (f : Frame) : Bool :=
  decide (f.payload.length = f.len.toNat) && decide (1 ≤ f.len.toNat ∧ f.len.toNat ≤ 8192) && decide (f.tag.length = 16)

/-- A frame is received by a port: counted, checked, and taken from a partner, or discarded. Where it is taken, `act` acts
on the partner and the plaintext. -/
def State.receive (s : State) (p : Nat) (f : Frame) (act : State → Nat → List Byte → State) : State :=
  let x := s.cipher p
  let s1 := ((s.tally (Reg.FP_RX_FRAMES p)).progress (pgFP p) 1).setCipher p { x with rxWait := x.rxWait + 1 }
  let partner := s1.partnerOf f
  if !frameShaped f then s1.tally (Reg.FP_RX_DISCARD p)
  else match s1.openFrame p partner f with
  | (s2, none) => s2.tally (Reg.FP_RX_DISCARD p)
  | (s2, some d) =>
    match partner with
    | none => s2.tally (Reg.FP_RX_DISCARD p)
    | some q => act (s2.heardFrom q f.time.toNat) q d

/-- A frame row: a frame of the row's type reaches the die while its port works. One with a bad frame check sequence is only
counted (assumption 52). -/
def State.frameRow (s : State) (p : Nat) (f : Frame) (typ : Nat) (act : State → Nat → List Byte → State) :
    Host.Outcome State Fault Refusal :=
  if f.typ.toNat ≠ typ ∨ !s.portWorks p then .next s
  else if f.badFcs then .next (s.tally (Reg.FP_RX_FCS p))
  else .next (s.receive p f act)

/-- Kind of the stream a packet names. -/
def frameKind (f : Frame) : StreamKind := if f.snap then .snapshot else if f.span then .span else .round

/-- A rx stream is the one a packet of a partner belongs to. -/
def RxStream.takes (x : RxStream) (q : Nat) (f : Frame) : Bool :=
  x.who == some q && x.num == f.stream.toNat && x.first == f.first.toNat && x.last == f.last.toNat
    && x.groups == f.groups.toNat && x.kind == frameKind f

/-- The header of a data or parity packet is in order. -/
def packetSane (f : Frame) : Bool :=
  let k := f.k.toNat
  let m := f.m.toNat
  let i := f.index.toNat
  decide (f.group.toNat < f.groups.toNat) && decide (1 ≤ k ∧ k ≤ 64) && decide (m ≤ 16) && decide (i < k + m)
    && (if f.typ = 1 then decide (i < k) else decide (k ≤ i) && decide (f.len.toNat = 8192))

/-- A snapshot stream is wanted from the partner. -/
def State.wantsSnapshot (s : State) (q num : Nat) : Bool :=
  match s.snapFetch with
  | some x => x.partner == q && (x.stream == none || x.stream == some num)
  | none => false

/-- A new receive stream; streams of the partner under the same number are over. -/
def State.newRx (s : State) (q : Nat) (f : Frame) : State :=
  let x : RxStream := { who := some q, num := f.stream.toNat, kind := frameKind f, first := f.first.toNat, last := f.last.toNat
                        groups := f.groups.toNat, size := 8192 * f.k.toNat, fedAt := s.now }
  let s1 := { s with rx := (s.rx.filter fun (y : RxStream) => !(y.who == some q && y.num == f.stream.toNat)) ++ [x] }
  let s2 := if x.kind = .span then s1.tally Reg.XCH_SPANS_RECV else s1
  match x.kind, s2.snapFetch with
  | .snapshot, some sf => { s2 with snapFetch := some { sf with stream := some f.stream.toNat } }
  | _, _ => s2

/-- Replaces a receive stream of a partner. -/
def State.setRx (s : State) (x : RxStream) : State :=
  { s with rx := s.rx.map fun (y : RxStream) => if y.who = x.who ∧ y.num = x.num then x else y }

/-- A FEEDBACK for a stream: ECHO, the TIME of the newest packet of the partner, and COUNT in network byte order. It goes to
a partner that is UP. -/
def State.sendFeedback (s : State) (q : Nat) (x : RxStream) : State :=
  let f := { blankFrame 4 (beBytes 4 (s.partner q).newest ++ beBytes 4 x.count ++ List.replicate 8 0) with
    first := BitVec.ofNat 32 x.first, last := BitVec.ofNat 32 x.last, stream := BitVec.ofNat 16 x.num }
  let s1 := s.setRx { x with unfed := 0, fedAt := s.now }
  if s.reaches q then s1.sendControl q f else s1

/-- A packet is put into its group; with K′ held the group is recovered. -/
def RxGroup.put (g : RxGroup) (i : Nat) (d : List Byte) : RxGroup × Bool :=
  let held := g.held ++ [(i, d)]
  let got := g.got ++ [i]
  if g.k ≤ held.length then
    ({ g with held := [], got := got, data := some (recoverGroup g.k held).flatten }, held.any fun e => decide (g.k ≤ e.1))
  else ({ g with held := held, got := got }, false)

/-- Recovered stream bytes wait in region RXQ while a handoff is in progress (R304). -/
def State.queueRx (s : State) (n : Nat) : State :=
  { s with handing := s.handing.map fun h => { h with queued := h.queued + n } }

/-- A handoff is in progress and region RXQ is full (R304). -/
def State.rxqFull (s : State) : Bool :=
  match s.handing with
  | some h => decide (s.regionSize 3 ≤ h.queued)
  | none => false

/-- A packet of a stream, sound and from a partner. A packet that is held or was held is a duplicate; any other of a group that
is recovered or lost is discarded (R291). -/
def State.takePacket (s : State) (p q : Nat) (f : Frame) (x : RxStream) (d : List Byte) : State :=
  let gi := f.group.toNat
  let g := (Map.find x.grp gi).getD { k := f.k.toNat, m := f.m.toNat }
  if g.lost ∨ g.k ≠ f.k.toNat then s.tally (Reg.FP_RX_DISCARD p)
  else if g.got.contains f.index.toNat then s.tally Reg.XCH_DUP
  else if g.data.isSome then s.tally (Reg.FP_RX_DISCARD p)
  else
    let (g1, repaired) := g.put f.index.toNat d
    let size := if gi + 1 < x.groups then 8192 * f.k.toNat else x.size
    let x1 := { x with grp := Map.set x.grp gi g1, size := size, arrived := s.now, count := x.count + 1, unfed := x.unfed + 1
                       nackAt := if x.nacks < s.nackLimit then s.now else x.nackAt
                       fedAt := if x.unfed = 0 then s.now else x.fedAt }
    let s1 := ((s.setRx x1).tallyIf repaired (Reg.FP_GROUPS_REPAIRED p)).queueRx ((g1.data.map List.length).getD 0)
    if 64 ≤ x1.unfed then s1.sendFeedback q x1 else s1

/-- A DATA or PARITY packet; while region RXQ is full it is an erasure (R304). -/
def State.takeData (s : State) (p : Nat) (f : Frame) (q : Nat) (d : List Byte) : State :=
  if s.rxqFull then s
  else if !packetSane f ∨ (f.snap ∧ !s.wantsSnapshot q f.stream.toNat) then s.tally (Reg.FP_RX_DISCARD p)
  else
    let s1 := if s.rx.any fun x => x.takes q f then s else s.newRx q f
    match s1.rx.find? fun x => x.takes q f with
    | none => s1
    | some x => s1.takePacket p q f x d

/-- DATA_PACKET. -/
def execDataPacket (p : Fin 2) (f : Frame) (s : State) : Host.Outcome State Fault Refusal :=
  s.frameRow p f 1 fun t q d => t.takeData p f q d

/-- PARITY_PACKET. -/
def execParityPacket (p : Fin 2) (f : Frame) (s : State) : Host.Outcome State Fault Refusal :=
  s.frameRow p f 2 fun t q d => t.takeData p f q d

/-! ### Control packets -/

/-- A field of a control payload, network byte order. -/
def payloadField (d : List Byte) (off n : Nat) : Nat := beNat (slice d off n)

/-- The packets of a group within its stream's packets: the first, and how many. -/
def groupSpan (fs : List Frame) (g : Nat) : Nat × Nat :=
  ((fs.findIdx? fun f => f.group.toNat == g).getD fs.length, (fs.filter fun f => f.group.toNat == g).length)

/-- A NACK (R293): packets not marked as held, lowest index first, until K′ less the held count are queued. -/
def State.takeNack (s : State) (q : Nat) (d : List Byte) : State :=
  let n := payloadField d 0 2
  let g := payloadField d 4 4
  let mask := payloadField d 8 16
  let fs := s.txFrames n
  let (at_, cnt) := groupSpan fs g
  if fs.isEmpty then s.tally Reg.XCH_NACK_GONE
  else
    let k := match fs[at_]? with
      | some f => f.k.toNat
      | none => 0
    let held := ((List.range cnt).filter fun i => bitOf mask i).length
    let want := ((List.range cnt).filter fun i => !bitOf mask i).take (k - held)
    let x := s.partner q
    s.setPartner q { x with resend := x.resend ++ want.map fun i => (n, at_ + i) }

/-- NACK. -/
def execNack (p : Fin 2) (f : Frame) (s : State) : Host.Outcome State Fault Refusal :=
  s.frameRow p f 3 fun t q d => if d.length < 32 then t.tally (Reg.FP_RX_DISCARD p) else t.takeNack q d

/-- A FEEDBACK gives a round-trip time in µs (R299). -/
def State.takeFeedback (s : State) (q : Nat) (d : List Byte) : State :=
  let rtt := (s.now / 1000 + 2 ^ 32 - payloadField d 0 4) % 2 ^ 32
  let x := s.partner q
  let l := (x.rtts.filter fun e => decide (s.now ≤ e.1 + 10000000000)) ++ [(s.now, rtt)]
  let b := match ({ x with rtts := l } : Partner).base s.now with
    | some b => b
    | none => rtt
  let qd := rtt - b
  let qm := match x.qmin with
    | some m => min m qd
    | none => qd
  (s.setPartner q { x with rtts := l, qmin := some qm }).setFld (ptrStatus q) 31 16 (min 0xFFFF (rtt / 10))

/-- FEEDBACK. -/
def execFeedback (p : Fin 2) (f : Frame) (s : State) : Host.Outcome State Fault Refusal :=
  s.frameRow p f 4 fun t q d => if d.length < 16 then t.tally (Reg.FP_RX_DISCARD p) else t.takeFeedback q d

/-- PROBE: answered with a PROBE_REPLY that echoes its TIME. -/
def execProbe (p : Fin 2) (f : Frame) (s : State) : Host.Outcome State Fault Refusal :=
  s.frameRow p f 5 fun t q _ => t.sendControl q (blankFrame 6 (beBytes 4 f.time.toNat ++ List.replicate 12 0))

/-- PROBE_REPLY: the partner has been heard. -/
def execProbeReply (p : Fin 2) (f : Frame) (s : State) : Host.Outcome State Fault Refusal :=
  s.frameRow p f 6 fun t _ _ => t

/-- ANCHOR_COPY is set and holds the shard. -/
def State.anchorCopyFits (s : State) : Bool :=
  decide (0 < s.regionSize 4) && decide (2 * s.fld Reg.UPD_SHARD 47 0 ≤ s.regionSize 4)

/-- SNAP_REQ: served at the next round opening; ignored where ANCHOR_COPY is unset or too small (R309). -/
def execSnapReq (p : Fin 2) (f : Frame) (s : State) : Host.Outcome State Fault Refusal :=
  s.frameRow p f 7 fun t q _ =>
    if t.anchorCopyFits then t.setPartner q { t.partner q with snapReq := true } else t

/-! ### Timers (R292, R294, R299, R308, R330) -/

/-- Groups of a stream that are neither recovered nor lost. -/
def RxStream.openGroups (x : RxStream) : List Nat :=
  (List.range x.groups).filter fun g => match Map.find x.grp g with
    | some y => y.data.isNone && !y.lost
    | none => true

/-- The NACK of a group. -/
def nackFrame (x : RxStream) (g : Nat) : Frame :=
  let held := match Map.find x.grp g with
    | some y => y.held.foldl (fun m e => Nat.lor m (2 ^ e.1)) 0
    | none => 0
  { blankFrame 3 (beBytes 2 x.num ++ [0, 0] ++ beBytes 4 g ++ beBytes 16 held ++ List.replicate 8 0) with
    first := BitVec.ofNat 32 x.first, last := BitVec.ofNat 32 x.last, stream := BitVec.ofNat 16 x.num }

/-- A group is lost. -/
def RxStream.lose (x : RxStream) (g : Nat) : RxStream :=
  let y := (Map.find x.grp g).getD { k := 0, m := 0 }
  { x with grp := Map.set x.grp g { y with held := [], lost := true } }

/-- FEEDBACK_TIMER: a millisecond in which packets of the stream arrived has ended. -/
def execFeedbackTimer (p : Fin 256) (stream : BitVec 16) (s : State) : Host.Outcome State Fault Refusal :=
  match s.rx.find? fun x => x.who == some p.val && x.num == stream.toNat with
  | none => .next s
  | some x => if 0 < x.unfed ∧ x.fedAt + 1000000 ≤ s.now then .next (s.sendFeedback p x) else .next s

/-- RESEND_RELEASE: the stream leaves the re-send buffer (R294). -/
def execResendRelease (stream : BitVec 16) (s : State) : Host.Outcome State Fault Refusal :=
  match s.txOf stream.toNat with
  | none => .next s
  | some x =>
    if (x.targets.all fun p => x.sent.contains p) ∧ x.lastSent + s.holdTime ≤ s.now then
      .next { s with tx := s.tx.filter fun y => y.num ≠ x.num }
    else .next s

/-- Frames of a PREVIOUS epoch still to go to a partner are held back: counted, and its stream is interrupted. -/
def State.expirePartner (s : State) (p : Nat) : State :=
  let x := s.partner p
  let port := s.ptrPort p
  let old (n i : Nat) : Bool := match (s.txFrames n)[i]? with
    | some f => s.expired port f
    | none => false
  let s1 := (s.setPartner p { x with resend := x.resend.filter fun e => !old e.1 e.2 }).count (Reg.CPH_EXPIRED_TX port)
    (x.resend.filter fun e => old e.1 e.2).length
  match x.cur with
  | some (n, i) => if old n i then s1.sendNext p n i else s1
  | none => s1

/-- PREVIOUS_HOLD_END: HOLD_S after a switch. -/
def execPreviousHoldEnd (s : State) : Host.Outcome State Fault Refusal :=
  if s.holdPassed ∧ s.wardPowered 7 then .next (s.validPartners.foldl State.expirePartner s) else .next s

/-- FAR_PORT_LINK_CHANGE: the Ethernet link comes up or goes down; over a cable held in low-power mode it stays down
(R408). -/
def execFarPortLinkChange (p : Fin 2) (up : Bool) (s : State) : Host.Outcome State Fault Refusal :=
  if s.wardPowered 7 ∧ !(up && s.pads.lowPower.contains p.val) then
    .next ((if up then s.trainLanes (102 + 8 * p) 8 else s).setFld (Reg.FP_CTRL p) 31 31 (boolNat up))
  else .next s

/-! ### Chunks of a receive stream (R286, R301) -/

/-- What the bytes of a stream from an offset on are. -/
inductive Piece where
  | wait
  | lost
  | short
  | bytes (l : List Byte)
deriving DecidableEq, Repr

/-- The state of each group a range lies in. -/
def RxStream.groupsFrom (x : RxStream) (off n : Nat) : List (Option RxGroup) :=
  let sz := max 1 x.size
  ((List.range ((off + (n - 1)) / sz + 1 - off / sz)).map fun i => off / sz + i).filter (fun g => decide (g < x.groups)) |>.map
    fun g => Map.find x.grp g

/-- n bytes of a stream from an offset on. -/
def RxStream.piece (x : RxStream) (off n : Nat) : Piece :=
  let gs := x.groupsFrom off n
  if gs.any fun g => match g with
    | some y => y.lost
    | none => false then .lost
  else if gs.any fun g => match g with
    | some y => y.data.isNone
    | none => true then .wait
  else
    let bs := (gs.flatMap fun g => (g.bind fun y => y.data).getD []).drop (off % max 1 x.size)
    if bs.length < n then .short else .bytes (bs.take n)

/-- Every byte of the stream from an offset on is known, and all are 0: what pads a recovered last packet. -/
def RxStream.endsAt (x : RxStream) (off : Nat) : Bool :=
  match Map.find x.grp (x.groups - 1) with
  | some y =>
    match y.data with
    | some d =>
      let start := max 1 x.size * (x.groups - 1)
      decide (x.groups = 0) || (decide (start ≤ off) && (d.drop (off - start)).all fun b => b == 0)
    | none => false
  | none => decide (x.groups = 0)

/-- The next chunk of a stream. -/
inductive NextChunk where
  | wait
  | over
  /-- its header touches a lost group -/
  | noHeader
  /-- its body touches a lost group; what follows begins at `next` -/
  | touched (next : Nat)
  /-- the stream ends before its body does -/
  | cut
  | chunk (c : Chunk) (next : Nat)
deriving DecidableEq, Repr

/-- The next chunk of a stream. -/
def RxStream.nextChunk (x : RxStream) : NextChunk :=
  if x.endsAt x.off then .over
  else match x.piece x.off 16 with
    | .wait => .wait
    | .lost => .noHeader
    | .short => .cut
    | .bytes h =>
      let (c, n) := chunkHead h
      if n = 0 then .chunk c (x.off + 16)
      else match x.piece (x.off + 16) n with
        | .wait => .wait
        | .lost => .touched (x.off + 16 + n)
        | .short => .cut
        | .bytes b => .chunk { c with body := b } (x.off + 16 + n)

/-- A partner's report record. -/
def State.reportOf (s : State) (q : Nat) : PartnerReport := Map.get (fun _ => {}) s.reports q
/-- Replaces it. -/
def State.setReport (s : State) (q : Nat) (r : PartnerReport) : State :=
  { s with reports := Map.put (fun _ => {}) s.reports q r }

/-- A chunk is discarded whole. -/
def State.chunkLost (s : State) (who : Option Nat) : State :=
  let s1 := s.tally Reg.XCH_CHUNKS_LOST
  match who with
  | some q => s1.setReport q { s1.reportOf q with lost := (s1.reportOf q).lost + 1 }
  | none => s1

/-- A chunk that fails is discarded under its cause. -/
def State.failChunk (s : State) (k : Nat) (who : Option Nat) : Expanded → State
  | .size => (s.tally (Reg.CODEC_SIZE_FAULT k)).chunkLost who
  | .crc => (s.tally (Reg.CODEC_CRC_FAIL k)).chunkLost who
  | _ => s.chunkLost who

/-- What is wrong with a chunk of a snapshot (R285, R286): its size or CRC, a kind other than ANCHOR, or a TABLE that names no
section. -/
def State.snapFault (s : State) (c : Chunk) : Option Expanded :=
  match c.expand none with
  | .ok _ => if c.kind = 3 ∧ c.table < s.sectCount then none else some .bad
  | e => some e

/-- The chunks of a snapshot from an offset on that are discarded: its TABLE and the cause. Where a header touches a lost group, how
many follow is not known, and one is counted. -/
def State.snapFaults (s : State) (x : RxStream) : Nat → List (Nat × Expanded)
  | 0 => []
  | fuel + 1 =>
    match x.nextChunk with
    | .wait | .over => []
    | .noHeader => [(0, .bad)]
    | .cut => [(0, .size)]
    | .touched n => (0, .bad) :: s.snapFaults { x with off := n } fuel
    | .chunk c n => ((s.snapFault c).map fun e => (c.table, e)).toList ++ s.snapFaults { x with off := n } fuel

/-- The engine that a chunk of a section belongs to: the one whose segment holds the section, else engine 0. -/
def State.engineOf (s : State) (i : Nat) : Nat := ((List.range 32).find? fun k => (s.segment k).contains i).getD 0

/-- The chunks of a snapshot that are not sound are discarded, each under its cause. -/
def State.failChunks (s : State) (x : RxStream) : State :=
  (s.snapFaults x (x.groups * x.size)).foldl (fun (t : State) q => t.failChunk (s.engineOf q.1) x.who q.2) s

/-- A snapshot that is not sound ends: its bad chunks are counted, and the fetch completes TIMEOUT (R286, R310). -/
def State.endSnapshot (s : State) (f : SnapFetch) (x : RxStream) : State :=
  { ((s.failChunks x).finish f.ring f.idx 0xA 0) with snapFetch := none }

/-- A snapshot that lost a group ends (R310); the chunks that touch the group count, and bad ones beside them (R286). -/
def State.snapshotLost (s : State) (x : RxStream) : State :=
  match s.snapFetch with
  | some f => if x.kind = .snapshot ∧ x.who = some f.partner then s.endSnapshot f x else s
  | none => s

/-- NACK_TIMEOUT: a NACK for every incomplete group, or NACK_MS after the last one the groups are lost. A partner that is not
UP is sent none (R296). -/
def execNackTimeout (p : Fin 256) (stream : BitVec 16) (s : State) : Host.Outcome State Fault Refusal :=
  match s.rx.find? fun x => x.who == some p.val && x.num == stream.toNat with
  | none => .next s
  | some x =>
    if x.openGroups.isEmpty ∨ s.now < x.nackAt + s.nackTime ∨ !s.wardPowered 7 then .next s
    else if x.nacks < s.nackLimit then
      let s1 := s.setRx { x with nacks := x.nacks + 1, nackAt := s.now }
      if s.reaches p then
        .next ((x.openGroups.foldl (fun t g => t.sendControl p (nackFrame x g)) s1).count Reg.XCH_NACKS_SENT x.openGroups.length)
      else .next s1
    else
      let x1 := x.openGroups.foldl RxStream.lose x
      .next (((s.setRx x1).count Reg.XCH_GROUPS_LOST x.openGroups.length).snapshotLost x1)

/-- A - j over wire rounds, modulo 2^32. -/
def State.age (s : State) (j : Nat) : Int := signed 32 ((s.fld Reg.XCH_ROUND 31 0 + 2 ^ 32 - j % 2 ^ 32) % 2 ^ 32)

/-- The staleness weight W[n] in force. -/
def State.weightAt (s : State) (n : Nat) : Word :=
  if s.smax < n then 0 else BitVec.ofNat 32 (s.reg (Reg.XCH_WEIGHT_LIVE0 + 4 * n))

/-- The weight of a chunk of a stream [first, last]; wire rounds count modulo 2^32 (R271). -/
def State.chunkWeight (s : State) (first last : Nat) : Word :=
  let k := roundsFrom first last + 1
  let sum := ((List.range k).map fun i => s.weightAt (max 0 (s.age (first + i))).toNat).foldl (fadd .rne) 0
  fmul .rne (fdiv .rne one32 ((Num.fin false k 0).toF32 .rne false)) sum

/-- The additions of one record into the accumulator: address and bytes. -/
def State.addRecord (s : State) (w t : Word) (r : BlockRec) : State :=
  let vs := recordValues r t
  (r.pos.zip vs).foldl (fun (u : State) q =>
    let a := u.regionAddr 0 + 4 * (4096 * r.block + q.1)
    let old : Word := BitVec.ofNat 32 (u.loadNat a 4)
    u.guardedStore a (leBytes 4 (fadd .rne old (fmul .rne w q.2)).toNat)) s

/-- The accumulator has a place for the records of a section. -/
def State.accHolds (s : State) (c : ChunkTable) : Bool :=
  decide (4 * (c.start + c.params) ≤ s.regionSize 0) && populated (s.regionAddr 0) (max 1 (4 * (c.start + c.params)))

/-- Notes an added chunk in the report. -/
def State.noteAdded (s : State) (k : Nat) (x : RxStream) (w : Word) : State :=
  let s1 := s.tally (Reg.CODEC_CHUNKS_ADDED k)
  match x.who with
  | none => { s1 with ownAdded := s1.ownAdded + 1 }
  | some q =>
    let r := s1.reportOf q
    s1.setReport q { r with first := min r.first x.first, last := max r.last x.last, weight := w, added := r.added + 1
                            streams := if x.added then r.streams else r.streams + 1 }

/-- The records of a DATA chunk are weighted and added by engine k. -/
def State.addChunk (s : State) (k : Nat) (x : RxStream) (tab : ChunkTable) (raw : Nat) (rs : List BlockRec) : State :=
  let w := s.chunkWeight x.first x.last
  let s1 := s.tallyIf (decide (s.age x.last < 0)) Reg.XCH_EARLY
  if isZero32 w then s1.tally Reg.XCH_STALE_DROPPED
  else
    let s2 := s1.tallyIf (decide ((s.smax : Int) < s.age x.first)) Reg.XCH_STALE_PARTIAL
    let s3 := (rs.foldl (fun t r => t.addRecord w tab.t r) s2).progress (pgCODEC k) ((raw + 4095) / 4096)
    (s3.noteAdded k x w).setRx { x with added := true }

/-- A TABLE chunk: taken when it matches this module's own section. -/
def State.takeTable (s : State) (k : Nat) (x : RxStream) (c : Chunk) : State :=
  match c.expand none with
  | .ok raw =>
    let t := chunkTable raw
    let own := s.sect c.table
    if raw.length = 32 ∧ c.table < s.sectCount ∧ t.start = own.start ∧ t.params = own.params ∧ t.sound then
      s.setRx { x with tables := Map.set x.tables c.table t }
    else s.chunkLost x.who
  | e => s.failChunk k x.who e

/-- A DATA chunk. -/
def State.takeDataChunk (s : State) (k : Nat) (x : RxStream) (c : Chunk) : State :=
  match Map.find x.tables c.table with
  | none =>
    match c.expand none with
    | .ok _ => s.chunkLost x.who
    | e => s.failChunk k x.who e
  | some t =>
    match c.expand (some t) with
    | .ok raw =>
      match parseRecords raw.length raw with
      | some rs =>
        if (rs.all (recordGood t.start t.params)) ∧ s.accHolds t then s.addChunk k x t raw.length rs else s.chunkLost x.who
      | none => s.chunkLost x.who
    | e => s.failChunk k x.who e

/-- One chunk of a round or span stream. -/
def State.takeChunk (s : State) (k : Nat) (x : RxStream) (c : Chunk) : State :=
  if c.kind = 1 ∧ c.escape then s.takeTable k x c
  else if c.kind = 2 then s.takeDataChunk k x c
  else
    match c.expand none with
    | .ok _ => s.chunkLost x.who
    | e => s.failChunk k x.who e

/-- The stream's chunks are all taken; the module's own stream is dropped. -/
def State.endRx (s : State) (x : RxStream) : State :=
  match x.who with
  | none => { s with rx := s.rx.filter fun y => !(y.who == none && y.num == x.num) }
  | some _ => s.setRx { x with done := true }

/-- Engine k may take the chunk: its segment holds the section, or no segment does. -/
def State.takesSection (s : State) (k i : Nat) : Bool :=
  (s.segment k).contains i || !((List.range 32).any fun j => (s.segment j).contains i)

/-- The scale and the records of a DATA chunk that may be added. -/
def State.chunkRecords (s : State) (x : RxStream) (c : Chunk) : Option (Word × List BlockRec) :=
  match Map.find x.tables c.table with
  | none => none
  | some t =>
    match c.expand (some t) with
    | .ok raw =>
      match parseRecords raw.length raw with
      | some rs => if c.kind = 2 ∧ (rs.all (recordGood t.start t.params)) ∧ s.accHolds t then some (t.t, rs) else none
      | none => none
    | _ => none

/-- The chunk that engine k has at hand: the first of its segment that has arrived whole. The answer gives its stream, where the
next chunk begins, its scale and its records. -/
def State.chunkAtHand (s : State) (k : Nat) : Option (RxStream × Nat × Word × List BlockRec) :=
  s.rx.findSome? fun x =>
    if x.done ∨ x.kind = .snapshot then none
    else match x.nextChunk with
      | .chunk c n => if (s.segment k).contains c.table then (s.chunkRecords x c).map fun q => (x, n, q.1, q.2) else none
      | _ => none

/-- The section and the block of the chunk that engine k has before it, a TABLE or DATA chunk of its segment that has arrived
whole: a DATA chunk's first block, where its records can be read, else the section's first. -/
def State.chunkWaiting (s : State) (k : Nat) : Option (Nat × Nat) :=
  s.rx.findSome? fun x =>
    if x.done ∨ x.kind = .snapshot then none
    else match x.nextChunk with
      | .chunk c _ =>
        if (s.segment k).contains c.table ∧ (c.kind = 1 ∨ c.kind = 2) then
          some (c.table, match s.chunkRecords x c with
            | some (_, r :: _) => r.block
            | _ => (s.sect c.table).start / 4096)
        else none
      | _ => none

/-- The first values of some records. -/
def firstValues : Nat → List BlockRec → List BlockRec
  | _, [] => []
  | m, r :: rs => { r with pos := r.pos.take m } :: firstValues (m - r.pos.length) rs

/-- A fence reaches engine k (R367). Whether it was adding the chunk it has at hand, and how many values it had added, is open: a
free value says so; what had been added stays, and the chunk counts as lost. -/
def State.cutAdd (s : State) (k : Nat) : State :=
  if !s.wardPowered 7 ∨ !s.clockRuns 7 ∨ (s.unit (codecUnit k)).frozen ∨ s.handing.isSome then s
  else match s.chunkAtHand k with
    | none => s
    | some (x, n, t, rs) =>
      let f := s.freeValue.toNat
      if f % 2 = 0 then s.nextFree
      else
        let w := s.chunkWeight x.first x.last
        let ps := if isZero32 w then [] else firstValues (f / 2) rs
        (((ps.foldl (fun u r => u.addRecord w t r) s.nextFree)).chunkLost x.who).setRx { x with off := n }

/-- CHUNK_ADD: engine k takes the next chunk of the i-th receive stream. While a handoff is in progress the stream waits
(R304). -/
def execChunkAdd (k : Fin 32) (i : Nat) (s : State) : Host.Outcome State Fault Refusal :=
  match s.rx[i]? with
  | none => .next s
  | some x =>
    if x.done ∨ x.kind = .snapshot ∨ !s.codecWorks k ∨ s.handing.isSome then .next s
    else match x.nextChunk with
      | .wait => .next s
      | .over => .next (s.endRx x)
      | .noHeader => .next ((s.chunkLost x.who).endRx x)
      | .cut => .next (((s.tally (Reg.CODEC_SIZE_FAULT k)).chunkLost x.who).endRx x)
      | .touched n => .next ((s.chunkLost x.who).setRx { x with off := n })
      | .chunk c n =>
        if s.takesSection k c.table then
          let x1 := { x with off := n }
          .next ((s.setRx x1).takeChunk k x1 c)
        else .next s

/-! ### Handoff (R304) -/

/-- The 8,256 bytes of the round report. -/
def State.roundReport (s : State) (last : Nat) : List Byte :=
  leBytes 4 s.covered ++ leBytes 4 last ++ leBytes 4 (s.wireRound last) ++ leBytes 4 s.ownAdded
    ++ leBytes 8 (s.fld Reg.UPD_SHARD 47 0) ++ List.replicate 40 0
    ++ (List.range 256).flatMap fun q =>
      let r := s.reportOf q
      leBytes 4 r.first ++ leBytes 4 r.last ++ leBytes 4 r.weight.toNat ++ leBytes 4 r.added ++ leBytes 4 r.lost
        ++ leBytes 4 r.streams ++ List.replicate 8 0

/-- The handoff: accumulator and report to the host, the accumulator zeroed, the descriptor done. The next report counts a stream
again of which it adds a chunk. Host memory of
a function under reset is not written (R356). A region ACC that does not hold the shard has no accumulator: nothing is
zeroed, and the host gets undefined values. -/
def State.doHandoff (s : State) (n idx last : Nat) : State :=
  let len := 4 * s.fld Reg.UPD_SHARD 47 0
  let d := match s.flightAt n idx with
    | some f => f.bytes
    | none => []
  let die := s.ringDie n
  let holds := decide (len ≤ s.regionSize 0)
  let acc := if holds then s.load (s.regionAddr 0) len else s.freeBytes len
  let s0 := if holds then s else { s with freeCount := s.freeCount + len }
  let s1 := if 32768 ≤ n ∨ (s0.ring n).discard then s0
    else (s0.hostStore die (fieldAt d 0x10 8) acc).hostStore die (fieldAt d 0x18 8) (s0.roundReport last)
  let s2 := if holds then s1.guardedStore (s.regionAddr 0) (List.replicate len 0) else s1
  { (s2.finish n idx 0 last) with
    reports := [], ownAdded := 0, covered := last + 1
    rx := s2.rx.map fun (x : RxStream) => { x with added := false } }

/-- The handoff in progress is carried out. -/
def State.endHandoff (s : State) : State :=
  match s.handing with
  | none => s
  | some h => ({ s with handing := none }).doHandoff h.ring h.idx h.last

/-- HANDOFF: the descriptor waits for the next close; once that has come, the handoff is carried out. -/
def execHandoff (n : Fin 32768) (idx : BitVec 16) (s : State) : Host.Outcome State Fault Refusal :=
  match s.flightOf n idx.toNat 3 1 with
  | none => .next s
  | some f =>
    if (s.handing.map fun h => (h.ring, h.idx)) = some (n.val, idx.toNat) then .next s.endHandoff
    else if f.accepted then .next s
    else
      let s1 := s.acceptFlight n idx.toNat none
      .next { s1 with handoffs := s1.handoffs ++ [(n.val, idx.toNat)] }

/-- Round r closes (R300, R304): the receive round advances, CLOSED is set, and the handoff of a waiting HANDOFF begins. One
still in progress from the close before is carried out first. -/
def State.closeRound (s : State) (r : Nat) : State :=
  let s1 := (s.endHandoff.setFld Reg.XCH_ROUND 31 0 ((s.fld Reg.XCH_ROUND 31 0 + 1) % 2 ^ 32)).setFld Reg.UPD_OUTER_STATE 31 0 r
  if !s1.xchEnabled then s1
  else match s1.handoffs with
    | [] => s1.tally Reg.XCH_HANDOFF_LATE
    | (n, i) :: rest => { s1 with handoffs := rest, handing := some { ring := n, idx := i, last := r } }

/-! ### Late joiners (R308, R310) -/

/-- SNAP_FETCH: accepted only while no job runs. -/
def execSnapFetch (n : Fin 32768) (idx : BitVec 16) (s : State) : Host.Outcome State Fault Refusal :=
  match s.flightOf n idx.toNat 3 2 with
  | none => .next s
  | some f =>
    if f.accepted ∨ s.wp.job ∨ s.snapFetch.isSome then .next s
    else
      let s1 := s.acceptFlight n idx.toNat none
      .next { s1 with snapFetch := some { ring := n, idx := idx.toNat, partner := fieldAt f.bytes 0x10 1 } }

/-- SNAP_REQ_TIMER: a SNAP_REQ every PROBE_MS until the stream begins to arrive. -/
def execSnapReqTimer (s : State) : Host.Outcome State Fault Refusal :=
  match s.snapFetch with
  | none => .next s
  | some f =>
    let due : Bool := match f.asked with
      | some t => decide (t + s.probeTime ≤ s.now)
      | none => true
    if f.stream.isSome ∨ !due ∨ !s.ptrUp f.partner then .next s
    else .next (({ s with snapFetch := some { f with asked := some s.now } }).sendControl f.partner
      (blankFrame 7 (List.replicate 16 0)))

/-- Anchor i of an ANCHOR chunk's raw data, with its shard index. -/
def anchorsOf (raw : List Byte) : List (Nat × Nat) :=
  (halves (raw.drop 16)).zipIdx.map fun p => (fieldAt raw 0 8 + p.2, p.1)

/-- Where a parameter of a section lies: the section and the parameter's number in it. -/
def State.placeInSections (s : State) (p : Nat) : Option (Section × Nat) :=
  ((List.range s.sectCount).map s.sect).findSome? fun x =>
    if x.start ≤ p ∧ p < x.start + x.params then some (x, p - x.start) else none

/-- One fetched anchor: anchor, master and residual of its parameter. -/
def State.loadAnchor (s : State) (p code : Nat) : State :=
  match s.placeInSections p with
  | none => s
  | some (x, i) =>
    let c := s.compat
    let m := x.master + masterSize c * (i / 256)
    let s1 := if c then s.guardedStore (m + 4 * (i % 256)) (leBytes 4 (code * 65536))
      else (s.guardedStore (m + 2 * (i % 256)) (leBytes 2 code)).guardedStore (m + 512 + i % 256) [0]
    (s1.guardedStore (x.anchor + 2 * i) (leBytes 2 code)).guardedStore (x.residual + 2 * i) [0, 0]

/-- All the bytes of a stream, when every group is recovered. -/
def RxStream.whole (x : RxStream) : Option (List Byte) :=
  if x.openGroups.isEmpty then
    some ((List.range x.groups).flatMap fun g => ((Map.find x.grp g).bind fun y => y.data).getD [])
  else none

/-- The anchors of a whole snapshot; none where a chunk is not sound, or bytes other than padding are left behind the last one. -/
def State.snapshotAnchors (s : State) (bs : List Byte) : Option (List (Nat × Nat)) :=
  let r := splitChunks bs.length bs
  let cs := r.1.filter fun c => !(decide (c.kind = 0) && decide (c.rawLen = 0))
  if (cs.any fun c => (s.snapFault c).isSome) ∨ r.2.any (fun b => b != 0) then none else some (cs.flatMap fun c => anchorsOf c.body)

/-- SNAPSHOT_LOAD: the snapshot has arrived whole; it is written into the slow tier, and the fetch completes with
the snapshot's wire round. A chunk that is not sound is an erasure like a lost group. -/
def execSnapshotLoad (s : State) : Host.Outcome State Fault Refusal :=
  match s.snapFetch with
  | none => .next s
  | some f =>
    match s.rx.find? fun x => x.who == some f.partner && x.kind == .snapshot && some x.num == f.stream with
    | none => .next s
    | some x =>
      match x.whole with
      | none => .next s
      | some bs =>
        let s1 := { (s.setRx { x with done := true }) with snapFetch := none }
        match s.snapshotAnchors bs with
        | none => .next (s1.endSnapshot f x)
        | some l => .next ((l.foldl (fun t p => t.loadAnchor p.1 p.2) s1).finish f.ring f.idx 0 x.last)

end Sys2Proof.Machine
end

