-- ==== Sys2Proof/Machine/Units.lean ====
section
/-! DEFINITION. Units as their pages show them: what keeps a unit at work, its STATE, and the changes of it
(R357, R368, R382, R391). -/

namespace Sys2Proof.Machine

/-- A stream or a SERVE request runs on a chiplet. -/
def Chiplet.busy (x : Chiplet) : Bool :=
  match x.run with
  | .running => true
  | .waiting _ _ => true
  | _ => !x.accums.isEmpty

/-- A codec engine with a pass of the formation in progress left (R367). -/
def State.forming (s : State) (k : Nat) : Bool :=
  s.deltaOpen.isSome && !(s.segment k).isEmpty && !s.delta.pass2.contains k

/-- A descriptor is at work on a codec engine: it waits for data of another module. -/
def State.codecHolds (s : State) (k : Nat) : Bool :=
  s.rings.any fun e => e.2.flights.any fun f => f.accepted && f.status.isNone && f.unit == some (113 + k)

/-- What codec engine k has before it, by the codes of CODEC_STATE.WORK (R313): a descriptor, a pass of the formation that may
read the shard, the clearing of the accumulator, a received chunk, or a span. -/
def State.codecWork (s : State) (k : Nat) : Nat :=
  if s.codecHolds k then 6
  else if s.forming k && s.shardReady then (if s.delta.pass1.contains k then 2 else 1)
  else if s.handing.isSome && !(s.segment k).isEmpty then 5
  else if (s.chunkWaiting k).isSome then 4
  else if !s.spanDue.isEmpty && !(s.segment k).isEmpty then 3
  else 0

/-- A pass, a receive or a descriptor runs on a codec engine (R368). -/
def State.codecBusy (s : State) (k : Nat) : Bool := [1, 2, 4, 6].contains (s.codecWork k)

/-- Frames or cipher units wait on a far-port die. -/
def State.farBusy (s : State) (p : Nat) : Bool :=
  let c := s.cipher p
  decide (0 < c.rxWait) || !c.txWait.isEmpty || !c.jobs.isEmpty || (s.tx.any fun x => !(s.targetsOn x p).isEmpty)

/-- The condition of R368 that arms a unit's watchdog holds. An access to the slow tier begins and ends within one command, so none is
outstanding when the binnacle samples. -/
def State.armed (s : State) (u : UnitId) : Bool :=
  match u with
  | .chiplet c => (s.chip c).busy
  | .upd k => (s.upd k).running || (s.upd k).recovering
  | .slowTier => false
  | .codec k => s.codecBusy k
  | .farPort p => s.farBusy p
  | .link _ => false
  | .coll => s.colls.any fun e => e.2.started.isSome && !e.2.done && !e.2.failed
  | .hostDie d => s.rings.any fun e =>
      e.2.st == .active && decide (s.ringDie e.1 = d.val) && decide (s.ringHead e.1 ≠ s.ringTail e.1)

/-- The unit-state code of a unit (R382). -/
def State.unitCode (s : State) (u : UnitId) : Nat :=
  let x := s.unit u
  match x.phase with
  | .normal =>
    if !s.wardPowered (unitWard u) then 0 else if x.frozen then 7 else if s.armed u then 2 else 1
  | .fencing => 3
  | .draining => 4
  | .dumping => 4
  | .reset => 5
  | .probation => 6
  | .waiting => 6
  | .quarantined => 8

/-- A change of STATE is noted: the state before it, and the STATE event of the unit's pages (R381, R391). -/
def State.noteUnit (s : State) (u : UnitId) : State :=
  let x := s.unit u
  let c := s.unitCode u
  if c = x.code then s
  else (unitPages u).foldl (fun (t : State) p => t.raise p 1) (s.setUnit u { x with code := c, prev := x.code })

/-- The change of a page's unit since the last tick is noted. -/
def State.notePage (s : State) (page : Nat) : State :=
  match unitOfPage page with
  | some u => s.noteUnit u
  | none => s

/-- The unit enters a phase of the fence sequence. -/
def State.setPhase (s : State) (u : UnitId) (p : Phase) : State :=
  (s.setUnit u { s.unit u with phase := p, since := s.now }).noteUnit u

/-! ### Admission (R46, R361) -/

/-- A ward's fence ends once every unit of it has been admitted (R46). -/
def State.settleWards (s : State) : State :=
  { s with wardFence := s.wardFence.filter fun w =>
      s.wardDue.contains w || allUnits.any fun u => unitWard u == w && (s.unit u).phase != .normal && (s.unit u).phase != .quarantined }

/-- A unit is admitted: it answers requests again; link dies leave a relay that the fence of their base die forced. -/
def State.admitUnit (s : State) (u : UnitId) : State :=
  ((s.setUnit u { s.unit u with saved := [], frozen := false, waitsFor := [] }).setPhase u .normal).settleWards.applyRelay

end Sys2Proof.Machine
end

