-- ==== Sys2Proof/Machine/Waypoint.lean ====
section
/-! DEFINITION. The waypoint controller: arrival, the gather with parts (a) to (i), acknowledgement,
WAYPOINT_DONE, legs and fix rounds, serving changes, the phase log, and the start and stop of a job
(R14 to R33, R145, R172, R175, R178, R194, R361, R362, R385, R386). -/

namespace Sys2Proof.Machine

/-! ### Participants (R16) -/

/-- The unit of a participant. -/
def partUnit : Participant → UnitId
  | .chiplet c => .chiplet c
  | .upd k => .upd k
  | .codec k => .codec k

/-- All 144 participants. -/
def allParticipants : List Participant :=
  (List.finRange 64).map .chiplet ++ ((List.finRange 48).map .upd ++ (List.finRange 32).map .codec)

/-- The participant is neither fenced nor waiting for admission (R362). -/
def State.present (s : State) (p : Participant) : Bool := s.unfenced (partUnit p)

/-- The number of chiplets in the training partition. -/
def State.trainCount (s : State) : Nat := ((List.range 64).filter fun c => !s.isServing c).length

/-- What arrival waits for: a training chiplet's final bundle with nothing of its step on the way, an update
engine's last pass. Serving chiplets and codec engines are ready at once. -/
def State.canArrive (s : State) (p : Participant) : Bool :=
  match p with
  | .chiplet c =>
    let x := s.chip c
    s.isServing c || (x.run == .ended && x.accums.isEmpty && decide (x.opsOut = 0))
  | .upd k => s.updIdle k
  | .codec _ => true

/-- The module's non-finite flag: SC_SLICE.NF in slice mode, else SC_STEP_NF (R115). -/
def State.nfFlag (s : State) : Bool :=
  if s.flag Reg.SC_SLICE 8 then s.flag Reg.SC_SLICE 0 else s.flag Reg.SC_STEP_NF 0

/-- The module's taint flag: RT_SLICE.TAINT in slice mode, else RT_STEP_TAINT (R171, R180). -/
def State.taintFlag (s : State) : Bool :=
  if s.flag Reg.RT_SLICE 8 then s.flag Reg.RT_SLICE 0 else s.flag Reg.RT_STEP_TAINT 0

/-- The number of a participant among the sources of R113: chiplets, update engines, codec engines. -/
def partSource : Participant → Nat
  | .chiplet c => c.val
  | .upd k => 64 + k.val
  | .codec k => 112 + k.val

/-- A participant's own non-finite flag (R16, R114, R115): in slice mode the slice's; else whether its own census of the
step holds a non-finite element under a slot with SKIP_NF. Serving chiplets report none. -/
def State.partNf (s : State) (p : Participant) : Bool :=
  if s.flag Reg.SC_SLICE 8 then s.flag Reg.SC_SLICE 0
  else s.census.any fun e =>
    e.1 / 16384 == partSource p && !s.sourceServes (e.1 / 16384) && e.2.nonfinite != 0 && bitOf (s.slotCfg (e.1 % 16384)) 19

/-- A participant's own taint flag (R16, R167, R171): in slice mode the slice's; else whether it is a training chiplet that has
tainted the step. -/
def State.partTaint (s : State) (p : Participant) : Bool :=
  if s.flag Reg.RT_SLICE 8 then s.flag Reg.RT_SLICE 0
  else match p with
    | .chiplet c => !s.isServing c && (s.chip c).tainted
    | _ => false

/-- The participant has arrived at the waypoint to come. -/
def State.hasArrived (s : State) (p : Participant) : Bool := s.wp.arrived.any fun a => a.who == p

/-! ### Pending changes (R19, R25, R145, R222, R429) -/

/-- A register with RW-WP fields: pending and live word, the bits of those fields, its page, the participants
its change concerns. -/
structure WpReg where
  reg : Nat
  live : Nat
  mask : Nat
  page : Nat
  who : List Participant
deriving DecidableEq, Repr

/-- The chiplets as participants. -/
def chipletParts : List Participant := (List.finRange 64).map .chiplet
/-- The update engines as participants. -/
def engineParts : List Participant := (List.finRange 48).map .upd
/-- The codec engines as participants. -/
def codecParts : List Participant := (List.finRange 32).map .codec

/-- The training chiplets as participants. -/
def State.trainParts (s : State) : List Participant :=
  ((List.finRange 64).filter fun (c : Fin 64) => !s.isServing c.val).map .chiplet

/-- The chiplets whose partition the pending mask changes. -/
def State.movedParts (s : State) : List Participant :=
  let d := Nat.xor (s.reg Reg.WPC_SERVE_MASK) (s.reg Reg.WPC_SERVE_MASK_LIVE)
  ((List.finRange 64).filter fun (c : Fin 64) => bitOf d c.val).map .chiplet

/-- Every register with RW-WP fields, in address order of their pages. -/
def State.wpRegs (s : State) : List WpReg :=
  [⟨Reg.WPC_LEG, Reg.WPC_LEG_LIVE, 0xFFFFFFFF, pgWPC, []⟩,
   ⟨Reg.WPC_SERVE, Reg.WPC_SERVE_LIVE, 0xFFFF0000, pgWPC, []⟩,
   ⟨Reg.WPC_SERVE_MASK, Reg.WPC_SERVE_MASK_LIVE, 0xFFFFFFFFFFFFFFFF, pgWPC, s.movedParts⟩,
   ⟨Reg.SC_RS_BUDGET, Reg.SC_RS_BUDGET_LIVE, 0xFFFF, pgSC, s.trainParts⟩,
   ⟨Reg.SC_LS_CTRL, Reg.SC_LS_CTRL_LIVE, 0xFFFF0300, pgSC, []⟩,
   ⟨Reg.SC_LS_LIMITS, Reg.SC_LS_LIMITS_LIVE, 0xFFFF, pgSC, []⟩,
   ⟨Reg.ENG_SEED, Reg.ENG_SEED_LIVE, 0xFFFFFFFFFFFFFFFF, pgENGC, allParticipants⟩,
   ⟨Reg.RT_LATID, Reg.RT_LATID_LIVE, 0xFFFF, pgRT, chipletParts⟩,
   ⟨Reg.RT_PATCH, Reg.RT_PATCH_LIVE, 0xFFFFFFFFFFFF87FF, pgRT, chipletParts⟩]
  ++ ((List.finRange 64).map fun c => ⟨Reg.SEQ_ENTRY c, Reg.SEQ_ENTRY_LIVE c, 0x1FFF, pgSEQ c, [.chiplet c]⟩)
  ++ [⟨Reg.UPD_CTRL, Reg.UPD_CTRL_LIVE, 6, pgUPDC, engineParts⟩]
  ++ ((List.finRange 48).map fun k => ⟨Reg.UPD_MAP k, Reg.UPD_MAP_LIVE k, 0xFFFFFFFFFFFFFFFF, pgUPD k, [.upd k]⟩)
  ++ [⟨Reg.XCH_CTRL, Reg.XCH_CTRL_LIVE, 0xBFFF010F, pgXCH, codecParts⟩]
  ++ ((List.range 8).map fun i => ⟨Reg.XCH_WEIGHT0 + 4 * i, Reg.XCH_WEIGHT_LIVE0 + 4 * i, 0xFFFFFFFF, pgXCH, codecParts⟩)

/-- A pending value differs from its live value. -/
def State.wpPending (s : State) (r : WpReg) : Bool :=
  decide (Nat.land (s.reg r.reg) r.mask ≠ Nat.land (s.reg r.live) r.mask)

/-- RT_PATCH places its table wholly in the bank SRAM of base die 0 (R429). -/
def patchPlaced (v : Nat) : Bool :=
  let a := v / 0x8000 * 0x8000
  let n := 32 * min (v % 0x800) 1024
  decide (placeOf a = .bank 0) && (decide (n = 0) || decide (placeOf (a + (n - 1)) = .bank 0))

/-- A mask that R145 never applies. -/
def State.maskBarred (s : State) : Bool :=
  let new := s.reg Reg.WPC_SERVE_MASK
  decide (new = 0xFFFFFFFFFFFFFFFF) || (s.flag Reg.PLOG_CTRL 8 && bitOf new (s.fld Reg.PLOG_CTRL 5 0))

/-- The pending value itself may become live. -/
def State.wpAllowed (s : State) (r : WpReg) : Bool :=
  if r.reg = Reg.WPC_SERVE_MASK then !s.maskBarred
  else if r.reg = Reg.RT_PATCH then patchPlaced (s.reg Reg.RT_PATCH)
  else true

/-- A participant's ready bit for a pending change that concerns it: an engine's map must be validated (R222), a chiplet that
leaves the serving partition must have no SERVE work left (R29). -/
def State.readyFor (s : State) (p : Participant) (r : WpReg) : Bool :=
  match p with
  | .upd k => r.reg != Reg.UPD_MAP k || s.mapReady k
  | .chiplet c => r.reg != Reg.WPC_SERVE_MASK || !s.isServing c || bitOf (s.reg Reg.WPC_SERVE_MASK) c || (s.chip c).serve.isNone
  | .codec _ => true

/-- A write to the inactive instruction bank of a chiplet is in flight: a move that waits for another module's data goes there. -/
def State.bankWriteOut (s : State) (c : Nat) : Bool :=
  s.remote.any fun r =>
    match r.dest with
    | .mem a => (s.local? a).isSome && overlaps (a % 2 ^ 48) r.len (bundleAt c (!(s.chip c).bank) 0) 0x40000
    | _ => false

/-- A chiplet's ready bit for its bank swap (R175). -/
def State.swapReady (s : State) (c : Nat) : Bool := s.unfenced (.chiplet (Fin.ofNat 64 c)) && !s.bankWriteOut c

/-- A participant's ready bit for the bank swap that RT_SWAP_REQ asks of it (R16, R175), under the register's address. -/
def State.swapBit (s : State) (p : Participant) : List Nat :=
  match p with
  | .chiplet c => if s.flag Reg.RT_SWAP_REQ c ∧ s.swapReady c then [Reg.RT_SWAP_REQ] else []
  | _ => []

/-- The registers with a pending change. -/
def State.changes (s : State) : List WpReg := s.wpRegs.filter s.wpPending

/-- The arrival message of a participant, given the pending changes (R16). -/
def State.arrivalOf (s : State) (rs : List WpReg) (p : Participant) : Arrival :=
  ⟨p, s.partNf p, s.partTaint p,
    (rs.filter fun r => s.present p && r.who.contains p && s.readyFor p r).map WpReg.reg ++ s.swapBit p⟩

/-- PARTICIPANT_ARRIVE. -/
def execParticipantArrive (p : Participant) (s : State) : Host.Outcome State Fault Refusal :=
  if !s.wp.job ∨ s.wp.stopping ∨ s.wp.gather.isSome ∨ s.hasArrived p ∨ !s.present p ∨ !s.canArrive p then .next s
  else .next { s with wp := { s.wp with
    arrived := s.wp.arrived ++ [s.arrivalOf s.changes p]
    firstArrival := some (s.wp.firstArrival.getD s.now) } }

/-- The participants the controller still waits for. -/
def State.missingParts (s : State) : List Participant := allParticipants.filter fun p => s.present p && !s.hasArrived p

/-- The arrival timeout in ns: WPC_ARRIVE_TIMEOUT in µs. A value outside 1,000 to 60,000,000 acts as the nearest limit
(DESIGN CHOICE: assumption 24). -/
def State.arriveLimit (s : State) : Nat := max 1000 (min 60000000 (s.reg Reg.WPC_ARRIVE_TIMEOUT)) * 1000

/-- ARRIVAL_TIMEOUT: participants are late by WPC_ARRIVE_TIMEOUT after the first arrival; the event names them (R22). No
register carries the name: `late` holds it (assumption 24). -/
def execArrivalTimeout (s : State) : Host.Outcome State Fault Refusal :=
  match s.wp.firstArrival with
  | none => .next s
  | some t =>
    if s.wp.gather.isSome ∨ s.wp.timeoutRaised ∨ s.missingParts.isEmpty ∨ s.now < t + s.arriveLimit then .next s
    else .next ({ s with wp := { s.wp with timeoutRaised := true, late := s.missingParts } }.raise pgWPC 9)

/-- The controller latches the ready bits of the gather instant (R17 step 1); without a gather (R194) every participant that
is present sets its own. -/
def State.latchReady (s : State) (start : Bool) : State :=
  let rs := s.changes
  let who := if start then allParticipants.filter s.present else s.wp.arrived.map Arrival.who
  if rs.isEmpty ∧ s.reg Reg.RT_SWAP_REQ = 0 then s
  else { s with wp := { s.wp with arrived := who.map (s.arrivalOf rs) } }

/-- Every ready bit of the change was set when the controller latched them (R16, R17, R19). -/
def State.wpReady (s : State) (r : WpReg) : Bool :=
  (r.who.all fun p => s.wp.arrived.any fun a => a.who == p && a.ready.contains r.reg) && s.wpAllowed r

/-- The pending value becomes live (R385). -/
def State.wpLoad (s : State) (r : WpReg) : State :=
  match r.who with
  | [.upd k] => if r.reg = Reg.UPD_MAP k then s.mapLive k else s
  | _ => s.setReg r.live (s.reg r.live - Nat.land (s.reg r.live) r.mask + Nat.land (s.reg r.reg) r.mask)

/-- What a waypoint has done to pages: pages with a value loaded, pages with a change deferred. -/
structure Marks where
  loaded : List Nat := []
  late : List Nat := []
deriving DecidableEq, Repr

/-- A change is deferred whole to the next waypoint (R19). -/
def State.deferChange (s : State) (m : Marks) (page : Nat) : State × Marks :=
  (s.tally Reg.WPC_DEFERRED, { m with late := if m.late.contains page then m.late else m.late ++ [page] })

/-- One pending value in part (a): loaded, deferred, or for WPC_LEG held until a leg ends (R25). -/
def State.takeWpReg (ends : Bool) (sm : State × Marks) (r : WpReg) : State × Marks :=
  let (s, m) := sm
  if !s.wpPending r then (s, m)
  else if r.reg = Reg.WPC_LEG ∧ !ends then (s, m)
  else if s.wpReady r then
    (s.wpLoad r, { m with loaded := if m.loaded.contains r.page then m.loaded else m.loaded ++ [r.page] })
  else s.deferChange m r.page

/-- The rail offsets of calibration category 1 take effect (R393). -/
def State.takeRails (s : State) (m : Marks) : State × Marks :=
  match s.railsWait with
  | [] => (s, m)
  | l => (l.foldl (fun (t : State) i => t.takeOffset 1 i) s, { m with loaded := m.loaded ++ [pgCALU 1] })

/-- The pages a waypoint changes, each once. -/
def wpPages : List Nat :=
  [pgCALU 1, pgWPC, pgSC, pgENGC, pgRT] ++ ((List.range 64).map pgSEQ ++ (pgUPDC :: ((List.range 48).map pgUPD ++ (pgXCH :: (List.range 64).map pgENG))))

/-- WP_STATE and the deferred event of a page after a waypoint. -/
def State.markPage (n : Nat) (m : Marks) (s : State) (page : Nat) : State :=
  let late := m.late.contains page
  let s1 := s.setFld (page + Hdr.WP_STATE) 30 30 (boolNat late)
  let s2 := if m.loaded.contains page then s1.setFld (page + Hdr.WP_STATE) 15 0 n else s1
  if late then s2.raise page 4 else s2

/-! ### Patches (R178) -/

/-- A patch descriptor acts as NOP and is counted. -/
def patchBad (d : List Byte) : Bool :=
  let op := fieldAt d 0 1
  let c := fieldAt d 2 1
  decide (5 ≤ op) || (decide (64 ≤ c) && decide (c ≠ 255))
    || (decide (op = 3) && (decide (fieldAt d 4 4 = 0) || decide (fieldAt d 8 8 = 0)))

/-- The new value of a P register under a patch: w is the new waypoint number. -/
def patchValue (d : List Byte) (w p : Nat) : Nat :=
  let n := fieldAt d 4 4
  let v := fieldAt d 8 8
  let b := fieldAt d 16 8
  match fieldAt d 0 1 with
  | 1 => v
  | 2 => (p + v) % 2 ^ 64
  | 3 => (b + ((p + 2 ^ 64 - b) % 2 ^ 64 / v + 1) % n * v) % 2 ^ 64
  | 4 => (b + (if n = 0 then w else w % n) * v) % 2 ^ 64
  | _ => p

/-- The patch's condition holds. -/
def patchHolds (d : List Byte) (commit : Bool) : Bool :=
  match fieldAt d 1 1 with
  | 0 => true
  | 1 => commit
  | 2 => !commit
  | _ => false

/-- Applies patch descriptors to the P registers of a chiplet, in order. -/
def Chiplet.patch (x : Chiplet) (w : Nat) (commit : Bool) (ds : List (List Byte)) : Chiplet :=
  ds.foldl (fun (y : Chiplet) d =>
    let r := fieldAt d 3 1 % 64
    if patchHolds d commit then y.setP r (BitVec.ofNat 64 (patchValue d w (y.preg r).toNat)) else y) x

/-- The descriptors of the live patch table. -/
def State.patches (s : State) : List (List Byte) :=
  let (a, n) := s.patchTable
  if patchPlaced (s.reg Reg.RT_PATCH_LIVE) then (List.range n).map fun i => s.load (a + 32 * i) 32 else []

/-- The good descriptors that name a chiplet. -/
def State.patchesOf (s : State) (c : Nat) (ds : List (List Byte)) : List (List Byte) :=
  ds.filter fun d => !patchBad d && (decide (fieldAt d 2 1 = c) || (decide (fieldAt d 2 1 = 255) && !s.isServing c))

/-! ### Parts (b) to (e) on a chiplet -/

/-- A serving chiplet is at work on a request. -/
def Chiplet.engaged (x : Chiplet) : Bool := x.serve.isSome

/-- A chiplet fetches from its other bank (R175). -/
def State.swapBank (s : State) (c : Nat) : State :=
  let x := s.chip c
  s.setChip c { x with bank := !x.bank }

/-- A chiplet takes parts (b), (c) and (e) of a change set. -/
def State.takeLatch (c : Nat) (s : State) (l : Latch) : State :=
  let s1 := if l.swap then s.swapBank c else s
  (s1.setChip c ((s1.chip c).patch l.wpn l.commit l.patches)).partE c l.standins l.retire

/-- A serving chiplet between requests takes everything it has latched, and the current serve buffer (R29). -/
def State.takeLatched (s : State) (c : Nat) : State :=
  let x := s.chip c
  x.latched.foldl (State.takeLatch c) (s.setChip c { x with latched := [], serveBuf := s.flag Reg.WPC_POSITION 1 })

/-- The chiplet's ready bit for its swap was set when the controller latched them. -/
def State.swapLatchedReady (s : State) (c : Nat) : Bool :=
  s.wp.arrived.any fun a => a.who == .chiplet (Fin.ofNat 64 c) && a.ready.contains Reg.RT_SWAP_REQ

/-- The chiplets of RT_SWAP_REQ whose swap this waypoint applies. -/
def State.swapsNow (s : State) : List Nat := (List.range 64).filter fun c => s.flag Reg.RT_SWAP_REQ c && s.swapLatchedReady c

/-- Part (b): a mismatch of LAT_ID rejects every request; the swap of a chiplet whose ready bit is clear is deferred (R175). -/
def State.partB (s : State) (m : Marks) : State × Marks × List Nat :=
  let req := s.reg Reg.RT_SWAP_REQ
  if req = 0 then (s, m, [])
  else if s.reg Reg.RT_LATID_LIVE ≠ s.fld (pgSEQ 0 + Hdr.FEAT1) 31 16 then
    let n := ((List.range 64).filter fun c => bitOf req c).length
    (((s.setReg Reg.RT_SWAP_REQ 0).count Reg.RT_SWAP_REJECT n).raise pgRT 8, m, [])
  else
    let (s1, m1) := (List.range 64).foldl (fun (sm : State × Marks) c =>
      if bitOf req c ∧ !sm.1.swapLatchedReady c then sm.1.deferChange sm.2 pgRT else sm) (s, m)
    let now := s.swapsNow
    (now.foldl (fun (t : State) c => (t.setFld Reg.RT_SWAP_REQ c c 0).tally Reg.RT_SWAPS) s1, m1, now)

/-- Parts (b), (c) and (e) for every chiplet: applied at once, or latched by a serving chiplet with a request in
progress (R29). A fenced chiplet takes no part. -/
def State.partsBCE (s : State) (swaps : List Nat) (w : Nat) (commit : Bool) : State :=
  let ds := s.patches
  let s0 := s.count Reg.RT_PATCH_BAD (ds.filter patchBad).length
  (List.range 64).foldl (fun (t : State) c =>
    let x := t.chip c
    let held := x.standins.filter fun e => !x.latched.any fun o => o.standins.contains e
    let l : Latch := ⟨w, commit, s.patchesOf c ds, swaps.contains c, held, x.retireReq⟩
    if !t.unfenced (.chiplet (Fin.ofNat 64 c)) then t
    else if s.isServing c ∧ x.engaged then t.setChip c { x with latched := x.latched ++ [l], retireReq := none }
    else ((t.setChip c { x with retireReq := none }).takeLatched c).takeLatch c l) s0

/-- Part (e) requests that a fenced chiplet defers. -/
def State.lateRetires (s : State) (m : Marks) : State × Marks :=
  (List.range 64).foldl (fun (sm : State × Marks) c =>
    if (sm.1.chip c).retireReq.isSome ∧ !sm.1.unfenced (.chiplet (Fin.ofNat 64 c)) then sm.1.deferChange sm.2 (pgENG c)
    else sm) (s, m)

/-! ### Part (d): partition and serve buffer (R28, R145) -/

/-- Chiplets that change sides stand idle until they are started or given a request. -/
def State.resettle (s : State) (old : Nat) : State :=
  (List.range 64).foldl (fun (t : State) c =>
    if bitOf old c = t.isServing c then t
    else t.setChip c { t.chip c with run := .idle, mainDone := false, section_ := none }) s

/-- The serve buffers flip at the waypoint after a refresh copy. -/
def State.flipServe (s : State) : State :=
  if s.wp.flipPending then
    { s with wp := { s.wp with flipPending := false } }.setFld Reg.WPC_POSITION 1 1 (boolNat (!s.flag Reg.WPC_POSITION 1))
  else s

/-! ### Part (f): admission (R361) -/

/-- Units that were fenced together, of which one waited for the others to leave RESET (R48). -/
def State.companions (s : State) (u : UnitId) : List UnitId :=
  (s.unit u).waitsFor ++ allUnits.filter fun v => (s.unit v).waitsFor.contains u

/-- A unit does not hold back the admission of those fenced with it. -/
def Phase.settled : Phase → Bool
  | .waiting => true
  | .normal => true
  | .quarantined => true
  | _ => false

/-- The unit's probation has ended, and that of every unit fenced with it: they are admitted together (R48). -/
def State.admissible (s : State) (u : UnitId) : Bool :=
  decide ((s.unit u).phase = .waiting) && (s.companions u).all fun v => (s.unit v).phase.settled

/-- Units whose probation has ended are admitted. -/
def State.admitAll (s : State) : State := (allUnits.filter s.admissible).foldl State.admitUnit s

/-! ### The gather (R17, R18) -/

/-- The number the waypoint in progress will have. -/
def State.nextWaypoint (s : State) (start : Bool) : Nat := if start then 0 else s.reg Reg.WPC_WAYPOINT + 1

/-- The waypoint ends a leg, or starts the first one. -/
def State.endsLeg (s : State) (start : Bool) : Bool :=
  start || decide (s.nextWaypoint start = s.wp.legStart + s.wp.legLen)

/-- The scale unit's part of the set: slots, census and section scales (R109, R110, R276), with k the move of the loss
scale that part (h) makes. -/
def State.scalePart (s : State) (v : Verdict) (ends : Bool) (w : Nat) : State :=
  s.updateSlots v ends w (s.lsNext v ends - s.lsExp)

/-- The run of tainted waypoints (R172). -/
def State.countTaint (s : State) (taint : Bool) : State :=
  s.setFld Reg.RT_TAINT 15 8 (if taint then min 255 (s.fld Reg.RT_TAINT 15 8 + 1) else 0)

/-- The run has reached its limit; 0 acts as 1. -/
def State.taintLimit (s : State) : Bool :=
  decide (max 1 (s.fld Reg.RT_TAINT 7 0) ≤ s.fld Reg.RT_TAINT 15 8)

/-- Parts (a) to (i) with an outcome. -/
def State.changeSet (s : State) (v : Verdict) (start : Bool) : State × Marks × List Nat :=
  let w := s.nextWaypoint start
  let old := s.reg Reg.WPC_SERVE_MASK_LIVE
  let (s1, m1) := s.lateRetires {}
  let mask := s1.wpRegs.filter fun r => r.reg = Reg.WPC_SERVE_MASK
  let rest := s1.wpRegs.filter fun r => r.reg ≠ Reg.WPC_SERVE_MASK
  let (s2, m2) := rest.foldl (State.takeWpReg (s.endsLeg start)) (s1.takeRails m1)
  let s3 := (s2.scalePart v (!start) w).applyVariants (v.commit && !start)
  let (s4, m4, swaps) := s3.partB m2
  let s5 := s4.partsBCE swaps w v.commit
  let (s6, m6) := mask.foldl (State.takeWpReg false) (s5, m4)
  let s7 := ((s6.resettle old).flipServe).admitAll
  let s8 := if start then (List.range 48).foldl (fun (t : State) k => t.setUpd k { t.upd k with jptr := 0 }) s7
    else s7.gatherUpdates
  (s8.lossScale v (!start), m6, swaps)

/-- The gather instant: the outcome, the change set, and what WAYPOINT_DONE needs of them. -/
def State.gatherNow (s : State) (v : Verdict) (start : Bool) : State :=
  let w := s.nextWaypoint start
  let s0 := ((s.latchReady start).tallyIf (v.nf && !start) Reg.WPC_SKIP_NONFINITE).tallyIf (v.taint && !start) Reg.WPC_SKIP_TAINT
  let (s1, m, swaps) := s0.changeSet v start
  let s2 := wpPages.foldl (State.markPage w m) s1
  let queued := if start then [] else s2.updQueue
  let s4 := { s2 with
    updQueue := if start then s2.updQueue else []
    wp := { s2.wp with gather := some { time := s.now, nf := v.nf, taint := v.taint, start := start,
                                        deferred := !m.late.isEmpty, swaps := swaps, outers := queued } } }
  let s5 := (s4.setFld Reg.WPC_POSITION 0 0 1).countTaint (v.taint && !start)
  if v.taint && !start && s5.taintLimit then ((s5.tally Reg.RT_TAINT_FAULTS).raise pgRT 10).jobFault 3 none else s5

/-- The outcome of the arrivals (R18). -/
def State.verdict (s : State) : Verdict :=
  ⟨s.nfFlag || s.wp.arrived.any fun a => a.nf, s.taintFlag || s.wp.arrived.any fun a => a.taint⟩

/-- WAYPOINT_GATHER: every participant has arrived or counts as arrived (R362). -/
def execWaypointGather (s : State) : Host.Outcome State Fault Refusal :=
  let all := allParticipants.all fun p => s.hasArrived p || !s.present p
  if !s.wp.job ∨ s.wp.stopping ∨ s.wp.gather.isSome ∨ !all then .next s
  else .next (s.gatherNow s.verdict false)

/-- PARTICIPANT_ACKNOWLEDGE. -/
def execParticipantAcknowledge (p : Participant) (s : State) : Host.Outcome State Fault Refusal :=
  match s.wp.gather with
  | none => .next s
  | some g =>
    if g.acks.contains p ∨ !s.present p then .next s
    else .next { s with wp := { s.wp with gather := some { g with acks := g.acks ++ [p] } } }

/-- SERVING_CHANGE_APPLY: a serving chiplet between requests takes what it latched (R29). -/
def execServingChangeApply (c : Fin 64) (s : State) : Host.Outcome State Fault Refusal :=
  if s.isServing c ∧ !(s.chip c).engaged ∧ s.unfenced (.chiplet c) ∧ (s.chip c).latched ≠ [] then
    .next (s.takeLatched c)
  else .next s

/-! ### Serve refresh (R28) -/

/-- The working weights the update engines keep: ranges and bytes. -/
def State.workingWeights (s : State) : List (Nat × List Byte) :=
  (List.range 48).flatMap fun k => (List.range (mapCount (s.liveMap k))).flatMap fun i =>
    let e := s.mapEntry (s.liveMap k) i
    (e.fwdAt, s.load e.fwdAt e.fwd.span) :: (if e.bwd then [(e.bwdAt, s.load e.bwdAt e.bwdSide.span)] else [])

/-- SERVE_REFRESH_COPY: the copy into the inactive buffer, once the update of the latest step is done. -/
def execServeRefreshCopy (s : State) : Host.Outcome State Fault Refusal :=
  if s.wp.refreshDue ∧ s.wp.gather = none ∧ (List.range 48).all s.updIdle then
    let b := 1 - boolNat (s.flag Reg.WPC_POSITION 1)
    .next { s with
      serveBufs := Map.put (fun _ => []) s.serveBufs b s.workingWeights
      wp := { s.wp with refreshDue := false, flipPending := true } }
  else .next s

/-- A committed step counts toward the next refresh. -/
def State.countRefresh (s : State) : State :=
  let n := s.fld Reg.WPC_SERVE_LIVE 31 16
  if n = 0 then s
  else if n ≤ s.wp.refreshCount + 1 then { s with wp := { s.wp with refreshCount := 0, refreshDue := true } }
  else { s with wp := { s.wp with refreshCount := s.wp.refreshCount + 1 } }

/-! ### The phase log (R30, R31) -/

/-- The phase a nanosecond of the step in progress is charged to: 0 to 2 the section marker, 3 UPDATE,
4 TORUS_WAIT, 5 EXCHANGE_WAIT, 6 WAYPOINT, 7 IDLE. A wait for an update that a delta formation holds back is charged to
EXCHANGE_WAIT (R27). -/
def State.phaseNow (s : State) : Nat :=
  let x := s.chip (s.fld Reg.PLOG_CTRL 5 0)
  let marker := min 2 x.cur.marker
  if s.wp.gather.isSome then 6
  else match x.run with
    | .idle => 7
    | .waiting ctr _ =>
      let n := ctr % 4096
      if 1024 ≤ n ∧ n < 1536 then (if (List.range 48).any s.heldByDelta then 5 else 3) else if 1536 ≤ n ∧ n < 2048 then 4 else if 2048 ≤ n ∧ n < 2560 then 5 else marker
    | _ => marker

/-- Time passes in the step in progress. -/
def State.charge (s : State) (ns : Nat) : State :=
  if s.wp.job then
    let p := s.phaseNow
    { s with wp := { s.wp with phases := Map.put (fun _ => 0) s.wp.phases p (Map.get (fun _ => 0) s.wp.phases p + ns) } }
  else s

/-- The 128 bytes of a phase log record. -/
def State.plogRecord (s : State) (n leg lstart : Nat) (v : Verdict) (flags : Nat) : List Byte :=
  let ph (i : Nat) := leBytes 8 (Map.get (fun _ => 0) s.wp.phases i)
  leBytes 8 n ++ leBytes 8 s.now ++ leBytes 4 leg ++ leBytes 2 (n - lstart - 1) ++ leBytes 1 v.code ++ leBytes 1 flags
    ++ leBytes 2 (satTo 16 s.wp.rsTiles) ++ leBytes 2 (unsigned 16 (signed 8 (s.fld Reg.SC_LS_COMMITTED 7 0)))
    ++ leBytes 1 s.wp.trained ++ leBytes 3 0
    ++ ph 0 ++ ph 1 ++ ph 2 ++ ph 3 ++ ph 4 ++ ph 5 ++ ph 6 ++ ph 7
    ++ leBytes 4 (satTo 32 s.wp.serveDone) ++ List.replicate 28 0

/-- Writes the record at PLOG_HEAD, where PLOG_BASE places the ring (R429). -/
def State.logPhase (s : State) (rec_ : List Byte) : State :=
  let base := s.reg Reg.PLOG_BASE / 0x20000 * 0x20000
  let h := s.fld Reg.PLOG_HEAD 9 0
  if s.flag Reg.PLOG_CTRL 8 ∧ inBank base 0x20000 then
    (s.guardedStore (base + 128 * h) rec_).setFld Reg.PLOG_HEAD 9 0 ((h + 1) % 1024)
  else s

/-! ### WAYPOINT_DONE (R17 step 5) -/

/-- The collective entries return to idle, except a PERMUTE (R259). -/
def State.resetColls (s : State) : State :=
  let base := s.reg Reg.TOR_COLL_BASE / 65536 * 65536
  { s with colls := s.colls.filter fun e => decide (s.loadNat (base + 64 * e.1) 1 = 5) }

/-- H and C live: H of 0 is 1, C outside 1 to H is H (R32). -/
def State.legH (s : State) : Nat := max 1 (s.fld Reg.WPC_LEG_LIVE 15 0)
def State.legC (s : State) : Nat :=
  let c := s.fld Reg.WPC_LEG_LIVE 31 16
  if 1 ≤ c ∧ c ≤ s.legH then c else s.legH

/-- The flags of one step are cleared (R114, R115, R180), and every draw index starts at 0 again (R89). They do so at
WAYPOINT_DONE, as WPC_WAYPOINT moves then, while part (i) makes a new seed live at the gather: a serving chiplet that draws in between
draws from the new seed with the old number and index (DEDUCED, assumption 22). -/
def State.clearStep (s : State) : State :=
  let s1 := ((((s.clearStepSigs.setFld Reg.SC_STEP_NF 0 0 0).setFld Reg.SC_SLICE 0 0 0).setFld Reg.RT_STEP_TAINT 0 0 0).setFld
    Reg.RT_SLICE 0 0 0).resetColls
  { s1 with
    wp := { s1.wp with taintRead := false }
    chiplets := s1.chiplets.map fun (e : Nat × Chiplet) => (e.1, { e.2 with drawIdx := (0, 0) }) }

/-- The current leg. -/
def State.leg (s : State) : Nat := s.fld Reg.WPC_POSITION 63 32

/-- Round r − 1 has not been applied when leg r ends (R26). -/
def State.outerLate (s : State) (r : Nat) : Bool :=
  decide (1 ≤ r) && match s.roundApplied with
    | some a => decide (a < r - 1)
    | none => true

/-- A fix round closes and a leg ends, as waypoint n calls for; the second part says what happened. -/
def State.legEvents (s : State) (n : Nat) : State × Bool × Option Nat :=
  let closes := s.wp.closeAt.filter fun c => decide (c.1 = n)
  let s1 := match closes with
    | some c => { s.closeRound c.2 with wp := { (s.closeRound c.2).wp with closeAt := none } }
    | none => s
  if n = s.wp.legStart + s.wp.legLen then
    let r := s1.leg
    let s2 := { s1 with wp := { s1.wp with legStart := n, legLen := s1.legH, closeAt := some (n + s1.legC, r) } }
    ((s2.setFld Reg.WPC_POSITION 63 32 (r + 1)).openRound r n, closes.isSome, some r)
  else (s1, closes.isSome, none)

/-- The training chiplets of the live mask start their step (R177). -/
def State.startTraining (s : State) : State :=
  let s1 := (List.range 64).foldl (fun (t : State) c =>
    if t.isServing c then t
    else if t.unfenced (.chiplet (Fin.ofNat 64 c)) then t.startStep c
    else t.setChip c { t.chip c with run := .idle }) s
  { s1 with wp := { s1.wp with trained := s1.trainCount } }

/-- What a step leaves behind for the next one. -/
def State.newStep (s : State) : State :=
  { s with wp := { s.wp with gather := none, arrived := [], firstArrival := none, timeoutRaised := false, late := [], phases := [],
                             rsTiles := 0, serveDone := 0 } }

/-- The duration of the waypoint, and its budget of 6 µs (R21). -/
def State.closeWaypoint (s : State) (g : Gather) : State × Bool :=
  let d := s.now - g.time
  let s1 := (s.setReg Reg.WPC_LAST_DURATION (satTo 32 d)).setFld Reg.WPC_POSITION 0 0 0
  if 6000 < d then ((s1.tally Reg.WPC_OVER_BUDGET).raise pgWPC 8, true) else (s1, false)

/-- WAYPOINT_DONE of COMPUTE START: no step ends, no engine starts (R194). -/
def State.doneStart (s : State) (g : Gather) : State :=
  let s1 := ((s.closeWaypoint g).1).clearStep
  let s2 := ({ s1 with wp := { s1.wp with legLen := s1.legH } }.setFld Reg.WPC_POSITION 3 2 0).setFld Reg.FLT_JOB 31 31 0
  let s3 := match s2.wp.startBy with
    | some (n, i) => { s2 with wp := { s2.wp with startBy := none } }.finish n i 0 0
    | none => s2
  s3.newStep.startTraining

/-- WAYPOINT_DONE of a step: the number, the round events, the engines' work, the record, the next replay. -/
def State.doneStep (s : State) (g : Gather) : State :=
  let v : Verdict := ⟨g.nf, g.taint⟩
  let n := s.reg Reg.WPC_WAYPOINT + 1
  let lstart := s.wp.legStart
  let leg := s.leg
  let (s1, slow) := (s.setReg Reg.WPC_WAYPOINT (n % 2 ^ 64)).closeWaypoint g
  let (s2, closed, opened) := s1.clearStep.legEvents n
  let before := s2.roundApplied
  let (s3, passes) := s2.outerDue g.outers opened
  let s4 := s3.startUpdates v.commit passes n
  let s5 := match opened with
    | some r => s4.tallyIf (s4.outerLate r) Reg.WPC_OUTER_LATE
    | none => s4
  let s6 := if v.commit then s5.countRefresh else s5
  let flags := boolNat opened.isSome + 2 * boolNat closed + 4 * boolNat (decide (s6.roundApplied ≠ before))
    + 8 * boolNat g.deferred + 16 * boolNat slow
  let s7 := s6.logPhase (s6.plogRecord n leg lstart v flags)
  let s8 := (s7.setFld Reg.WPC_POSITION 3 2 v.code).setFld Reg.WPC_POSITION 31 16 (n - s7.wp.legStart)
  let s9 := s8.newStep
  if s9.wp.stopBy.isEmpty then s9.startTraining
  else
    State.stopDone { s9 with
      wp := { s9.wp with stopping := true }
      chiplets := s9.chiplets.map fun (e : Nat × Chiplet) =>
        if s9.isServing e.1 then e else (e.1, { e.2 with run := .idle }) }

/-- WAYPOINT_DONE: every participant has acknowledged or is fenced. -/
def execWaypointDone (s : State) : Host.Outcome State Fault Refusal :=
  match s.wp.gather with
  | none => .next s
  | some g =>
    if allParticipants.all fun p => g.acks.contains p || !s.present p then
      .next (if g.start then s.doneStart g else s.doneStep g)
    else .next s

/-! ### COMPUTE START and STOP (R194) -/

/-- A job begins: number, legs and rounds restart. -/
def State.newJob (s : State) (n idx : Nat) : State :=
  let s1 := { s with
    covered := 0
    wp := { job := true, startBy := some (n, idx), flipPending := s.wp.flipPending } }
  (((s1.setReg Reg.WPC_WAYPOINT 0).setReg Reg.UPD_OUTER_STATE 0xFFFFFFFFFFFFFFFF).setFld Reg.XCH_ROUND 31 0
    (s.reg Reg.XCH_ROUND_BASE)).setReg Reg.WPC_POSITION (putBits (putBits (s.reg Reg.WPC_POSITION) 63 16 0) 3 2 0)

/-- The waypoint controller's ward is fenced. -/
def State.controllerFenced (s : State) : Bool := s.wardFence.contains 1

/-- COMPUTE_START: the waypoint sequence without a gather, with outcome COMMIT. -/
def execComputeStart (n : Fin 32768) (idx : BitVec 16) (s : State) : Host.Outcome State Fault Refusal :=
  match s.flightOf n idx.toNat 0 1 with
  | none => .next s
  | some f =>
    if f.accepted then .next s
    else if s.controllerFenced then .next (s.refuseFlight n idx.toNat)
    else if s.wp.job then .next (s.freezeRing n (some idx.toNat) 0)
    else .next (((s.acceptFlight n idx.toNat none).newJob n idx.toNat).gatherNow ⟨false, false⟩ true)

/-- COMPUTE_STOP: the job runs to its next waypoint. -/
def execComputeStop (n : Fin 32768) (idx : BitVec 16) (s : State) : Host.Outcome State Fault Refusal :=
  match s.flightOf n idx.toNat 0 2 with
  | none => .next s
  | some f =>
    if f.accepted then .next s
    else if s.controllerFenced then .next (s.refuseFlight n idx.toNat)
    else if !s.wp.job then .next (s.freezeRing n (some idx.toNat) 0)
    else
      let s1 := s.acceptFlight n idx.toNat none
      .next { s1 with wp := { s1.wp with stopBy := s1.wp.stopBy ++ [(n.val, idx.toNat)] } }

end Sys2Proof.Machine
end

