-- ==== Sys2Proof/Machine/Resets.lean ====
section
/-! DEFINITION. What a reset makes of a unit and of a ward, what survives it, the registers that the binnacle saves and
writes back, and function-level resets (R157, R204, R233, R319, R333, R355 to R357, R360). -/

namespace Sys2Proof.Machine

/-! ### Registers (R360) -/

/-- Registers whose address has a property return to their reset values. -/
def State.dropRegs (s : State) (p : Nat → Bool) : State :=
  { s with regs := s.regs.filter fun e => !p (keyAddr e.1) }

/-- The bits of a register that the binnacle saves: its RW and RW-WP fields, with the live mirrors, and its event
counters. -/
def savedMask (a : Nat) : Nat :=
  match descAt a with
  | none => 0
  | some (d, _) => d.fields.foldl (fun m f =>
      if f.acc = .rw ∨ f.acc = .wp ∨ f.acc = .sat ∨ f.acc = .live then Nat.lor m ((2 ^ (f.hi + 1 - f.lo) - 1) <<< f.lo)
      else m) 0

/-- An address lies on a page of a unit. -/
def onUnit (u : UnitId) (a : Nat) : Bool := (unitPages u).contains (pageBase a)

/-- The listed registers of a unit, as the binnacle saves them at the start of a fence. -/
def State.savedRegs (s : State) (u : UnitId) : List (Nat × DWord) :=
  (s.regs.filter fun e => onUnit u (keyAddr e.1)).map fun e =>
    (e.1, BitVec.ofNat 64 (Nat.land e.2.toNat (savedMask (keyAddr e.1))))

/-- The saved bits of a register written back. -/
def State.restoreReg (keep : List (Nat × DWord)) (s : State) (k : Nat) : State :=
  let m := savedMask (keyAddr k)
  let v := match Map.find keep k with
    | some v => v.toNat
    | none => Nat.land (regReset k).toNat m
  s.setReg k (s.reg k - Nat.land (s.reg k) m + v)

/-- The binnacle writes back what it saved of a unit. -/
def State.restoreUnit (s : State) (u : UnitId) : State :=
  let keep := (s.unit u).saved
  let keys := keep.map (fun e => e.1) ++ (s.regs.filter fun e => onUnit u (keyAddr e.1)).map fun e => e.1
  keys.foldl (State.restoreReg keep) s

/-- The registers of an update engine that the binnacle keeps through every reset but power-on (R233). -/
def isKeptUpd (a : Nat) : Bool :=
  (List.range 48).any fun k => a = Reg.UPD_MAP k ∨ a = Reg.UPD_MAP_LIVE k ∨ a = Reg.UPD_JRNL k ∨ a = Reg.UPD_ENG_WSET k

/-- The kept registers of an engine written back, before its roll-forward. -/
def State.restoreUpd (s : State) (k : Nat) : State :=
  let keep := (s.unit (updUnit k)).saved
  [Reg.UPD_MAP k, Reg.UPD_MAP_LIVE k, Reg.UPD_JRNL k, Reg.UPD_ENG_WSET k].foldl (State.restoreReg keep) s

/-- The repair map shows itself on a chiplet's engine page. -/
def isRepairReg (a : Nat) : Bool :=
  (List.range 64).any fun c => a = Reg.ENG_SPARES c ∨ a = Reg.ENG_RETIRED c ∨
    (List.range 9).any fun j => a = Reg.ENG_ARRAY_MAP c j

/-! ### Memory (R355, R427) -/

/-- Memory that a loss does not reach; what is lost reads undefined from then on. -/
def State.keepMem (s : State) (p : Nat → Bool) : State :=
  { s with mem := s.mem.filter fun e => p e.1, memEpoch := s.memEpoch + 1 }

/-- Memory of a base die: its bank SRAM and its chiplets' scratch and instruction banks. -/
def onBaseDie (n a : Nat) : Bool :=
  match placeOf a with
  | .bank d => decide (d = n)
  | .scratch c => decide (dieOf c = n)
  | .imem c _ => decide (dieOf c = n)
  | _ => false

/-! ### Function-level and fundamental resets (R356) -/

/-- A ring is fenced by a reset of its function: nothing more starts, records, interrupts and host data are discarded,
and it drains. -/
def State.drainRing (s : State) (n : Nat) : State :=
  let r := s.ring n
  match r.st with
  | .off => s
  | _ => (s.setRing n { r with st := .draining, leaving := some .fencing, discard := true,
                               drainAt := if r.st = .draining then r.drainAt else s.now }).settleRing n

/-- The rings a function owns. -/
def State.ringsOf (s : State) (die idx : Nat) : List Nat :=
  (s.rings.map fun e => e.1).filter fun n => s.ringOwner n == some (die, idx)

/-- A function-level reset: its rings drain, its freeze ends, its MSI-X table is reset. -/
def State.flr (s : State) (die idx : Nat) : State :=
  let s1 := (s.ringsOf die idx).foldl State.drainRing s
  let s2 := s1.setFld (frozenReg die) (frozenBit idx) (frozenBit idx) 0
  let own (k : Nat) : Bool := decide (k / 4096 = funcKey die idx)
  { s2 with msixMasked := s2.msixMasked.filter fun k => !own k, msixPending := s2.msixPending.filter fun k => !own k }

/-- FUNCTION_LEVEL_RESET. -/
def execFunctionLevelReset (f : Func) (s : State) : Host.Outcome State Fault Refusal :=
  if s.wardPowered 8 then .next (s.flr f.die f.idx) else .next s

/-- The VF split of a host die comes into force; one over 60 is replaced by 40 and 20 (R59). -/
def State.applySplit (s : State) (d : Nat) : State :=
  let a := s.fld (Reg.HOST_VF_SPLIT d) 5 0
  let b := s.fld (Reg.HOST_VF_SPLIT d) 13 8
  let s1 := if 60 < a + b then (s.setFld (Reg.HOST_VF_SPLIT d) 5 0 40).setFld (Reg.HOST_VF_SPLIT d) 13 8 20 else s
  { s1 with vfSplit := Map.put (fun _ => (40, 20)) s1.vfSplit d (if 60 < a + b then (40, 20) else (a, b)) }

/-- TotalVFs in the SR-IOV capability of PF1 or PF2 of a host die: its share of the VFs, by the split in force (R59). -/
def State.totalVFs (s : State) (die pf : Nat) : Nat := if pf = 1 then (s.split die).1 else if pf = 2 then (s.split die).2 else 0

/-- The fundamental reset of a host die: a function-level reset of every function, its HOST_* registers, its split. -/
def State.resetHost (s : State) (d : Nat) : State :=
  let s1 := (List.range 63).foldl (fun (t : State) i => t.flr d i) s
  (s1.dropRegs fun a => decide (pageBase a = pgHOSTF d) && decide (a ≠ Reg.HOST_VF_SPLIT d)).applySplit d

/-- A host die's PCIe link can train: the ward has power, PERSTn_N is high, and PWR_GOOD has stood for 100 µs where it has risen
(R420). -/
def State.hostTrains (s : State) (d : Nat) : Bool := s.wardPowered 8 && !s.hostInReset d

/-- The host dies whose PCIe link is to train do so, as soon as each can. -/
def State.trainHosts (s : State) : State :=
  (s.pwr.untrained.filter s.hostTrains).foldl (fun (t : State) d => t.trainLanes (118 + 16 * d) 16)
    { s with pwr := { s.pwr with untrained := s.pwr.untrained.filter fun d => !s.hostTrains d } }

/-- A host die's PCIe link trains anew. -/
def State.retrainHost (s : State) (d : Nat) : State :=
  State.trainHosts { s with pwr := { s.pwr with untrained := if s.pwr.untrained.contains d then s.pwr.untrained else s.pwr.untrained ++ [d] } }

/-! ### Units (R357) -/

/-- A chiplet after its reset: scratch and instruction banks stay, the register files read 0 but for Q0, and bank 0
is active, as SEQ_STATE reads after a reset. -/
def Chiplet.restart (x : Chiplet) : Chiplet := { opsOut := x.opsOut }

/-- An UPDATE descriptor ends: its passes leave every engine. -/
def State.dropPasses (s : State) (d : Nat × Nat) : State :=
  let keep (p : UpdPass) : Bool := passOf p != some d
  { s with
    updOpen := s.updOpen.filter fun o => !(o.ring == d.1 && o.idx == d.2)
    updQueue := s.updQueue.filter keep
    upds := s.upds.map fun (e : Nat × UpdEng) => (e.1, { e.2 with later := e.2.later.filter keep }) }

/-- A retrain of a link die, or training for one that has failed (R250). -/
def State.retrainLink (s : State) (l : Nat) : State :=
  if s.linkState l = 2 then s.startRetrain l else if s.linkState l = 4 then s.setLinkState l 1 else s

/-- A link's record of its peer and its cable reads its reset value; its state and its relay stay (R355, R384). -/
def State.forgetPeer (s : State) (l : Nat) : State := s.setFld (Reg.TOR_LINK_STATE l) 31 13 0

/-- A unit reset of a link die: what the binnacle saves of its page stays as it was, since the die passes through no probation (R357,
R360); the link is trained anew. -/
def State.resetLink (s : State) (l : Fin 6) : State :=
  let keep := s.savedRegs (.link l)
  let s1 := s.dropRegs fun a => onUnit (.link l) a && decide (a ≠ Reg.TOR_LINK_STATE l) && decide (a ≠ Reg.TOR_LINK_LANES l)
  (((keep.map Prod.fst).foldl (State.restoreReg keep) s1).forgetPeer l).retrainLink l

/-- What a reset leaves of an update engine: the pass it interrupted, with its waypoint and the scale of its step (R234). -/
def UpdEng.cut (u : UpdEng) : UpdEng := { held := u.stop.held, wpn := u.wpn, exp := u.exp }

/-- A reset acts on a unit: its page's registers read their reset values and its own state is gone. -/
def State.resetUnit (s : State) (u : UnitId) : State :=
  let page (t : State) : State := t.dropRegs fun a => onUnit u a && !isRepairReg a
  match u with
  | .chiplet c => page (s.setChip c (s.chip c).restart)
  | .upd k => page (s.setUpd k (s.upd k).cut)
  | .slowTier => page s
  | .codec _ => page s
  | .farPort p =>
    let s1 := (page (s.resetCipher p)).settleEpochs
    { s1 with replay := s1.replay.filter fun e => decide (e.1 % 2 ≠ p) }
  | .link l => s.resetLink l
  | .coll =>
    let s1 := s.dropRegs fun a => onUnit u a && decide (a ≠ Reg.TOR_RELAY)
    { s1 with colls := [], fetches := [], injects := [], probeSeen := [] }
  | .hostDie d => (s.resetHost d).retrainHost d

/-! ### Wards (R46, R355) -/

/-- An address lies in a ward's registers. -/
def inWardRegs (w a : Nat) : Bool := decide (a / 0x1000000 = w)

/-- Registers of a ward that its reset leaves as they are. A link's state and relay are none of its ward's registers, a link that stays
UP runs on the lanes it has, and HOST_VF_SPLIT survives the reset of its host die (R356, R357). -/
def State.wardKeeps (s : State) (a : Nat) : Bool :=
  isRepairReg a || isKeptUpd a || a == Reg.CPH_XSTATE || a == Reg.TOR_RELAY
    || ((List.range 6).any fun l => a = Reg.TOR_LINK_STATE l ∨ (a = Reg.TOR_LINK_LANES l ∧ s.linkState l = 2))
    || a == Reg.HOST_VF_SPLIT 0 || a == Reg.HOST_VF_SPLIT 1

/-- Operations of a chiplet that leave the accumulation net with a base die. -/
def State.dropAccNet (s : State) (die : Nat) : State :=
  let gone := (s.accNet.filter fun w => decide (w.die = die)) ++ s.accHeld.filter fun w => decide (w.die = die)
  let s1 := { s with
    accNet := s.accNet.filter fun w => decide (w.die ≠ die)
    accHeld := s.accHeld.filter fun w => decide (w.die ≠ die)
    ranges := s.ranges.filter fun e => decide (e.1 / 32 ≠ die) }
  gone.foldl (fun (t : State) (w : AccWrite) => match w.writer with
    | .chiplet c => t.sigSent (some c.val)
    | _ => t) s1

/-- A base die's own state: signals, regions, arbiters, memory and its chiplets; base die 0 also holds the waypoint
controller and the scale unit. -/
def State.resetBase (s : State) (n : Nat) : State :=
  let s1 := (((s.resetSigs n).dropAccNet n).keepMem fun a => !onBaseDie n a)
  let s2 := { s1 with
    arbs := s1.arbs.filter fun e => decide (e.1 / 232 ≠ n)
    injects := s1.injects.filter fun i => decide (dieOf i.chiplet ≠ n)
    chiplets := s1.chiplets.map fun (e : Nat × Chiplet) => if dieOf e.1 = n then (e.1, e.2.restart) else e }
  if n = 0 then
    { s2 with wp := {}, staged := [], lsStaged := none, slotMem := [], mirror := [], mirrorAt := none, census := [], resighted := [], sectT := [] }
  else s2

/-- Descriptors that a ward's units hold for the host as a whole: their flights end DRAINED_ERROR. -/
def State.drainFlights (s : State) (l : List (Nat × Nat)) : State :=
  l.foldl (fun (t : State) d => (t.finish d.1 d.2 2 0).tally Reg.FLT_DRAINED_ERRORS) s

/-- The MEMORY ward's common state; the lane repairs of the HBM channels apply again. -/
def State.resetMemory (s : State) : State :=
  let s1 := (s.drainFlights (s.updOpen.map fun o => (o.ring, o.idx))).applyLanes
  { s1.dropDelta with upds := s1.upds.map fun (e : Nat × UpdEng) => (e.1, e.2.cut), updQueue := [], updOpen := [], variants := [], varStaged := [] }

/-- The EXCHANGE ward's common state. -/
def State.resetExchange (s : State) : State :=
  let held := s.handoffs ++ ((s.handing.map fun h => (h.ring, h.idx)).toList ++ (s.snapFetch.map fun x => (x.ring, x.idx)).toList)
  let s1 := s.dropDelta.drainFlights (held.filter fun d => decide (d.1 < 32768))
  { s1 with
    keys := [], epochs := [], epochGone := [], prevSince := none, replay := [], ciphers := [], tx := [], streamNum := 0, partners := [], rx := []
    delta := {}, deltaOpen := none, deltaNext := [], hold := [], spanDue := [], snapDue := none, reports := [], ownAdded := 0, covered := 0
    handoffs := [], handing := none, snapFetch := none, prevGrace := 0 }

/-- The HOST ward's common state: every ring is gone. -/
def State.resetHostWard (s : State) : State :=
  [0, 1].foldl State.applySplit { s with rings := [], lastFetch := [], msixMasked := [], msixPending := [] }

/-- The links in a reset of their ward: their peers are forgotten, and the cleared DISABLE lets a DISABLED link go to DOWN (R250). -/
def State.resetLinkStates (s : State) : State :=
  (List.range 6).foldl (fun (t : State) l =>
    let u := t.forgetPeer l
    if u.linkState l = 5 then u.setLinkState l 0 else u) s

/-- A ward's state returns to reset. -/
def State.resetWardState (s : State) (w : Nat) : State :=
  if w = 5 then s.resetMemory
  else if w = 6 then { s.resetLinkStates with colls := [], fetches := [], injects := [], probeSeen := [] }
  else if w = 7 then s.resetExchange
  else if w = 8 then s.resetHostWard
  else if 1 ≤ w ∧ w ≤ 4 then s.resetBase (w - 1)
  else s

/-- A ward reset: its registers and its state. -/
def State.resetWard (s : State) (w : Nat) : State :=
  (s.resetWardState w).dropRegs fun a => inWardRegs w a && !s.wardKeeps a

end Sys2Proof.Machine
end

