-- ==== Sys2Proof/Machine/Fence.lean ====
section
/-! DEFINITION. The fence sequence, quarantine, and the resets of units, wards, host dies and the module
(R48, R355 to R363, R367, R368, R371). -/

namespace Sys2Proof.Machine

/-! ### What a fence finds accepted (R358, R359) -/

/-- Flights of descriptors that passes of an engine come from. -/
def State.passFlights (s : State) (ps : List UpdPass) : List (Nat × Nat) :=
  ((ps.filterMap passOf).filter fun d => s.updOpen.any fun o => o.ring == d.1 && o.idx == d.2).eraseDups

/-- Descriptors a unit has accepted and not completed. -/
def State.openFlights (s : State) (u : UnitId) : List (Nat × Nat) :=
  match u with
  | .chiplet c => (s.chip c).serve.toList
  | .upd k => s.passFlights ((s.upd k).due ++ (s.upd k).later)
  | .farPort p => (s.cipher p).jobs.map fun j => (j.ring, j.idx)
  | .codec k => s.rings.flatMap fun e => (e.2.flights.filter fun f =>
      f.status.isNone && f.accepted && f.unit == some (unitNum (.codec k))).map fun f => (e.1, f.idx)
  | .hostDie d => (s.rings.filter fun e => e.2.st == .draining && decide (s.ringDie e.1 = d.val)).flatMap fun e =>
      (e.2.flights.filter fun f => f.status.isNone).map fun f => (e.1, f.idx)
  | _ => []

/-- Entries of the collective table at work. -/
def State.openEntries (s : State) : Nat :=
  (s.colls.filter fun e => e.2.started.isSome && !e.2.done && !e.2.failed).length

/-- Requests a unit has accepted and not completed. -/
def State.outstanding (s : State) (u : UnitId) : Nat :=
  match u with
  | .coll => s.openEntries
  | _ => (s.openFlights u).length

/-- A descriptor goes back to its ring REFUSED, without effect. -/
def State.handBack (s : State) (d : Nat × Nat) : State :=
  (s.mapFlight d.1 d.2 fun f => { f with accepted := false, unit := none }).refuseFlight d.1 d.2

/-- SERVE requests held for a chiplet they name, which no chiplet has taken. -/
def State.heldServes (s : State) (c : Nat) : List (Nat × Nat) :=
  s.rings.flatMap fun e => if s.ringClass e.1 ≠ 6 then [] else
    (e.2.flights.filter fun f => f.status.isNone && f.accepted && decide (srvChiplet f.bytes = c)
      && !s.chiplets.any fun x => x.2.serve == some (e.1, f.idx)).map fun f => (e.1, f.idx)

/-- Step 2: requests that have not started are returned REFUSED. -/
def State.returnUnstarted (s : State) (u : UnitId) : State :=
  match u with
  | .upd k =>
    let begun (d : Nat × Nat) : Bool := s.upds.any fun e => e.2.due.any fun p => passOf p == some d
    ((s.passFlights (s.upd k).later).filter fun d => !begun d).foldl (fun (t : State) d => (t.dropPasses d).handBack d) s
  | .farPort p =>
    let x := s.cipher p
    ((x.jobs.filter fun j => !j.begun).map fun j => (j.ring, j.idx)).foldl State.handBack
      (s.setCipher p { x with jobs := x.jobs.filter fun j => j.begun })
  | .chiplet c => (s.heldServes c).foldl State.handBack s
  | _ => s

/-- A CIPHER descriptor that ends in part leaves its destination undefined (R359). -/
def State.spoilCipher (s : State) (n idx : Nat) : State :=
  match s.flightAt n idx with
  | none => s
  | some f =>
    let len := fieldAt f.bytes 0x20 4
    match s.local? (fieldAt f.bytes 0x18 8) with
    | some a =>
      { s.guardedStore a (s.freeBytes len) with freeCount := s.freeCount + len }
    | none => s

/-- Step 4: everything still accepted completes DRAINED_ERROR. -/
def State.drainUnit (s : State) (u : UnitId) : State :=
  let ds := s.openFlights u
  let s1 := match u with
    | .farPort p =>
      let t := ds.foldl (fun (t : State) d => t.spoilCipher d.1 d.2) s
      t.setCipher p { t.cipher p with jobs := [] }
    | .upd _ => ds.foldl State.dropPasses s
    | .chiplet c => s.setChip c { s.chip c with serve := none, run := .idle }
    | .coll => { s with colls := s.colls.filter fun e => !(e.2.started.isSome && !e.2.done && !e.2.failed) }
    | _ => s
  let s2 := ds.foldl (fun (t : State) d => t.finish d.1 d.2 2 0) s1
  (s2.count Reg.FLT_DRAINED_ERRORS (s.outstanding u)).setUnit u { s2.unit u with drained := s.outstanding u }

/-! ### The start of a fence -/

/-- A fence that is a data-path fault (R364, CAUSE 10). -/
def State.fenceHalts (s : State) (u : UnitId) : Bool :=
  s.wp.job && match u with
    | .chiplet c => !s.isServing c
    | .upd k => (s.upd k).running || (s.upd k).todo
    | _ => false

/-- What the start of a fence does beside the sequence. -/
def State.fenceEffects (s : State) (u : UnitId) : State :=
  let s1 := if s.fenceHalts u then s.jobFault 10 (some u) else s
  match u with
  | .codec k => (if s1.forming k then s1.abortDelta else s1).cutAdd k
  | .hostDie d => (List.range 63).foldl (fun (t : State) i => t.flr d i) s1
  | _ => s1

/-- Steps 1 and 2 of the fence sequence. -/
def State.startFence (s : State) (u : UnitId) (kind : FenceKind) (dump : Option Nat) : State :=
  let x := s.unit u
  let s1 := s.setUnit u { x with
    kind := kind, dumpDue := dump.isSome, dumpCause := dump.getD 0, fenceAt := s.now, fenceWp := s.reg Reg.WPC_WAYPOINT
    timedOut := false, dumpTaken := false, dumpSkipped := false, drained := 0
    saved := if x.phase = .normal then s.savedRegs u else x.saved }
  (((s1.setPhase u .fencing).fenceEffects u).returnUnstarted u).setPhase u .draining

/-- A fence of one unit; a request for a unit already in the sequence joins it (R363), and a quarantined unit stays so. -/
def State.fenceOne (s : State) (u : UnitId) (kind : FenceKind) (dump : Option Nat) : State :=
  let x := s.unit u
  match x.phase with
  | .normal => s.startFence u kind dump
  | .draining => if dump.isSome ∧ !x.dumpDue then s.setUnit u { x with dumpDue := true, dumpCause := dump.getD 0 } else s
  | _ => s

/-- The units fenced with the slow-tier controller (R48). -/
def allUpds : List UnitId := (List.finRange 48).map .upd

/-- A unit that is fenced with others waits for them to leave RESET, beside those it waits for already (R48). -/
def State.waitFor (s : State) (u : UnitId) (firsts : List UnitId) : State :=
  let x := s.unit u
  if x.phase = .quarantined then s
  else s.setUnit u { x with waitsFor := x.waitsFor ++ firsts.filter fun v => !x.waitsFor.contains v }

/-- A fence of a unit with those whose data path passes through it (R48): fenced in their own wards first. -/
def State.fenceUnit (s : State) (u : UnitId) (kind : FenceKind) (dump : Option Nat) : State :=
  let s1 := if u = .slowTier ∧ s.unfenced u then allUpds.foldl (fun t v => (t.fenceOne v .wider none).waitFor v [u]) s else s
  s1.fenceOne u kind dump

/-! ### The end of a drain (R358, R369, R371) -/

/-- WINDOW_S and COUNT of FLT_ESCALATE, 0 acting as 1. -/
def State.escalate (s : State) : Nat × Nat :=
  (max 1 (s.fld Reg.FLT_ESCALATE 31 16) * 1000000000, max 1 (s.fld Reg.FLT_ESCALATE 3 0))

/-- The fence is one of those whose resets are fault resets. -/
def FenceKind.fault : FenceKind → Bool
  | .watchdog => true
  | .selfTest => true
  | _ => false

/-- Fault resets of a unit within the window. -/
def State.recentResets (s : State) (u : UnitId) : List Nat :=
  (s.unit u).history.filter fun t => decide (s.now < t + (s.escalate).1)

/-- The unit's quarantine is a data-path fault. -/
def quarantineFaults : UnitId → Bool
  | .farPort _ => false
  | .hostDie _ => false
  | _ => true

/-- The wards whose reset waits for units of theirs take effect once none is left before RESET. -/
def State.settleDue (s : State) : State :=
  s.wardDue.foldl (fun (t : State) w =>
    let ready := allUnits.all fun u => unitWard u ≠ w ∨ (t.unit u).phase = .reset ∨ (t.unit u).phase = .quarantined
    if ready then { t.resetWard w with wardDue := t.wardDue.filter fun v => decide (v ≠ w) } else t) s

/-- FAILED links go to TRAIN; links that are UP stay so. -/
def State.mendLinks (s : State) : State :=
  (List.range 6).foldl (fun (t : State) l => if t.linkState l = 4 then t.setLinkState l 1 else t) s

/-- The image that runs after a boot: the one the boot descriptor names, or the other where it fails its checks. -/
def State.bootImage (s : State) : State :=
  let d := s.fw.boot0
  let other : Bool := !d.ok d.active && d.ok (!d.active)
  { s with fw := { s.fw with restart := none, running := if other then !d.active else d.active, fallback := other } }

/-- What the binnacle keeps of a unit through a warm reset: its history, unless it was quarantined, and the registers it saved. -/
def UnitSt.rearm (x : UnitSt) : UnitSt :=
  { history := if x.phase = .quarantined then [] else x.history, lastReset := x.lastReset, code := x.code, prev := x.prev
    saved := x.saved }

/-- The wards other than BINNACLE return to reset; HBM, the slow tier, TOR_RELAY and what BINNACLE keeps survive. -/
def State.resetWards (s : State) : State :=
  let s1 := [1, 2, 3, 4, 5, 6, 7, 8].foldl State.resetWard s
  let s2 := { s1.keepMem inDram with chiplets := [], sigNet := [], accNet := [], accHeld := [], injects := [], wardFence := [], wardDue := [] }
  s2.dropRegs fun a => a = Reg.CPH_XSTATE

/-- A warm reset acts: quarantined chiplets are marked, the state of the wards is new, repairs apply, failed links train, and an
automatic relay ends (R265). -/
def State.restartModule (s : State) (defects : List Defect) : State :=
  let bad := (List.range 64).filter fun c => decide ((s.unit (.chiplet (Fin.ofNat 64 c))).phase = .quarantined)
  let s1 := (bad.foldl (fun (t : State) c => t.markChiplet c) s).resetWards
  (((({ s1 with units := s1.units.map fun (e : Nat × UnitSt) => (e.1, e.2.rearm) }.buildRepair defects).mendLinks).bootImage).setFld
    Reg.TOR_RELAY 9 9 0).applyRelay

/-- The units that a module warm reset fences: every one but the torus link dies, whose links stay UP and relay (R355). -/
def warmUnits : List UnitId := allUnits.filter fun u => match u with
  | .link _ => false
  | _ => true

/-- A module warm reset acts once no unit of its scope is left before RESET; they stand in RESET then, the quarantined ones
among them. -/
def State.settleWarm (s : State) : State :=
  match s.warmDue with
  | none => s
  | some ds =>
    if warmUnits.all fun u => (s.unit u).phase == .reset || (s.unit u).phase == .quarantined then
      warmUnits.foldl (fun (t : State) u => t.setPhase u .reset) ({ s with warmDue := none }.restartModule ds)
    else s

/-- QUARANTINED in place of the reset. -/
def State.quarantine (s : State) (u : UnitId) : State :=
  let s1 := (s.setPhase u .quarantined).tally Reg.FLT_QUARANTINES
  let s2 := (unitPages u).foldl (fun (t : State) p => t.raise p 3) s1
  let s3 := if quarantineFaults u then s2.jobFault 9 (some u) else s2
  s3.settleWards.settleWarm

/-- The unit enters RESET. -/
def State.enterReset (s : State) (u : UnitId) : State :=
  ((s.resetUnit u).setPhase u .reset).settleDue.settleWarm

/-- Step 6, or quarantine where R371 puts it in place of the reset. -/
def State.resetOrQuarantine (s : State) (u : UnitId) : State :=
  let x := s.unit u
  if x.kind.fault then
    let h := s.recentResets u
    if (s.escalate).2 ≤ h.length + 1 then s.quarantine u
    else
      ((s.setUnit u { x with history := h ++ [s.now], lastReset := s.now }).tally Reg.FLT_FAULT_RESETS).enterReset u
  else s.enterReset u

/-- Step 5: a dump that is due is taken, or counted while one is held. -/
def State.afterDrain (s : State) (u : UnitId) : State :=
  let x := s.unit u
  if !x.dumpDue then s.resetOrQuarantine u
  else if s.dump.isSome then
    ((s.setUnit u { x with dumpDue := false, dumpSkipped := true }).tally Reg.FLT_DUMP_SKIPPED).resetOrQuarantine u
  else if s.flag Reg.FLT_DUMP_CTRL 31 then
    { s with dump := some { unit := u, cause := x.dumpCause, time := x.fenceAt, waypoint := x.fenceWp } }.setPhase u .dumping
  else s.resetOrQuarantine u

/-- The drain timeout of a ward, in ns. -/
def State.drainLimit (s : State) (w : Nat) : Nat := max 100 (min 1000000 (s.fld (Reg.FLT_DRAIN w) 19 0)) * 1000

/-- DRAIN_END: none of the accepted requests remains. -/
def execDrainEnd (u : UnitId) (s : State) : Host.Outcome State Fault Refusal :=
  if (s.unit u).phase = .draining ∧ s.outstanding u = 0 then .next (s.afterDrain u) else .next s

/-- What goes by a ring and index goes by another ring number. -/
def renamed (d : Nat × Nat) (m : Nat) (x : Nat × Nat) : Nat × Nat := if x = d then (m, x.2) else x

/-- A pass whose descriptor is named anew. -/
def UpdPass.renamed (d : Nat × Nat) (m : Nat) : UpdPass → UpdPass
  | .outer n i r f h a => if (n, i) = d then .outer m i r f h a else .outer n i r f h a
  | .null r (some o) => .null r (some (Machine.renamed d m o))
  | .derive_ n i a c => if (n, i) = d then .derive_ m i a c else .derive_ n i a c
  | .sweep n i => if (n, i) = d then .sweep m i else .sweep n i
  | p => p

/-- Who waits for another module, named anew. -/
def RemoteUse.renamed (d : Nat × Nat) (m : Nat) : RemoteUse → RemoteUse
  | .flight n i => if (n, i) = d then .flight m i else .flight n i
  | .gather n i a => if (n, i) = d then .gather m i a else .gather n i a
  | u => u

/-- A cipher engine after a descriptor's completion is lost: what no core has begun is dropped, the rest is named anew. -/
def CipherEng.renamed (d : Nat × Nat) (m : Nat) (x : CipherEng) : CipherEng :=
  { x with
    cores := x.cores.map fun e => (e.1, match e.2 with
      | some (.descriptor n i) => if (n, i) = d then some (.descriptor m i) else e.2
      | w => w)
    jobs := (x.jobs.filter fun j => j.begun || !(decide ((j.ring, j.idx) = d))).map fun (j : CipherJob) =>
      if (j.ring, j.idx) = d then { j with ring := m } else j }

/-- Work behind the descriptor runs in the module: a request on a chiplet, units on cipher cores, or accesses to other modules. -/
def State.workRuns (s : State) (d : Nat × Nat) : Bool :=
  (s.chiplets.any fun e => e.2.serve == some d) || (s.ciphers.any fun e => e.2.jobs.any fun j => j.begun && decide ((j.ring, j.idx) = d))
    || (s.remote.any fun r => r.use != r.use.renamed d 32768) || s.fetched.any fun f => decide ((f.ring, f.idx) = d)

/-- A number past the rings that no work goes by yet. -/
def State.ghostRing (s : State) (n : Nat) : Nat :=
  (s.ghosts.foldl (fun a g => max a (g.ring / 32768)) 0 + 1) * 32768 + n

/-- The descriptor keeps a record while its work runs. -/
def State.keepGhost (s : State) (d : Nat × Nat) (m : Nat) : State :=
  match s.openFlight d.1 d.2 with
  | none => s
  | some f =>
    if s.workRuns d then
      { s with ghosts := s.ghosts ++ [⟨m, d.2, s.ringClass d.1, s.ringWset d.1, f, (s.keySlot (cphSlot f.bytes)).key⟩] }
    else s

/-- Whatever works for the descriptor goes by the other number. -/
def State.renameWork (s : State) (d : Nat × Nat) (m : Nat) : State :=
  let keep (p : UpdPass) : Bool := passOf p != some d
  { s with
    chiplets := s.chiplets.map fun (e : Nat × Chiplet) => (e.1, { e.2 with serve := e.2.serve.map (renamed d m) })
    updOpen := s.updOpen.filter fun o => !(o.ring == d.1 && o.idx == d.2)
    updQueue := s.updQueue.filter keep
    upds := s.upds.map fun (e : Nat × UpdEng) =>
      (e.1, { e.2 with later := e.2.later.filter keep, due := e.2.due.map (UpdPass.renamed d m),
                          held := e.2.held.map (UpdPass.renamed d m) })
    ciphers := s.ciphers.map fun (e : Nat × CipherEng) => (e.1, e.2.renamed d m)
    remote := s.remote.map fun (r : Remote) => { r with use := r.use.renamed d m }
    fetched := s.fetched.map fun (f : Fetched) => if (f.ring, f.idx) = d then { f with ring := m } else f
    handoffs := s.handoffs.filter fun h => h != d
    handing := s.handing.map fun (h : Handing) => if (h.ring, h.idx) = d then { h with ring := m } else h
    snapFetch := s.snapFetch.map fun (x : SnapFetch) => if (x.ring, x.idx) = d then { x with ring := m } else x
    wp := { s.wp with
      startBy := if s.wp.startBy = some d then none else s.wp.startBy
      stopBy := s.wp.stopBy.map (renamed d m)
      gather := s.wp.gather.map fun g => { g with outers := g.outers.map (UpdPass.renamed d m) } } }

/-- A handoff whose completion is lost is carried out: the accumulator is zeroed. -/
def State.endLostHandoff (s : State) : State :=
  if s.handing.any fun h => decide (32768 ≤ h.ring) then s.endHandoff else s

/-- A flight of a function-level reset ends; the work behind it runs on in module memory, and only its completion
is lost (R356). -/
def State.orphan (s : State) (d : Nat × Nat) : State :=
  let m := s.ghostRing d.1
  ((((s.keepGhost d m).renameWork d m).finish d.1 d.2 2 0).tally Reg.FLT_DRAINED_ERRORS).endLostHandoff

/-- Flights of the draining rings of a host die that are late: the ward's drain timeout, at most 50 ms (R356). -/
def State.lateFlights (s : State) (d : Nat) : List (Nat × Nat) :=
  let limit := min 50000000 (s.drainLimit 8)
  (s.rings.filter fun e => e.2.st == .draining && decide (s.ringDie e.1 = d) && decide (e.2.drainAt + limit ≤ s.now)).flatMap
    fun e => (e.2.flights.filter fun f => f.status.isNone).map fun f => (e.1, f.idx)

/-- What is still accepted completes DRAINED_ERROR; a host die's flights leave their work behind (R356). -/
def State.endDrain (s : State) (u : UnitId) : State :=
  match u with
  | .hostDie _ =>
    let s1 := (s.openFlights u).foldl State.orphan s
    s1.setUnit u { s1.unit u with drained := s.outstanding u }
  | _ => s.drainUnit u

/-- DRAIN_TIMEOUT: what is still accepted completes DRAINED_ERROR. For a host die in no fence it ends the drains of
function-level resets. -/
def execDrainTimeout (u : UnitId) (s : State) : Host.Outcome State Fault Refusal :=
  let x := s.unit u
  if x.phase = .draining then
    if x.fenceAt + s.drainLimit (unitWard u) ≤ s.now then
      let s1 := s.setUnit u { x with timedOut := decide (0 < s.outstanding u) }
      .next ((s1.endDrain u).afterDrain u)
    else .next s
  else match u with
    | .hostDie d => .next ((s.lateFlights d).foldl State.orphan s)
    | _ => .next s

/-! ### RESET, PROBATION and admission (R357, R360, R361) -/

/-- The unit has left RESET, or was never in it. -/
def State.leftReset (s : State) (u : UnitId) : Bool :=
  match (s.unit u).phase with
  | .fencing => false
  | .draining => false
  | .dumping => false
  | .reset => false
  | _ => true

/-- The unit passes through no probation. -/
def noProbation : UnitId → Bool
  | .link _ => true
  | .hostDie _ => true
  | _ => false

/-- The unit enters PROBATION; an update engine gets its kept registers back, rolls its journal forward, and resumes a pass that the
reset interrupted, even between two blocks (R233, R234). -/
def State.enterProbation (s : State) (u : UnitId) : State :=
  match u with
  | .upd k =>
    let s1 := s.restoreUpd k
    (s1.setUpd k { s1.upd k with recovering := s1.journalLive k || !(s1.upd k).held.isEmpty }).setPhase u .probation
  | _ => s.setPhase u .probation

/-- The unit waits for the next waypoint, which admits it with those it was fenced with; while no job runs it is admitted as soon
as they are ready too (R48, R361). -/
def State.awaitWaypoint (s : State) (u : UnitId) : State :=
  let s1 := s.setPhase u .waiting
  if s.wp.job then s1 else s1.admitAll

/-- RESET_COMPLETE. A ward that loses power on the way to WATCH stays in RESET. -/
def execResetComplete (u : UnitId) (s : State) : Host.Outcome State Fault Refusal :=
  let x := s.unit u
  if x.phase = .reset ∧ s.pwr.change ≠ .entering ∧ s.warmDue = none ∧ !s.wardDue.contains (unitWard u)
      ∧ x.waitsFor.all s.leftReset then
    if !noProbation u then .next (s.enterProbation u)
    else if x.waitsFor.isEmpty then .next (s.admitUnit u)
    else .next (s.awaitWaypoint u)
  else .next s

/-- Self-test has passed: the saved registers are written back, and the unit waits for admission. -/
def State.passProbation (s : State) (u : UnitId) : State :=
  let s1 := s.restoreUnit u
  (s1.setUnit u { s1.unit u with saved := [], probEnd := s.now }).awaitWaypoint u

/-- PROBATION_COMPLETE: an update engine first ends its roll-forward; a failed self-test is a new fence. -/
def execProbationComplete (u : UnitId) (pass : Bool) (s : State) : Host.Outcome State Fault Refusal :=
  let busy : Bool := match u with
    | .upd k => (s.upd k).recovering
    | _ => false
  if (s.unit u).phase = .probation ∧ !busy then
    .next (if pass then s.passProbation u else s.startFence u .selfTest none)
  else .next s

/-- UNQUARANTINE of FLT_UNIT_CMD: the unit that FLT_UNIT_SEL names is reset and its history cleared. -/
def State.unquarantine (s : State) : State :=
  match allUnits.find? fun u => decide (unitIdent u = s.fld Reg.FLT_UNIT_SEL 15 0) with
  | none => s
  | some u =>
    if (s.unit u).phase = .quarantined then
      let s1 := s.setUnit u { s.unit u with history := [], phase := .normal }
      s1.startFence u .unitReset none
    else s

/-- UNQUARANTINE. -/
def execUnquarantine (who : Requester) (s : State) : Host.Outcome State Fault Refusal :=
  .next (s.command who pgFLT State.unquarantine)

/-! ### FENCE and UNIT_RESET (R357, R358) -/

/-- The host's fence: DUMP holds what was written with it. -/
def State.hostFence (s : State) (u : UnitId) (dump : Bool) : State :=
  (s.setFld (unitPage u + Hdr.FENCE_CTRL) 30 30 (boolNat dump)).fenceUnit u .host (if dump then some 2 else none)

/-- FENCE: FENCE_CTRL of a unit's page, with or without a dump. -/
def execFence (who : Requester) (u : UnitId) (dump : Bool) (s : State) : Host.Outcome State Fault Refusal :=
  .next (s.command who (unitPage u) fun t => t.hostFence u dump)

/-- UNIT_RESET: RESET_CTRL of a unit's page. -/
def execUnitReset (who : Requester) (u : UnitId) (s : State) : Host.Outcome State Fault Refusal :=
  .next (s.command who (unitPage u) fun t => t.fenceUnit u .unitReset none)

/-! ### Ward resets (R355, R363) -/

/-- A header-only dump: what a reset that ends a dump at once leaves (R363). -/
def dumpHead (d : Dump) (truncated : Bool) (bytes unreadable sections : Nat) : List Byte :=
  leBytes 4 0x534B4450 ++ leBytes 2 (unitIdent d.unit) ++ leBytes 1 d.cause ++ leBytes 1 (boolNat truncated)
    ++ leBytes 8 d.time ++ leBytes 8 d.waypoint ++ leBytes 4 bytes ++ leBytes 4 unreadable ++ leBytes 2 sections
    ++ List.replicate 30 0

/-- The dump is held. -/
def State.holdDump (s : State) (d : Dump) (bs : List Byte) (truncated : Bool) : State :=
  ({ s with dump := some { d with bytes := bs } }.setReg Reg.FLT_DUMP_STATUS
    (2 ^ 31 + boolNat truncated * 2 ^ 30 + bs.length)).tally Reg.FLT_DUMPS

/-- A dump that is being taken of a unit ends at once. -/
def State.cutDump (s : State) (u : UnitId) : State :=
  match s.dump with
  | none => s
  | some d => (s.holdDump d (dumpHead d true 64 0 0) true).setUnit u { s.unit u with dumpTaken := true, dumpDue := false }

/-- A wider reset reaches a unit, in whatever phase it stands. -/
def State.widen (s : State) (u : UnitId) : State :=
  let x := s.unit u
  match x.phase with
  | .normal => s.startFence u .wider none
  | .fencing => s
  | .draining => ((s.endDrain u).setUnit u { (s.endDrain u).unit u with kind := .wider }).afterDrain u
  | .dumping => ((s.cutDump u).setUnit u { (s.cutDump u).unit u with kind := .wider }).enterReset u
  | .reset => s
  | .probation => s.enterReset u
  | .waiting => (s.setUnit u { x with saved := s.savedRegs u }).enterReset u
  | .quarantined => s

/-- The units of a ward. -/
def wardUnits (w : Nat) : List UnitId := allUnits.filter fun u => unitWard u == w

/-- The units of other wards whose data path passes through base die n (R34, R48). Link dies fall back to relay. -/
def onDieUnits (n : Nat) : List UnitId :=
  (allUnits.filter fun u => match u with
    | .codec k => decide (k.val / 8 = n)
    | .upd k => decide (k.val / 12 = n)
    | .farPort p => decide (p.val + 2 = n)
    | .hostDie d => decide (d.val + 2 = n)
    | _ => false)

/-- The units fenced with a ward (R48). -/
def State.fencedWith (s : State) (w : Nat) : List UnitId :=
  let both := (w = 2 ∧ s.wardFence.contains 3) ∨ (w = 3 ∧ s.wardFence.contains 2)
  if 1 ≤ w ∧ w ≤ 4 then onDieUnits (w - 1) ++ if both then .slowTier :: allUpds else []
  else []

/-- What a fence of a ward begins with: while a job runs a base die's ward is a data-path fault (R204, R364), and the units of
other wards that are fenced with it come first, to wait for its own. -/
def State.openWardFence (s : State) (w : Nat) (one : State → UnitId → State) : State :=
  let s0 := { s with wardFence := if s.wardFence.contains w then s.wardFence else s.wardFence ++ [w] }
  let s1 := if 1 ≤ w ∧ w ≤ 4 ∧ s0.wp.job then s0.jobFault 10 none else s0
  (s1.fencedWith w).foldl (fun t u => (one t u).waitFor u (wardUnits w)) s1

/-- A fence of a ward that is no reset of it: its units run the fence sequence. -/
def State.fenceWard (s : State) (w : Nat) : State :=
  let one (t : State) (u : UnitId) : State := t.fenceOne u .wider none
  ((wardUnits w).foldl one (s.openWardFence w one)).applyRelay

/-- A ward reset: the units fenced with it first, then its own; the ward's own state follows once every unit of it has
reached RESET. -/
def State.wardReset (s : State) (w : Nat) : State :=
  if w = 0 ∨ 8 < w then s
  else
    let s0 := { s with wardDue := if s.wardDue.contains w then s.wardDue else s.wardDue ++ [w] }
    (((wardUnits w).foldl State.widen (s0.openWardFence w State.widen)).settleDue).applyRelay

/-- WARD_RESET. -/
def execWardReset (who : Requester) (w : Fin 9) (s : State) : Host.Outcome State Fault Refusal :=
  .next (s.command who pgFLT fun t => t.wardReset w)

/-! ### The module warm reset (R355) -/

/-- A module warm reset: relay on all three axes, the fence of every unit of its scope, which cuts short what it finds under way,
and the reset once they all stand in RESET. One that is under way goes on. -/
def State.warmReset (s : State) (defects : List Defect) : State :=
  if s.warmDue.isSome then s
  else
    let s1 := if s.wp.job then s.jobFault 10 none else s
    (warmUnits.foldl State.widen ({ s1 with warmDue := some defects }.applyRelay)).settleWarm

/-- MODULE_WARM_RESET: FLT_RESET.WARM. In WATCH and DORMANT nothing of its scope has power. -/
def execModuleWarmReset (who : Requester) (defects : List Defect) (s : State) : Host.Outcome State Fault Refusal :=
  .next (s.command who pgFLT fun t => if 2 ≤ t.power then t.warmReset defects else t)

end Sys2Proof.Machine
end

