-- ==== Sys2Proof/Machine/Power.lean ====
section
/-! DEFINITION. Power states, the wake pin, power-on and fundamental resets, fast clocks, the power limiter and
temperatures (R337 to R354, R416 to R420). -/

namespace Sys2Proof.Machine

/-! ### The state shown (R337, R338) -/

/-- STATE. -/
def State.setPower (s : State) (p : Nat) : State := s.setFld Reg.PWR_STATE 1 0 p

/-- READY or ACTIVE, as the fast clocks stand. -/
def State.showPower (s : State) : State :=
  if 2 ≤ s.power then s.setPower (if (List.range 9).any fun w => decide (1 ≤ w) && s.clockRuns w then 3 else 2) else s

/-- RESULT of PWR_CTRL. -/
def State.powerResult (s : State) (r : Nat) : State := s.setFld Reg.PWR_CTRL 30 29 r

/-- Changes the power controller. -/
def State.mapPwr (s : State) (f : Pwr → Pwr) : State := { s with pwr := f s.pwr }

/-- What stands when every die has lost power: flash, fuses, pins, host memory and the standby circuits. -/
def State.blackout (s : State) : State :=
  { pending := s.pending, out := s.out, hostMem := s.hostMem, freeCount := s.freeCount, memEpoch := s.memEpoch + 1
    softRegion := s.softRegion, perst := s.perst, pads := s.pads, fw := { s.fw with restart := none }
    links := s.links.map fun (e : Nat × Link) => (e.1, { present := e.2.present, tripped := e.2.tripped })
    pwr := { mainOk := s.pwr.mainOk, standbyOk := s.pwr.standbyOk, wake := s.pwr.wake, tripLatch := s.pwr.tripLatch
             tripped := s.pwr.tripped } }

/-- Entry to DORMANT. -/
def State.goDormant (s : State) : State := s.blackout.setPower 0

/-- The torus link dies have power: cables that are present are supplied (R406). -/
def State.powerLinks (s : State) : State :=
  { s with links := s.links.map fun (e : Nat × Link) => (e.1, { e.2 with cablePower := e.2.present && !e.2.tripped }) }

/-! ### Requests (R339, R341 to R343) -/

/-- The wards that lose power in WATCH. -/
def watchWards : List Nat := [1, 2, 3, 4, 5, 7, 8]

/-- What R339 refuses a request for WATCH for. -/
def State.watchBarred (s : State) : Bool :=
  s.wp.job || s.rings.any fun e => e.2.st == .active || e.2.st == .fencing || e.2.st == .draining

/-- Entry to WATCH begins: relay, PWR_GOOD low, the fences and drains of the wards. Their clocks run until they have drained. -/
def State.enterWatch (s : State) : State :=
  let s1 := (s.setRelay 7).mapPwr fun p => { p with good := false, change := .entering }
  watchWards.foldl State.wardReset (s1.powerResult 1)

/-- Power-up begins. -/
def State.leaveWatch (s : State) : State := (s.mapPwr fun p => { p with change := .leaving }).powerResult 1

/-- The standby domain boots the binnacle: WAKE_IN is high in DORMANT, the inputs are valid, and no thermal trip is latched. -/
def State.wakeDormant (s : State) : State :=
  if s.pwr.mainOk ∧ s.pwr.standbyOk ∧ !s.pwr.tripLatch ∧ s.pwr.change = .none then
    s.mapPwr fun p => { p with change := .booting }
  else s

/-- DORMANT by request; a WAKE_IN that is held high wakes the module again (R344). -/
def State.sleep (s : State) : State :=
  let s1 := s.goDormant
  if s1.pwr.wake then s1.wakeDormant else s1

/-- A request is taken or refused (R339). -/
def State.actPower (s : State) (t : Nat) : State :=
  let p := s.power
  if t = 0 then (if p = 1 then s.sleep else s.powerResult 3)
  else if t = 1 then
    if p = 1 then s.powerResult 2 else if s.watchBarred then s.powerResult 3 else s.enterWatch
  else if 2 ≤ p then s.powerResult 2
  else s.leaveWatch

/-- PWR_CTRL.REQ: a request during a transition waits. TARGET keeps what was written; 3 acts as READY (R354). -/
def State.requestPower (s : State) (t : Nat) : State :=
  let s1 := s.setFld Reg.PWR_CTRL 1 0 t
  if s1.pwr.change = .none then s1.actPower (min 2 t)
  else (s1.mapPwr fun p => { p with waiting := some (min 2 t) }).powerResult 1

/-- A transition has ended; a request that waited is acted on. -/
def State.endChange (s : State) : State :=
  let s1 := (s.mapPwr fun p => { p with change := .none, waiting := none }).powerResult 2
  match s.pwr.waiting with
  | none => s1
  | some t => s1.actPower t

/-- POWER_REQUEST_DORMANT. -/
def execPowerRequestDormant (who : Requester) (s : State) : Host.Outcome State Fault Refusal :=
  .next (s.command who pgPWR fun t => t.requestPower 0)

/-- POWER_REQUEST_WATCH. -/
def execPowerRequestWatch (who : Requester) (s : State) : Host.Outcome State Fault Refusal :=
  .next (s.command who pgPWR fun t => t.requestPower 1)

/-- POWER_REQUEST_READY. -/
def execPowerRequestReady (who : Requester) (s : State) : Host.Outcome State Fault Refusal :=
  .next (s.command who pgPWR fun t => t.requestPower 2)

/-! ### The wake pin (R344, R345, R419) -/

/-- A passed high level in WATCH. -/
def State.wakeWatch (s : State) : State :=
  let s1 := s.raise pgPWR 9
  if s.flag Reg.PWR_CTRL 8 then s1.requestPower 2 else s1

/-- A passed high level acts as the power state says. -/
def State.actWake (s : State) : State :=
  if s.power = 0 then s.wakeDormant
  else if s.power = 1 then s.wakeWatch
  else s

/-- WAKE_IN_HIGH: the filter passes a high level. -/
def execWakeInHigh (s : State) : Host.Outcome State Fault Refusal :=
  if s.pwr.standbyOk then .next ((s.mapPwr fun p => { p with wake := true }).actWake) else .next s

/-- WAKE_IN_LOW: the filter passes a low level, which releases the thermal-trip latch (R353). -/
def execWakeInLow (s : State) : Host.Outcome State Fault Refusal :=
  .next (s.mapPwr fun p => { p with wake := false, tripLatch := false })

/-- The fast clocks of the wards stop. -/
def State.stopWatchClocks (s : State) : State :=
  watchWards.foldl (fun (t : State) w => (t.setClock w {}).setFld (Reg.CLK_WARD_CTRL w) 29 29 0) s

/-- The main converters' power is gone from the wards: their clocks have stopped, their registers and memories are lost, HBM and
the slow tier stay in self-refresh; the registers that the binnacle saved at the fences stand with it (R233, R337, R360). -/
def State.unpowerWards (s : State) : State :=
  let s0 := (List.range 48).foldl (fun (t : State) k => if t.unfenced (updUnit k) then t else t.restoreUpd k) s
  let s1 := watchWards.foldl State.resetWard s0.stopWatchClocks
  let s2 := s1.dropRegs fun a => a = Reg.CPH_XSTATE ∨ a = Reg.HOST_VF_SPLIT 0 ∨ a = Reg.HOST_VF_SPLIT 1
  let s3 := { s2.keepMem inDram with
    chiplets := [], sigNet := [], accNet := [], accHeld := [], injects := [], vfSplit := [], wardFence := [], wardDue := [], warmDue := none
    units := s2.units.map fun (e : Nat × UnitSt) => (e.1, if e.2.phase = Phase.quarantined then e.2 else e.2.rearm) }
  allUnits.foldl State.noteUnit (s3.setPower 1)

/-- The drains of WATCH entry are over. -/
def State.watchDrained (s : State) : Bool :=
  allUnits.all fun u => !watchWards.contains (unitWard u) || (s.unit u).phase == .reset || (s.unit u).phase == .quarantined

/-- WATCH_ENTRY_COMPLETE; a WAKE_IN held high counts as a passed level then (R419). -/
def execWatchEntryComplete (s : State) : Host.Outcome State Fault Refusal :=
  if s.pwr.change = .entering ∧ s.watchDrained then
    let s1 := s.unpowerWards.endChange
    .next (if s1.pwr.wake then s1.actWake else s1)
  else .next s

/-- A unit of the TORUS ward, which kept its power in WATCH, is saved as a fence would save it. -/
def State.saveTorus (s : State) : State := s.setUnit .coll { s.unit .coll with saved := s.savedRegs .coll }

/-- A unit ends its probation within the sequence: what the binnacle saved of it is written back (R360). An update engine with
live journal entries stays in PROBATION. -/
def State.endSequence (s : State) (u : UnitId) : State :=
  match u with
  | .link _ => s
  | .hostDie _ => s.setUnit u { s.unit u with saved := [] }
  | .upd k =>
    let s1 := s.restoreUpd k
    if s1.journalLive k then s1.enterProbation u else (s1.restoreUnit u).setUnit u { s1.unit u with saved := [] }
  | _ => (s.restoreUnit u).setUnit u { s.unit u with saved := [] }

/-- The wards whose clocks MODE ON keeps running start them (R346). -/
def State.startOnClocks (s : State) : State :=
  (List.range 9).foldl (fun (t : State) w => if t.fld (Reg.CLK_WARD_CTRL w) 31 30 = 1 then t.startClock w else t) s

/-- READY_SEQUENCE_COMPLETE: a warm reset of every ward but BINNACLE; TOR_RELAY keeps its value. PWR_GOOD rises, and the PCIe
links train 100 µs later (R420). -/
def execReadySequenceComplete (defects : List Defect) (s : State) : Host.Outcome State Fault Refusal :=
  if s.pwr.change = .leaving then
    let s1 := allUnits.foldl State.endSequence ((s.saveTorus.setPower 2).restartModule defects)
    let s2 := s1.mapPwr fun p => { p with good := true, goodAt := s.now, untrained := [0, 1] }
    .next (((allUnits.foldl State.noteUnit s2).startOnClocks.showPower).endChange)
  else .next s

/-! ### Inputs (R340, R355, R416, R417) -/

/-- MAIN_INPUT_LOSS. -/
def execMainInputLoss (s : State) : Host.Outcome State Fault Refusal :=
  .next ((s.mapPwr fun p => { p with mainOk := false }).goDormant)

/-- MAIN_UNDERVOLTAGE: between 44 V and 46 V the module goes on running; in DORMANT it bars the wake sequence (R340, R344). -/
def execMainUndervoltage (mv : BitVec 16) (s : State) : Host.Outcome State Fault Refusal :=
  if 44000 ≤ mv.toNat ∧ mv.toNat < 46000 then
    let s1 := s.mapPwr fun p => { p with mainOk := false }
    .next (if s.power = 0 then s1 else (s1.tally Reg.PWR_MAIN_UV).raise pgPWR 8)
  else .next s

/-- MAIN_INPUT_APPLY: both inputs are valid; the WAKE_IN filter counts from here. -/
def execMainInputApply (s : State) : Host.Outcome State Fault Refusal :=
  .next (s.mapPwr fun p => { p with mainOk := true, standbyOk := true, wake := if s.power = 0 then false else p.wake })

/-- STANDBY_LOSS: acts as a loss of main input and releases the trip latch. -/
def execStandbyLoss (s : State) : Host.Outcome State Fault Refusal :=
  .next ((s.mapPwr fun p => { p with standbyOk := false, wake := false, tripLatch := false }).goDormant)

/-- BINNACLE_BOOT_COMPLETE: straps sampled, image started, link dies powered, WATCH. -/
def execBinnacleBootComplete (b : BootInfo) (s : State) : Host.Outcome State Fault Refusal :=
  if s.pwr.change = .booting then
    let s1 := { s with
      pads := { s.pads with smbAddr := b.smbAddr, clkMode := b.clkMode }
      fw := s.fw.setBoot { s.fw.boot0 with aOk := b.aOk, bOk := b.bOk } }
    let s2 := ((s1.bootImage.setPower 1).powerLinks.showRegion).setFld Reg.TH_STATE 1 1 (boolNat s.pwr.tripped)
    let s3 := s2.mapPwr fun p => { p with change := .none, tripped := false }
    .next (if s3.pwr.wake then s3.actWake else s3)
  else .next s

/-- POWER_ON_RESET: everything but flash, fuses and pins reads its reset value, the repair map is built with the defects
that self-test finds, and the module stands in WATCH, as PWR_STATE resets; a WAKE_IN held high counts as a passed level then
(R419). -/
def execPowerOnReset (defects : List Defect) (s : State) : Host.Outcome State Fault Refusal :=
  let s1 := s.blackout.mapPwr fun p => { p with mainOk := true, standbyOk := true, tripLatch := false, tripped := false }
  let s2 := ((s1.buildRepair defects).bootImage).powerLinks
  .next (if s2.pwr.wake then s2.actWake else s2)

/-! ### Fundamental resets (R356, R420) -/

/-- FUNDAMENTAL_RESET: PERSTn_N goes low, which fences the host die; the sequence ends in its reset (R355, R358). While PWR_GOOD is
low only the pin's level is seen. -/
def execFundamentalReset (d : Fin 2) (s : State) : Host.Outcome State Fault Refusal :=
  let s1 := { s with perst := if s.perst.contains d.val then s.perst else s.perst ++ [d.val] }
  if s.pwr.good then .next (s1.widen (.hostDie d)) else .next s1

/-- PERST_RELEASE: PERSTn_N goes high, and a host die whose link is to train does so, no sooner than 100 µs after PWR_GOOD rose. -/
def execPerstRelease (d : Fin 2) (s : State) : Host.Outcome State Fault Refusal :=
  .next (State.trainHosts { s with perst := s.perst.filter fun v => decide (v ≠ d.val) })

/-! ### Fast clocks (R346, R347) -/

/-- CLOCK_START. -/
def execClockStart (w : Fin 9) (s : State) : Host.Outcome State Fault Refusal := .next (s.startClock w)

/-- PLL_LOCK: the clock runs. -/
def execPllLock (w : Fin 9) (s : State) : Host.Outcome State Fault Refusal :=
  if (s.clock w).starting then
    .next ((((s.setClock w { s.clock w with starting := false, fails := 0, idleSince := s.now }).setFld (Reg.CLK_WARD_CTRL w) 29 29 1).tally Reg.CLK_STARTS).showPower)
  else .next s

/-- PLL_LOCK_FAIL: tried once more; a second failure fences the ward's units, with those that R48 fences with it. -/
def execPllLockFail (w : Fin 9) (s : State) : Host.Outcome State Fault Refusal :=
  let c := s.clock w
  if !c.starting then .next s
  else if c.fails = 0 then .next (s.setClock w { c with fails := 1 })
  else
    let s1 := ((s.setClock w { c with starting := false, fails := 0 }).tally Reg.CLK_LOCK_FAIL).raise pgCLK 8
    .next (s1.fenceWard w)

/-- IDLE_US of a ward in ns. -/
def State.idleTime (s : State) (w : Nat) : Nat := max 10 (min 1000000 (s.fld (Reg.CLK_WARD_CTRL w) 19 0)) * 1000

/-- Some unit of the ward is at work. -/
def State.wardBusy (s : State) (w : Nat) : Bool := (wardUnits w).any s.armed

/-- A job keeps the clocks of BASE0 to BASE3, MEMORY and EXCHANGE running. -/
def State.jobHolds (s : State) (w : Nat) : Bool := s.wp.job && decide (w ≤ 5 ∨ w = 7)

/-- A clock stops. -/
def State.stopClock (s : State) (w : Nat) : State :=
  ((s.setClock w {}).setFld (Reg.CLK_WARD_CTRL w) 29 29 0).showPower

/-- CLOCK_IDLE_STOP: in AUTO, a ward that has been idle for IDLE_US stops its clock. -/
def execClockIdleStop (w : Fin 9) (s : State) : Host.Outcome State Fault Refusal :=
  let auto : Bool := decide (s.fld (Reg.CLK_WARD_CTRL w) 31 30 ≠ 1)
  if s.clockRuns w ∧ auto ∧ !s.jobHolds w ∧ !s.wardBusy w ∧ (s.clock w).idleSince + s.idleTime w ≤ s.now then
    .next (s.stopClock w)
  else .next s

/-- A SERVE request is held for a chiplet of the ward, by its number or as one of the serving partition. -/
def State.serveWaits (s : State) (w : Nat) : Bool :=
  decide (1 ≤ w ∧ w ≤ 4) && (List.range 16).any fun i =>
    let c := 16 * (w - 1) + i
    s.isServing c && (!(s.heldServes c).isEmpty || !(s.heldServes 0xFF).isEmpty)

/-- An engine holds a pending map that it has yet to validate (R222). -/
def State.mapWaits (s : State) (k : Nat) : Bool := !s.mapReady k && !s.flag (Reg.UPD_BAD_ENTRY k) 31

/-- A request waits on some unit of the ward, or a unit is at work. -/
def State.wardWants (s : State) (w : Nat) : Bool :=
  s.wardBusy w || (decide (w = 5) && (List.range 48).any fun k => (s.upd k).todo || s.mapWaits k)
    || s.serveWaits w || ((wardUnits w).any fun u => decide (0 < s.outstanding u))

/-- In AUTO a ward whose clock is stopped starts it for a request that waits; in ON it starts it by itself (R346). -/
def State.wakeClocks (s : State) : State :=
  (List.range 9).foldl (fun (t : State) w =>
    if t.clockReady w ∧ (t.fld (Reg.CLK_WARD_CTRL w) 31 30 = 1 ∨ t.wardWants w) then t.startClock w else t) s

/-- Time passes: wards at work restart their idle time. -/
def State.noteIdle (s : State) : State :=
  (List.range 9).foldl (fun (t : State) w =>
    if t.clockRuns w ∧ t.wardBusy w then t.setClock w { t.clock w with idleSince := t.now } else t) s

/-- MAX_MHZ: 1,100 to 2,200, rounded down to a step. -/
def State.maxMhz (s : State) : Nat := max 1100 (min 2200 (s.fld Reg.CLK_FAST 31 16)) / 25 * 25

/-- The fast compute clock moves one step toward the lowest of its three targets (R349). -/
def State.stepMhz (s : State) : State :=
  let goal := min s.maxMhz (min s.pwr.limit s.pwr.thermal)
  let f := s.fld Reg.CLK_FAST 15 0
  if goal < f then s.setFld Reg.CLK_FAST 15 0 (f - 25)
  else if f < goal then s.setFld Reg.CLK_FAST 15 0 (f + 25)
  else s

/-! ### The power limiter (R350). Power is counted in units of 10 µW: mV times 10 mA. -/

/-- The target of the slow loop in W. -/
def State.powerTarget (s : State) : Nat := max 500 (min 2800 (s.fld Reg.PWR_CAP 11 0))

/-- PWR_WINDOW in ns. -/
def State.powerWindow (s : State) : Nat := max 10 (min 10000 (s.fld Reg.PWR_WINDOW 15 0)) * 1000000

/-- The mean of samples; 0 for none. -/
def meanOf (l : List Nat) : Nat := if l.isEmpty then 0 else (l.foldl (· + ·) 0) / l.length

/-- The mean over the window. -/
def State.meanPower (s : State) : Nat := meanOf (s.pwr.samples.map fun e => e.2)

/-- POWER_SAMPLE. -/
def execPowerSample (mv : BitVec 16) (ca : BitVec 16) (s : State) : Host.Outcome State Fault Refusal :=
  if s.power = 0 then .next s
  else
    let s1 := s.setReg Reg.PWR_INPUT (mv.toNat * 2 ^ 16 + ca.toNat)
    let kept := s1.pwr.samples.filter fun e => decide (s.now < e.1 + s1.powerWindow)
    let s2 := s1.mapPwr fun p => { p with samples := kept ++ [(s.now, mv.toNat * ca.toNat)]
                                          mainOk := decide (46000 ≤ mv.toNat) && decide (mv.toNat ≤ 56000) }
    let m := s2.meanPower
    .next ((s2.setFld Reg.PWR_AVG 11 0 (satTo 12 (m / 100000))).mapPwr fun p =>
      { p with close := p.close || decide (s2.powerTarget * 100000 < m + 5000000) })

/-- Time passes with issue held: every chiplet that runs counts the held cycles of the fast clock in ENG_HOLD_CYCLES. -/
def State.holdCycles (s : State) (ns : Nat) : State :=
  let n := s.pwr.heldPart + s.pwr.held * s.fld Reg.CLK_FAST 15 0 * ns
  let s1 := s.mapPwr fun p => { p with heldPart := n % 4000 }
  if n < 4000 then s1
  else (List.range 64).foldl (fun (t : State) c => if (t.chip c).busy then t.count (Reg.ENG_HOLD_CYCLES c) (n / 4000) else t) s1

/-- FAST_LOOP: holds of one to three issue cycles in four, the first at once and each further one 100 µs later. -/
def execFastLoop (s : State) : Host.Outcome State Fault Refusal :=
  let l := (s.pwr.samples.filter fun e => decide (s.now < e.1 + 100000)).map fun e => e.2
  let m := meanOf l
  if s.power < 2 then .next s
  else if 300000000 < m then
    if s.pwr.held = 0 ∨ s.pwr.heldAt + 100000 ≤ s.now then
      .next ((s.tallyIf (decide (s.pwr.held = 0)) Reg.PWR_FAST_EVENTS).mapPwr fun p =>
        { p with held := min 3 (p.held + 1), heldAt := s.now })
    else .next s
  else if m < 295000000 then .next (s.mapPwr fun p => { p with held := 0 })
  else .next s

/-- SLOW_LOOP: its clock target holds while the binnacle restarts (R374). -/
def execSlowLoop (s : State) : Host.Outcome State Fault Refusal :=
  if s.power < 2 ∨ s.fw.restart.isSome ∨ s.pwr.samples.isEmpty then .next s
  else
    let s1 := s.mapPwr fun p => { p with close := false }
    if s.powerTarget * 100000 < s.meanPower then
      .next ((((s1.mapPwr fun p => { p with limit := max 1100 (p.limit - 25) })).tallyIf (decide (1100 < s.pwr.limit))
        Reg.PWR_SLOW_STEPS).stepMhz)
    else if !s.pwr.close then
      .next ((s1.mapPwr fun p => { p with limit := if p.limit < s.maxMhz then p.limit + 25 else p.limit }).stepMhz)
    else .next s1.stepMhz

/-! ### Temperature (R351 to R353) -/

/-- A sensor's temperature in 1/16 °C. -/
def State.tempOf (s : State) (i : Nat) : Int := signed 16 (Map.get (fun _ => (0, 0)) s.temps i).1

/-- Samples in a row at 120 °C or more with the factory offset. -/
def State.hotSamples (s : State) (i : Nat) : Nat := (Map.get (fun _ => (0, 0)) s.temps i).2

/-- The hottest sensor, the lowest-numbered of equals. -/
def State.hottest (s : State) : Nat :=
  (List.range 128).foldl (fun (b : Nat) i => if s.tempOf b < s.tempOf i then i else b) 0

/-- THERMAL_SAMPLE. -/
def execThermalSample (sensor : Fin 128) (raw : BitVec 16) (s : State) : Host.Outcome State Fault Refusal :=
  if s.power = 0 then .next s
  else
    let s1 := if s.calWaits 0 sensor then s.takeOffset 0 sensor else s
    let r := signed 16 raw.toNat
    let t : Int := max (-32768) (min 32767 (r + signed 16 (s1.fld (Reg.CALU_TRIM 0 sensor) 31 16)))
    let hot : Bool := decide (1920 ≤ r + signed 16 (s1.fld (Reg.CALF_TRIM 0 sensor) 31 16))
    let s2 := { s1 with temps := Map.put (fun _ => (0, 0)) s1.temps sensor (unsigned 16 t, if hot then s1.hotSamples sensor + 1 else 0) }
    let h := s2.hottest
    .next (s2.setReg Reg.TH_MAX (h * 2 ^ 16 + unsigned 16 (s2.tempOf h)))

/-- DEGC and HYST of TH_LIMIT. -/
def State.thermalLimit (s : State) : Nat × Nat :=
  (max 85 (min 105 (s.fld Reg.TH_LIMIT 7 0)), max 1 (min 10 (s.fld Reg.TH_LIMIT 15 8)))

/-- THERMAL_STEP: the thermal target holds while the binnacle restarts (R374). -/
def execThermalStep (s : State) : Host.Outcome State Fault Refusal :=
  if s.power = 0 ∨ s.fw.restart.isSome then .next s
  else
    let (c, h) := s.thermalLimit
    let hot := (List.range 128).any fun i => decide ((16 * c : Int) ≤ s.tempOf i)
    let cool := (List.range 128).all fun i => decide (s.tempOf i ≤ (16 * (c - h) : Nat))
    let s1 :=
      if hot then (s.mapPwr fun p => { p with thermal := max 1100 (p.thermal - 25) }).tallyIf (decide (1100 < s.pwr.thermal)) Reg.TH_STEPS
      else if cool then s.mapPwr fun p => { p with thermal := min 2200 (p.thermal + 25) }
      else s
    let throttles : Bool := decide (s1.pwr.thermal < 2200)
    .next (((s1.setFld Reg.TH_STATE 0 0 (boolNat throttles)).tallyIf throttles Reg.TH_MS).stepMhz)

/-- THERMAL_TRIP: two samples in a row at 120 °C power the module down. -/
def execThermalTrip (sensor : Fin 128) (s : State) : Host.Outcome State Fault Refusal :=
  if 2 ≤ s.hotSamples sensor then
    .next ((s.mapPwr fun p => { p with tripLatch := true, tripped := true }).goDormant)
  else .next s

end Sys2Proof.Machine
end

