-- ==== Sys2Proof/Machine/Care.lean ====
section
/-! DEFINITION. Watchdogs, the host's halt and the binnacle's firmware (R365, R368, R372 to R375). -/

namespace Sys2Proof.Machine

/-! ### Watchdogs (R368) -/

/-- WDOG_WINDOW of a unit in ns; 0 disarms. -/
def State.wdogWindow (s : State) (u : UnitId) : Nat :=
  min 60000 (s.fld (unitPage u + Hdr.WDOG_WINDOW) 15 0) * 1000000

/-- The unit's watchdog is armed. -/
def State.watched (s : State) (u : UnitId) : Bool :=
  s.armed u && decide (s.wdogWindow u ≠ 0) && s.unfenced u && s.wardPowered (unitWard u)

/-- The PROGRESS of a unit. -/
def State.progressOf (s : State) (u : UnitId) : Word := BitVec.ofNat 32 (s.reg (unitPage u + Hdr.PROGRESS))

/-- The binnacle samples one unit. -/
def State.sampleUnit (s : State) (u : UnitId) : State :=
  let x := s.unit u
  if !s.watched u then (if x.wdSince = none then s else s.setUnit u { x with wdSince := none })
  else if x.wdSince = none ∨ x.wdValue ≠ s.progressOf u then
    s.setUnit u { x with wdSince := some s.now, wdValue := s.progressOf u }
  else s

/-- WATCHDOG_SAMPLE: every armed counter is sampled; sampling pauses while the binnacle restarts (R374). -/
def execWatchdogSample (s : State) : Host.Outcome State Fault Refusal :=
  if s.power = 0 ∨ s.fw.restart.isSome then .next s else .next (allUnits.foldl State.sampleUnit s)

/-- WATCHDOG_EXPIRY: no change of PROGRESS for a full window; of a unit that is not ACTIVE it is ignored (R363). -/
def execWatchdogExpiry (u : UnitId) (s : State) : Host.Outcome State Fault Refusal :=
  match (s.unit u).wdSince with
  | none => .next s
  | some t =>
    if s.watched u ∧ s.unitCode u = 2 ∧ s.fw.restart = none ∧ (s.unit u).wdValue = s.progressOf u
        ∧ t + s.wdogWindow u ≤ s.now then
      .next (((s.raise pgFLT 8).tally Reg.FLT_WDOG_EXPIRED).fenceUnit u .watchdog (some 1))
    else .next s

/-! ### HALT (R365) -/

/-- HALT: FLT_JOB.HALT, CAUSE 11. -/
def execHalt (who : Requester) (s : State) : Host.Outcome State Fault Refusal :=
  .next (s.command who pgFLT fun t => t.jobFault 11 none)

/-! ### Firmware (R372 to R375) -/

/-- An image passes its checks: it has the length of its header, its CRC-32C, and a signature that verifies under a public key whose hash
the fuses hold (R372, R373). -/
def imagePasses (b : Bool) (m : List Host.Cell) : Bool :=
  let body := Config.imageBody b m
  decide (body.length = Config.imageLength b m) && decide (crc32c body = Config.imageCrc b m)
    && decide (Config.keyHash (Config.imageKey b m) = Config.fuseKeyHash)
    && Config.ecdsaP384 (Config.imageKey b m) body (Config.imageSignature b m)

/-- Bytes are written to an image. The last piece of a transfer has it checked; until then it has not passed. Both copies of the boot
descriptor say so. -/
def Firmware.write (f : Firmware) (b : Bool) (off : Nat) (data : List Byte) (last : Bool) : Firmware :=
  if b then
    let m := Mem.write f.imageB off data
    { f with imageB := m }.setBoot { f.boot0 with bOk := last && imagePasses true m }
  else
    let m := Mem.write f.imageA off data
    { f with imageA := m }.setBoot { f.boot0 with aOk := last && imagePasses false m }

/-- FIRMWARE_UPDATE_WRITE: PLDM writes only the inactive image; a request that would write the active one is refused, and one that meets
the binnacle's restart is answered as not ready (R374). -/
def execFirmwareUpdateWrite (imageB : Bool) (off : Nat) (data : List Byte) (last : Bool) (s : State) :
    Host.Outcome State Fault Refusal :=
  .next (s.sideRequest [1] fun t =>
    if imageB = t.fw.boot0.active ∨ 24 * 2 ^ 20 < off + data.length then t else { t with fw := t.fw.write imageB off data last })

/-- A fence sequence or a dump is in progress. -/
def State.fencesRun (s : State) : Bool :=
  allUnits.any fun u => !s.unfenced u && (s.unit u).phase != .quarantined

/-- RESULT of FW_CTRL. -/
def State.fwResult (s : State) (r : Nat) : State := s.setFld Reg.FW_CTRL 30 28 r

/-- ACTIVATE: INVALID, BUSY, or the binnacle's processor restarts on the inactive image, which the boot ROM verifies first. -/
def State.activate (s : State) : State :=
  if s.fw.restart.isSome then s
  else if !s.fw.boot0.ok (!s.fw.boot0.active) then s.fwResult 4
  else if s.fencesRun then s.fwResult 5
  else ({ s with fw := { s.fw with restart := some s.now } }).fwResult 1

/-- Time passes: the boot ROM has verified the image, and RESULT reads restarting. -/
def State.noteRestart (s : State) : State :=
  if s.fw.restart.isSome ∧ s.fld Reg.FW_CTRL 30 28 = 1 then s.fwResult 2 else s

/-- FIRMWARE_ACTIVATE. -/
def execFirmwareActivate (who : Requester) (s : State) : Host.Outcome State Fault Refusal :=
  .next (s.command who pgFW State.activate)

/-- FIRMWARE_RUNNING: within 1 s the new image runs, and the boot descriptor names it. -/
def execFirmwareRunning (s : State) : Host.Outcome State Fault Refusal :=
  match s.fw.restart with
  | none => .next s
  | some t =>
    if s.now < t + 1000000000 then
      let d := s.fw.boot0
      let f := { s.fw with restart := none, running := !d.active, fallback := false }.setBoot { d with active := !d.active }
      .next (({ s with fw := f }.fwResult 3).tally Reg.FW_ACTIVATIONS)
    else .next s

/-- BOOT_FALLBACK: the new image does not run within 1 s, and the previous one starts. What RESULT reads then is not
stated. -/
def execBootFallback (s : State) : Host.Outcome State Fault Refusal :=
  match s.fw.restart with
  | none => .next s
  | some t =>
    if t + 1000000000 ≤ s.now then
      let s1 := ({ s with fw := { s.fw with restart := none } }.fwResult (s.freeValue.toNat % 8)).nextFree
      .next ((s1.tally Reg.FW_BOOT_FAIL).raise pgFW 8)
    else .next s

end Sys2Proof.Machine
end

