-- ==== Sys2Proof/Machine/Views.lean ====
section
/-! DEFINITION. What a register reads as: the view of PF0, the reduced view of other functions, and the reads that
have an effect (R47, R55, R56, R209, R378 to R385, R387, R428, R429). -/

namespace Sys2Proof.Machine

/-! ### Fields -/

/-- The bits of a field. -/
def Field.mask (f : Field) : Nat := (2 ^ (f.hi + 1 - f.lo) - 1) <<< f.lo

/-- A number with the bits of a mask taken from another. -/
def mixBits (x v m : Nat) : Nat := x - Nat.land x m + Nat.land v m

/-- The bits of a register that a live mirror holds itself. -/
def RegDesc.liveMask (d : RegDesc) : Nat :=
  d.fields.foldl (fun m f => if f.acc = .live then Nat.lor m f.mask else m) 0

/-- The SAT field of a register. -/
def RegDesc.satField (d : RegDesc) : Option Field := d.fields.find? fun f => f.acc = .sat

/-- SAT counters of a page. -/
def satCount (ds : List RegDesc) : Nat := satIndex ds 0x1000

/-- SAT counter i of a page, in ascending offset order (R387). -/
def satAt (ds : List RegDesc) (i : Nat) : Option RegDesc :=
  ds.find? fun d => d.satField.isSome && decide (satIndex ds d.off = i)

/-! ### Banked registers -/

/-- The number that a selector register gives a register it addresses. -/
def State.bankSel (s : State) (k : PageKind) (i o : Nat) : Option Nat :=
  match k with
  | .acc => if o = 0x108 ∨ o = 0x110 then some (s.fld (Reg.ACC_SEL i) 4 0) else none
  | .arb =>
    if o = 0x10C ∨ o = 0x110 ∨ o = 0x118 ∨ o = 0x120 then
      some (s.fld (Reg.ARB_SEL i) 15 8 * 64 + s.fld (Reg.ARB_SEL i) 5 0)
    else none
  | .xch =>
    if o = 0x168 ∨ o = 0x170 then some (s.fld Reg.XCH_REGION_SEL 2 0)
    else if 0x18C ≤ o ∧ o < 0x1C0 then some (s.fld Reg.XCH_PTR_SEL 7 0)
    else none
  | _ => none

/-- The key of a register as its selector stands. -/
def State.regKey (s : State) (a : Nat) : Nat :=
  match pageOf a with
  | none => a
  | some (k, i) =>
    match s.bankSel k i (a % 0x1000) with
    | none => a
    | some b => banked a b

/-- The stored value of a register as its selector stands. -/
def State.rawReg (s : State) (a : Nat) : Nat := s.reg (s.regKey a)

/-- The flags of the page's counters: those of selected instances with the others (R387). -/
def State.overflowFlags (s : State) (page : Nat) : Nat :=
  match pageOf page with
  | some (.arb, i) =>
    match s.bankSel .arb i 0x110 with
    | some b => Nat.lor (s.reg (page + Hdr.CNT_OVF)) (s.reg (banked (page + Hdr.CNT_OVF) b))
    | none => s.reg (page + Hdr.CNT_OVF)
  | _ => s.reg (page + Hdr.CNT_OVF)

/-! ### The common header (R381 to R383) -/

/-- Registers whose pending value waits, on a page. -/
def State.pagePending (s : State) (page : Nat) : Bool :=
  (s.wpRegs.any fun r => decide (r.page = page) && s.wpPending r) || (decide (page = pgCALU 1) && !s.railsWait.isEmpty)

/-- FENCE_STATUS of a unit. -/
def State.fenceStatus (s : State) (u : UnitId) : Nat :=
  let x := s.unit u
  boolNat (decide (x.phase ≠ .normal) && decide (x.phase ≠ .quarantined)) * 2 ^ 31 + boolNat x.timedOut * 2 ^ 30
    + boolNat x.dumpTaken * 2 ^ 29 + boolNat x.dumpSkipped * 2 ^ 28
    + (if x.phase = .draining then satTo 24 (s.outstanding u) else 0)

/-- STATUS of a page, with the state before a change that no tick has noted yet; a page of no unit reads READY. -/
def State.pageStatus (s : State) (page : Nat) : Nat :=
  match unitOfPage page with
  | some u =>
    let x := s.unit u
    (if s.unitCode u = x.code then x.prev else x.code) * 16 + s.unitCode u
  | none => 1

/-- The STATE event of a page whose unit has changed since the last tick (R391). -/
def State.stateEvent (s : State) (page : Nat) : Nat :=
  match unitOfPage page with
  | some u => if s.unitCode u = (s.unit u).code then 0 else 2
  | none => 0

/-- A word that only the first page of a unit holds; other pages read what `other` says, pages of no unit 0. -/
def State.firstPage (s : State) (page o : Nat) (mirrored : Bool) : Nat :=
  match unitOfPage page with
  | some u => if unitPage u = page ∨ mirrored then s.reg (unitPage u + o) else 0
  | none => 0

/-- A header register. -/
def State.viewHeader (s : State) (page o : Nat) : Nat :=
  if o = Hdr.PAGE_ID then pageId page
  else if o = Hdr.STATUS then s.pageStatus page
  else if o = Hdr.EVT_STATUS then Nat.lor (s.reg (page + o)) (s.stateEvent page)
  else if o = Hdr.TIME then s.now
  else if o = Hdr.WP_STATE then
    boolNat (s.pagePending page) * 2 ^ 31 + s.fld (page + o) 30 30 * 2 ^ 30 + s.fld (page + o) 15 0
  else if o = Hdr.FENCE_CTRL then s.firstPage page o false
  else if o = Hdr.FENCE_STATUS then
    match unitOfPage page with
    | some u => if unitPage u = page then s.fenceStatus u else 0
    | none => 0
  else if o = Hdr.PROGRESS ∨ o = Hdr.WDOG_WINDOW then s.firstPage page o true
  else if o = Hdr.SNAP_CTRL then
    let n := match pageOf page with
      | some (k, _) => satCount k.regs
      | none => 0
    s.fld (page + o) 25 24 * 2 ^ 24 + n % 256 * 2 ^ 16 + s.fld (page + o) 15 0
  else if o = Hdr.CNT_OVF then s.overflowFlags page
  else s.reg (page + o)

/-! ### Block registers whose value lies elsewhere in the state -/

/-- The word of the held dump at FLT_DUMP_ADDR. -/
def State.dumpWord (s : State) : Nat :=
  match s.dump with
  | none => 0
  | some d => fieldAt d.bytes (s.fld Reg.FLT_DUMP_ADDR 22 0 / 4 * 4) 4

/-- The unit that FLT_UNIT_SEL names. -/
def State.selUnit (s : State) : Option UnitId :=
  allUnits.find? fun u => decide (unitIdent u = s.fld Reg.FLT_UNIT_SEL 15 0)

/-- Registers of the fault page. -/
def State.viewFlt (s : State) (a : Nat) : Nat :=
  if a = Reg.FLT_UNIT_HIST then
    match s.selUnit with
    | some u => min 15 (s.recentResets u).length * 2 ^ 28
    | none => 0
  else if a = Reg.FLT_UNIT_LAST then
    match s.selUnit with
    | some u => (s.unit u).lastReset
    | none => 0
  else if a = Reg.FLT_DUMP_DATA then s.dumpWord
  else s.reg a

/-- Registers of the power, thermal, firmware and slow-tier pages. -/
def State.viewCare (s : State) (a : Nat) : Nat :=
  if a = Reg.PWR_STATE then boolNat s.pwr.wake * 8 + boolNat s.pwr.mainOk * 4 + s.power
  else if a = Reg.TH_TEMP then unsigned 16 (s.tempOf (s.fld Reg.TH_SEL 6 0))
  else if a = Reg.FW_STATE then
    boolNat s.fw.running + 2 * boolNat s.fw.fallback + 4 * boolNat s.fw.boot0.aOk + 8 * boolNat s.fw.boot0.bOk
  else if a = Reg.FW_VERSION_A then (Config.imageVersion false s.fw.imageA).toNat
  else if a = Reg.FW_VERSION_B then (Config.imageVersion true s.fw.imageB).toNat
  else if a = pgSLT + Hdr.SIZE0 then (if Config.orderIs1T then 1000000 else 2000000)
  else s.reg a

/-- Registers of a chiplet's pages. -/
def State.viewChip (s : State) (c a : Nat) : Nat :=
  let x := s.chip c
  if a = Reg.ENG_DWQ c then x.dwq.length
  else if a = Reg.SEQ_STATE c then
    boolNat x.bank * 2 ^ 31 + boolNat (s.flag Reg.RT_SWAP_REQ c) * 2 ^ 30 + boolNat x.tainted * 2 ^ 29
      + boolNat x.inSection * 2 ^ 28 + x.lastPc % 8192
  else if a = Reg.SEQ_SCHED c then x.dfr.clock % 2 ^ 32 * 2 ^ 32 + x.main.clock % 2 ^ 32
  else s.reg a

/-- PASS of UPD_ENG_STATE. -/
def passCode : Option UpdPass → Nat
  | none => 0
  | some .step => 1
  | some (.outer ..) => 2
  | some (.null ..) => 3
  | some (.derive_ ..) => 4
  | some (.sweep ..) => 5

/-- Registers of an update engine's page. -/
def State.viewUpd (s : State) (k a : Nat) : Nat :=
  let u := s.upd k
  if a = Reg.UPD_ENG_STATE k then
    if u.running then (u.pos + u.block) % 2 ^ 32 * 2 ^ 32 + u.entry % 2 ^ 16 * 2 ^ 16
      + (if u.sweeping then 5 else passCode (s.curPass k)) * 16 + boolNat u.recovering
    else boolNat u.recovering
  else s.reg a

/-- CPH_GRACE_LEFT: ms of grace left for the PREVIOUS epoch, a part of one counting. -/
def State.graceLeft (s : State) : Nat :=
  match s.prevSince with
  | none => 0
  | some t => (t + s.graceTime - s.now + 999999) / 1000000

/-- CODEC_STATE of engine k: what it has before it. A pass, a span and a clearing begin at the segment's first section, a received
chunk names its own; a descriptor names none (DEDUCED: assumption 18). The work of a command is done with the command, so that
CODEC_QUEUE, which a descriptor at work fills, is empty between commands. -/
def State.viewCodec (s : State) (k a : Nat) : Nat :=
  let first := bitsOf (s.reg (Reg.CODEC_SEG k)) 11 0
  let w := s.codecWork k
  let at_ : Nat × Nat :=
    if w = 4 then (s.chunkWaiting k).getD (0, 0)
    else if w = 0 ∨ w = 6 then (0, 0)
    else (first, (s.sect first).start / 4096)
  if a ≠ Reg.CODEC_STATE k then s.reg a else at_.2 % 2 ^ 32 * 2 ^ 32 + at_.1 % 2 ^ 16 * 2 ^ 16 + w

/-- A reserved trim: rail 15 of category 1, and j = 3 of category 3 (R394). It reads 0 and takes no offset (R10). -/
def reservedTrim (cat i : Nat) : Bool := (decide (cat = 1) && decide (i = 15)) || (decide (cat = 3) && decide (i % 4 = 3))

/-- What a register of a page reads as. -/
def State.viewBlock (s : State) (k : PageKind) (i a : Nat) : Nat :=
  match k with
  | .pwr => s.viewCare a
  | .th => s.viewCare a
  | .fw => s.viewCare a
  | .slt => s.viewCare a
  | .flt => s.viewFlt a
  | .sc =>
    if a = Reg.SC_SLOT_CMD then s.fld a 29 28 * 2 ^ 28 + s.staged.length
    else if a = Reg.SC_LS_SET then boolNat s.lsStaged.isSome * 256 + s.fld a 7 0
    else s.reg a
  | .acc =>
    if a = Reg.ACC_CMD i then
      boolNat (decide (Map.get (fun _ => 0) s.ranges (i * 32 + s.fld (Reg.ACC_SEL i) 4 0) ≠ 0)) * 2 ^ 31 + s.heldOn i
    else s.rawReg a
  | .sig =>
    if a = Reg.SIG_VALUE i then (s.sig (i * 4096 + s.fld (Reg.SIG_SEL i) 11 0)).toNat
    else if a = Reg.SIG_EVT_POP i then (s.oldestEvent i).toNat
    else if a = Reg.SIG_EVT_COUNT i then (s.evtFifo i).length
    else s.reg a
  | .eng => s.viewChip i a
  | .seq => s.viewChip i a
  | .updc => if a = Reg.UPD_VAR_CMD then s.fld a 29 28 * 2 ^ 28 + s.varStaged.length else s.reg a
  | .upd => s.viewUpd i a
  | .codec => s.viewCodec i a
  | .cph =>
    if Reg.CPH_KEY_WRAP 0 ≤ a ∧ a < Reg.CPH_KEY_WRAP 5 then 0
    else if a = Reg.CPH_GRACE_LEFT then s.graceLeft
    else s.reg a
  | .cphd => if a = Reg.CPH_QUEUE i then (s.cipher i).jobs.length else s.reg a
  | .rg =>
    let n := 64 * i + (a % 0x1000 - 0x800) / 32
    if 0x800 ≤ a % 0x1000 ∧ a = Reg.RING_CTRL n then putBits (s.reg a) 27 24 (s.ring n).st.code else s.reg a
  | .calf => if reservedTrim i ((a % 0x1000 - 0x200) / 4) ∧ 0x200 ≤ a % 0x1000 then 0 else s.reg a
  | .calu => if reservedTrim i ((a % 0x1000 - 0x200) / 4) ∧ 0x200 ≤ a % 0x1000 then 0 else s.reg a
  | _ => s.rawReg a

/-- The register that a live mirror shows beside its live fields (R385). -/
def State.viewReg (s : State) (k : PageKind) (i : Nat) (d : RegDesc) (a : Nat) : Nat :=
  match d.mirrors with
  | none => s.viewBlock k i a
  | some o =>
    if d.liveMask = 0 then s.reg a
    else mixBits (s.viewBlock k i (pageBase a + o)) (s.reg a) d.liveMask

/-- A register by its own address, with PF0's view. -/
def State.view (s : State) (a : Nat) : Nat :=
  match pageOf a with
  | none => 0
  | some (k, i) =>
    match findDesc k.regs (a % 0x1000) with
    | some (d, _) => s.viewReg k i d a
    | none => s.viewHeader (pageBase a) (a % 0x1000)

/-- The address of the register that a word lies in, and its bytes. -/
def regBase (a : Nat) : Option (Nat × Nat) :=
  match descAt a with
  | none => none
  | some (d, n) => some (pageBase a + d.off + n * d.stride, d.bytes)

/-- A 32-bit word of the register space, as PF0 reads it; reserved and unpopulated words read 0. -/
def State.viewWord (s : State) (a : Nat) : Nat :=
  match regBase a with
  | none => 0
  | some (b, _) => s.view b / 2 ^ (8 * (a - b)) % 2 ^ 32

/-! ### Who sees what (R55, R56, R209, R429) -/

/-- The register-space offset that an offset of the requester's BAR0 reaches: a VF's 64 KiB map the pages of its own
groups by slot. -/
def State.busAddr (s : State) (who : Requester) (a : Nat) : Option Nat :=
  match who with
  | .func f =>
    if f.idx.val < 3 then some a
    else if 0x10000 ≤ a then none
    else (s.slotGroup f (a / 0x1000)).map fun g => pgRG g + a % 0x1000
  | _ => some a

/-- The requester may write the page: PF0's rights, or a ring group of its own. -/
def State.mayWrite (s : State) (who : Requester) (page : Nat) : Bool :=
  match who with
  | .func f =>
    decide (f.idx = 0) || match pageOf page with
      | some (.rg, g) => s.ownsRing f (64 * g)
      | _ => false
  | _ => true

/-- Header words that PF1 and PF2 see on every page. -/
def openWord (o : Nat) : Bool :=
  decide (o < 0x20) || decide (o / 4 * 4 = Hdr.STATUS) || decide (o / 8 * 8 = Hdr.TIME) || decide (o / 4 * 4 = Hdr.PROGRESS)

/-- A 32-bit word as the requester reads it. -/
def State.seenWord (s : State) (who : Requester) (a : Nat) : Nat :=
  if !s.wardPowered (a / 0x1000000) then 0
  else if s.mayWrite who (pageBase a) then s.viewWord a
  else match who with
    | .func f => if f.idx.val < 3 ∧ openWord (a % 0x1000) then s.viewWord a else 0
    | _ => 0

/-- n bytes at an offset as the requester reads them. -/
def State.seenBytes (s : State) (who : Requester) (a n : Nat) : List Byte :=
  let w := a / 4 * 4
  let words := (a + n - w + 3) / 4
  slice ((List.range words).flatMap fun i => leBytes 4 (s.seenWord who (w + 4 * i))) (a - w) n

/-- What a read does beside returning bytes: a 64-bit read pops SIG_EVT_POP (R213), a read of FLT_DUMP_DATA advances
its offset (R376). -/
def State.readEffect (s : State) (who : Requester) (a n : Nat) : State :=
  if !s.mayWrite who (pageBase a) ∨ !s.wardPowered (a / 0x1000000) then s
  else match pageOf a with
    | some (.sig, d) => if a = Reg.SIG_EVT_POP d ∧ n = 8 then s.popEvent d else s
    | some (.flt, _) =>
      if a < Reg.FLT_DUMP_DATA + 4 ∧ Reg.FLT_DUMP_DATA < a + n then
        s.setReg Reg.FLT_DUMP_ADDR ((s.fld Reg.FLT_DUMP_ADDR 22 0 / 4 * 4 + 4) % 2 ^ 23)
      else s
    | _ => s

/-- A read of n bytes at a register-space offset: its effect and its bytes. A misaligned one is dropped (R379). -/
def State.readSpace (s : State) (who : Requester) (a n : Nat) : State × List Byte :=
  if n ≠ 0 ∧ a % n ≠ 0 then (s.dropped who, List.replicate n 0)
  else (s.readEffect who a n, s.seenBytes who a n)

end Sys2Proof.Machine
end

