-- ==== Sys2Proof/Machine/Pages.lean ====
section
/-! DEFINITION. Register writes: access codes, guards, command bits, counters, snapshots, events and pending values
(R10, R47, R183, R209, R379, R381, R383 to R391, R393, R429). -/

namespace Sys2Proof.Machine

/-- A write as it reaches one register: who writes, value and mask at the register's own bit positions, and whether one
access covers the whole register. -/
structure PageWrite where
  who : Requester
  v : Nat
  m : Nat
  whole : Bool
deriving DecidableEq, Repr

/-- Bit n is written as 1. -/
def PageWrite.set (w : PageWrite) (n : Nat) : Bool := bitOf w.m n && bitOf w.v n

/-- What the register would hold with every written bit taken. -/
def State.merged (s : State) (a : Nat) (w : PageWrite) : Nat := mixBits (s.reg a) w.v w.m

/-- The write with some bits left out of it. -/
def PageWrite.without (w : PageWrite) (m : Nat) : PageWrite := { w with m := w.m - Nat.land w.m m }

/-! ### Counters (R387 to R390) -/

/-- Clears a counter and its flag. -/
def State.clearCounter (s : State) (a : Nat) : State :=
  let key := s.regKey a
  let okey := if key = a then pageBase a + Hdr.CNT_OVF else banked (pageBase a + Hdr.CNT_OVF) (key / 2 ^ 32 - 1)
  (s.setReg key 0).setFld okey (satSlot a) (satSlot a) 0

/-- A write to a counter: cleared when every bit of the counter field is written as 1 at once. -/
def State.writeCounter (s : State) (a : Nat) (f : Field) (w : PageWrite) : State :=
  if Nat.land (Nat.land w.v w.m) f.mask = f.mask then s.clearCounter a else s

/-- SNAP_CTRL.TAKE: the counters of the group, the flags and the time in one cycle, then CLEAR. -/
def State.takeSnap (s : State) (page bank : Nat) (clear : Bool) : State :=
  match pageOf page with
  | none => s
  | some (k, _) =>
    let one (i : Nat) : Option Nat := (satAt k.regs (16 * bank + i)).map fun d => page + d.off
    let s1 := (List.range 16).foldl (fun (t : State) i =>
      t.setReg (page + Hdr.SNAPn i) (match one i with
        | some a => s.rawReg a
        | none => 0)) s
    let s2 := ((s1.setReg (page + Hdr.SNAP_OVF) (s.overflowFlags page)).setReg (page + Hdr.SNAP_TIME) s.now).setFld
      (page + Hdr.SNAP_CTRL) 15 0 (s.fld (page + Hdr.SNAP_CTRL) 15 0 + 1)
    let s3 := s2.setFld (page + Hdr.SNAP_CTRL) 25 24 bank
    if clear then (List.range 16).foldl (fun (t : State) i =>
      match one i with
      | some a => t.clearCounter a
      | none => t) s3
    else s3

/-! ### Events (R391) -/

/-- The event bits that a page type can set. -/
def PageKind.events : PageKind → Nat
  | .wpc => 0x31F
  | .sc => 0x11F
  | .rt => 0x71F
  | .sig => 0x11F
  | .rc => 0x11F
  | .upd => 0x11F
  | .pod => 0x11F
  | .cphd => 0x11F
  | .pwr => 0x31F
  | .clk => 0x11F
  | .flt => 0x31F
  | .fw => 0x11F
  | _ => 0x1F

/-- After a write of EVT_STATUS or EVT_ENABLE an enabled event signals again. -/
def State.resignal (s : State) (page : Nat) : State := if s.evtActive page = 0 then s else s.signalPage page

/-- Events that stay raised: counter exhausted on a cipher die until the next switch (R323). -/
def State.standing (s : State) (page : Nat) : Nat :=
  if [0, 1].any fun p => decide (page = pgCPHD p) && decide (s.reg (Reg.CPH_FRAME p) % 2 ^ 63 = 2 ^ 63 - 1) then 2 ^ 8 else 0

/-- W1C of EVT_STATUS; an event that stays raised sets its bit again. -/
def State.clearEvents (s : State) (page v : Nat) : State :=
  (s.setReg (page + Hdr.EVT_STATUS) (Nat.lor (mixBits (s.reg (page + Hdr.EVT_STATUS)) 0 v) (s.standing page))).resignal page

/-- A write of EVT_ENABLE. -/
def State.enableEvents (s : State) (page v : Nat) : State := (s.setReg (page + Hdr.EVT_ENABLE) v).resignal page

/-- EVT_FORCE sets bits as the events would; reserved bits never set. -/
def State.forceEvents (s : State) (page v : Nat) : State :=
  match pageOf page with
  | none => s
  | some (k, _) => s.raiseBits page (Nat.land v k.events)

/-! ### Pending values (R385, R386) -/

/-- DISCARD: the pending values of the page become the live ones. -/
def State.discardPage (s : State) (page : Nat) : State :=
  let s1 := (s.wpRegs.filter fun r => decide (r.page = page)).foldl
    (fun (t : State) r => t.setReg r.reg (mixBits (t.reg r.reg) (t.reg r.live) r.mask)) s
  if page = pgCALU 1 then
    (s.railsWait).foldl (fun (t : State) i =>
      t.setFld (Reg.CALU_TRIM 1 i) 7 0 (Map.get (fun _ => 0) t.calTaken (calKey 1 i))) s1
  else match (List.range 48).find? fun k => page = pgUPD k with
    | some k => s1.newMap k
    | none => s1

/-- The update engine of a page validates a pending map that it has not validated yet (R222). -/
def State.validatePage (s : State) (page : Nat) : State :=
  match (List.range 48).find? fun k => page = pgUPD k with
  | some k => if s.mapReady k ∨ !s.updWorks k then s else s.validateMap k
  | none => s

/-- APPLY_NOW: without a job the pending values of the page load at once, but for values that never become live: a bad map (R222), a
partition whose leaving chiplets have SERVE work left (R29). A map not yet validated is validated here. WPC_LEG becomes live only
where R25 says, so not here (DESIGN CHOICE: assumption 24). -/
def State.applyPage (s : State) (page : Nat) : State :=
  if s.wp.job then s
  else
    let old := s.reg Reg.WPC_SERVE_MASK_LIVE
    let s0 := s.validatePage page
    let s1 := (s0.wpRegs.filter fun r => decide (r.page = page) && decide (r.reg ≠ Reg.WPC_LEG)).foldl
      (fun (t : State) r => if t.wpPending r ∧ t.wpAllowed r ∧ r.who.all (t.readyFor · r) then t.wpLoad r else t) s0
    let s2 := if page = pgCALU 1 then (s.railsWait).foldl (fun (t : State) i => t.takeOffset 1 i) s1 else s1
    if page = pgWPC then s2.resettle old else s2

/-! ### Fields by their access codes (R384) -/

/-- RW and RW-WP fields take what is written, W1C fields clear; counters clear under R388. -/
def State.plainWrite (s : State) (a : Nat) (d : RegDesc) (w : PageWrite) : State :=
  let key := s.regKey a
  let v := d.fields.foldl (fun x f =>
    match f.acc with
    | .rw => mixBits x w.v (Nat.land f.mask w.m)
    | .wp => mixBits x w.v (Nat.land f.mask w.m)
    | .w1c => mixBits x 0 (Nat.land f.mask (Nat.land w.v w.m))
    | _ => x) (s.reg key)
  let s1 := if v = s.reg key then s else s.setReg key v
  match d.satField with
  | some f => s1.writeCounter a f w
  | none => s1

/-! ### The common header -/

/-- What a unit's first page does with FENCE_CTRL, RESET_CTRL and WDOG_WINDOW; other pages ignore them (R383). -/
def State.writeUnitWord (s : State) (page o : Nat) (d : RegDesc) (w : PageWrite) : State :=
  match unitOfPage page with
  | none => s
  | some u =>
    if unitPage u ≠ page then s
    else if o = Hdr.FENCE_CTRL then
      let s1 := s.plainWrite (page + o) d w
      if w.set 31 then s1.hostFence u (bitOf w.v 30) else s1
    else if o = Hdr.RESET_CTRL then (if w.set 31 then s.fenceUnit u .unitReset none else s)
    else s.plainWrite (page + o) d w

/-- A write to a header register; one of EVT_STATUS or EVT_ENABLE finds the changes of the page's unit noted (R391). -/
def State.writeHeader (s : State) (page o : Nat) (d : RegDesc) (w : PageWrite) : State :=
  if o = Hdr.CTRL then
    match unitOfPage page with
    | some u => if w.set 31 then s.releaseUnit u else s
    | none => s
  else if o = Hdr.EVT_STATUS then (s.notePage page).clearEvents page (Nat.land w.v w.m)
  else if o = Hdr.EVT_ENABLE then (s.notePage page).enableEvents page (s.merged (page + o) w)
  else if o = Hdr.EVT_FORCE then s.forceEvents page (Nat.land w.v w.m)
  else if o = Hdr.WP_CTRL then
    let s1 := if w.set 30 then s.discardPage page else s
    if w.set 31 then s1.applyPage page else s1
  else if o = Hdr.FENCE_CTRL ∨ o = Hdr.RESET_CTRL ∨ o = Hdr.WDOG_WINDOW then s.writeUnitWord page o d w
  else if o = Hdr.SNAP_CTRL then
    let s1 := s.plainWrite (page + o) d w
    if w.set 31 then s1.takeSnap page (s1.fld (page + o) 25 24) (w.set 30) else s1
  else if o = Hdr.CNT_OVF then
    let s1 := s.plainWrite (page + o) d w
    match pageOf page with
    | some (.arb, i) =>
      match s.bankSel .arb i 0x110 with
      | some b =>
        let key := banked (page + o) b
        s1.setReg key (mixBits (s1.reg key) 0 (Nat.land w.v w.m))
      | none => s1
    | _ => s1
  else s.plainWrite (page + o) d w

/-- Header words that only PF0 and the side path write (R381). -/
def privateWord (o : Nat) : Bool :=
  o = Hdr.CTRL ∨ o = Hdr.EVT_ROUTE ∨ o = Hdr.FENCE_CTRL ∨ o = Hdr.RESET_CTRL ∨ o = Hdr.WDOG_WINDOW

/-! ### Pages with registers of their own behaviour -/

/-- A write of MOD_DEVNUM (R67). -/
def State.writeDevnum (s : State) (v : Nat) : State :=
  if s.anyRingActive then s.tally Reg.ID_DEVNUM_REJECT
  else (s.setReg Reg.MOD_DEVNUM (v % 0x10000)).setReg Reg.MOD_DEVNUM_LIVE (v % 0x10000)

/-- The power page. -/
def State.writePwr (s : State) (a : Nat) (d : RegDesc) (w : PageWrite) : State :=
  let s1 := s.plainWrite a d w
  if a = Reg.PWR_CTRL ∧ w.set 31 then s1.requestPower (s1.fld Reg.PWR_CTRL 1 0) else s1

/-- CLK_WARD_CTRL: ON starts the ward's clock, OFF stops it (R346). -/
def State.writeClk (s : State) (a : Nat) (d : RegDesc) (w : PageWrite) : State :=
  let s1 := s.plainWrite a d w
  let n := (a - Reg.CLK_WARD_CTRL 0) / 4
  if a % 0x1000 < 0x130 then
    if s1.fld a 31 30 = 1 then s1.startClock n
    else if s1.fld a 31 30 = 2 then s1.stopClock n
    else s1
  else s1

/-- A held dump is freed. -/
def State.releaseDump (s : State) : State :=
  match s.dump with
  | some x => if x.bytes.isEmpty then s else { s with dump := none }.setReg Reg.FLT_DUMP_STATUS 0
  | none => s

/-- The fault page. -/
def State.writeFlt (s : State) (a : Nat) (d : RegDesc) (w : PageWrite) : State :=
  if a = Reg.FLT_RESET then
    if w.set 31 ∧ 2 ≤ s.power then s.warmReset []
    else (List.range 9).foldl (fun (t : State) n => if w.set n ∧ n ≠ 0 then t.wardReset n else t) s
  else if a = Reg.FLT_UNIT_CMD then (if w.set 31 then s.unquarantine else s)
  else if a = Reg.FLT_JOB then (if w.set 30 then s.jobFault 11 none else s)
  else if a = Reg.FLT_DUMP_CTRL then
    let s1 := s.plainWrite a d w
    if w.set 30 then s1.releaseDump else s1
  else s.plainWrite a d w

/-- OFFSET of a trim: category 3 takes effect at once; a reserved trim takes none. -/
def State.writeCalu (s : State) (i n a : Nat) (d : RegDesc) (w : PageWrite) : State :=
  if d.off ≠ 0x200 then s.plainWrite a d w
  else if reservedTrim i n then s
  else
    let s1 := s.plainWrite a d w
    if i = 3 ∧ Nat.land w.m 0xFF ≠ 0 then s1.takeOffset 3 n else s1

/-- The phase log's ring must lie in the bank SRAM of one base die (R429). -/
def State.writeWpc (s : State) (a : Nat) (d : RegDesc) (w : PageWrite) : State :=
  if a = Reg.PLOG_BASE then
    let b := s.merged a w / 0x20000 * 0x20000
    if inBank b 0x20000 then s.setReg a b else s
  else s.plainWrite a d w

/-- The scale and census page. -/
def State.writeSc (s : State) (a : Nat) (d : RegDesc) (w : PageWrite) : State :=
  if a = Reg.SC_TABLE_BASE then s.writeTableBase (s.merged a w)
  else if a = Reg.SC_SLOT_CMD then (if w.set 31 then s.stageSlot (w.set 30) else s)
  else if a = Reg.SC_LS_SET then
    let s1 := s.plainWrite a d w
    if w.set 8 then s1.stageLoad else s1
  else s.plainWrite a d w

/-- A chiplet's engine and sequencer pages. -/
def State.writeChip (s : State) (c a : Nat) (d : RegDesc) (w : PageWrite) : State :=
  if a = Reg.ENG_RETIRE c then
    let s1 := s.plainWrite a d w
    if w.set 31 then s1.requestRetire c (s1.fld a 5 0) else s1
  else if a = Reg.SEQ_LOG_CTRL c then (if w.set 31 then s.clearLog c else s)
  else s.plainWrite a d w

/-- SIG_HOSTOP: only one 64-bit write performs the operation (R213). -/
def State.writeSig (s : State) (i a : Nat) (d : RegDesc) (w : PageWrite) : State :=
  if a = Reg.SIG_HOSTOP i ∧ w.whole then s.hostOp i w.v else s.plainWrite a d w

/-- The update control page: what a job holds fast, and the variant commands. -/
def State.writeUpdc (s : State) (a : Nat) (d : RegDesc) (w : PageWrite) : State :=
  if a = Reg.UPD_CTRL then s.plainWrite a d (if s.wp.job then w.without 1 else w)
  else if a = Reg.UPD_SHARD ∨ a = Reg.UPD_SNAP0 ∨ a = Reg.UPD_SNAP1 then (if s.wp.job then s else s.plainWrite a d w)
  else if a = Reg.UPD_VAR_CMD then
    let s1 := if w.set 31 then s.stageVar else s
    if w.set 30 then s1.readVar else s1
  else s.plainWrite a d w

/-- An update engine's page. -/
def State.writeUpd (s : State) (k a : Nat) (d : RegDesc) (w : PageWrite) : State :=
  if a = Reg.UPD_JRNL k then s.plainWrite a d (if s.journalLive k then w.without (2 ^ 64 - 4096) else w)
  else if a = Reg.UPD_MAP k then
    let s1 := s.plainWrite a d w
    if s1.reg a = s.reg a then s1 else s1.newMap k
  else if a = Reg.UPD_ENG_CTRL k then (if w.set 31 then s.releaseUnit (.upd (Fin.ofNat 48 k)) else s)
  else s.plainWrite a d w

/-- RETRAIN: a retrain of an UP link; a FAILED one trains again (R250). -/
def State.askRetrain (s : State) (l : Nat) : State :=
  if s.linkState l = 2 then s.startRetrain l else if s.linkState l = 4 then s.setLinkState l 1 else s

/-- A link's page: DISABLE holds the link DISABLED, its end leaves it DOWN. -/
def State.writeLink (s : State) (l a : Nat) (d : RegDesc) (w : PageWrite) : State :=
  let s1 := s.plainWrite a d w
  if a = Reg.TOR_LINK_CTRL l then
    let off := s1.flag a 30
    let s2 := if off = s.flag a 30 then s1 else if off then s1.setLinkState l 5
      else if s.linkState l = 5 then s1.setLinkState l 0 else s1
    if w.set 31 then s2.askRetrain l else s2
  else s1

/-- The pod page. -/
def State.writePod (s : State) (a : Nat) (d : RegDesc) (w : PageWrite) : State :=
  if a = Reg.TOR_GEOM then s.writeSlice true (s.merged a w)
  else if a = Reg.TOR_SLICE then s.writeSlice false (s.merged a w)
  else if a = Reg.TOR_COLL_BASE then s.writeCollBase (s.merged a w)
  else if a = Reg.TOR_RELAY then
    let s1 := s.plainWrite a d w
    if Nat.land w.m 7 ≠ 0 then s1.setRelay (s1.fld a 2 0) else s1
  else if a = Reg.TOR_PROBE then (if w.set 31 then s.startProbe else s)
  else s.plainWrite a d w

/-- Some EXCHANGE ring is ACTIVE. -/
def State.exchangeActive (s : State) : Bool := s.rings.any fun e => e.2.st == .active && decide (s.ringClass e.1 = 3)

/-- VALID of a partner. -/
def State.writePartner (s : State) (a : Nat) (d : RegDesc) (w : PageWrite) : State :=
  let p := s.fld Reg.XCH_PTR_SEL 7 0
  let s1 := s.plainWrite a d (w.without (2 ^ 31))
  if bitOf w.m 31 then (if bitOf w.v 31 then s1.validatePartner p else if s1.ptrValid p then s1.invalidatePartner p else s1)
  else s1

/-- The exchange control page: what a job or an ACTIVE ring holds fast, and the partners. -/
def State.writeXch (s : State) (a : Nat) (d : RegDesc) (w : PageWrite) : State :=
  let high : Nat := 2 ^ 64 - 4096
  if a = Reg.XCH_IDENT then (if s.exchangeActive then s else s.plainWrite a d w)
  else if a = Reg.XCH_ROUND_BASE then (if s.wp.job then s else s.plainWrite a d w)
  else if a = Reg.XCH_SECT then s.plainWrite a d (if s.wp.job then w.without high else w)
  else if a = Reg.XCH_REGION_ADDR then (if s.wp.job ∨ 5 ≤ s.fld Reg.XCH_REGION_SEL 2 0 then s else s.plainWrite a d w)
  else if a = Reg.XCH_REGION_SIZE then (if 5 ≤ s.fld Reg.XCH_REGION_SEL 2 0 then s else s.plainWrite a d w)
  else if a = Reg.XCH_PTR_CFG then s.writePartner a d w
  else s.plainWrite a d w

/-- The cipher control page. -/
def State.writeCph (s : State) (a : Nat) (d : RegDesc) (w : PageWrite) : State :=
  if a = Reg.CPH_XSTATE then (if Nat.land w.m 3 ≠ 0 then s.writeXstate (s.merged a w % 4) else s)
  else if a = Reg.CPH_EPOCH then (if w.set 31 then s.switchEpoch else s)
  else if a = Reg.CPH_KEY_CMD then
    let s1 := if w.set 31 then s.loadKey else s
    if w.set 30 then s1.eraseKey else s1
  else s.plainWrite a d w

/-- INSTALL of a cipher die's epoch entry. -/
def State.writeCphd (s : State) (p n a : Nat) (d : RegDesc) (w : PageWrite) : State :=
  let s1 := s.plainWrite a d w
  if d.off = 0x100 ∧ w.set 31 then s1.installEpoch p n else s1

/-- HOST_VF_SPLIT: a sum past 60 is replaced by the reset split (R59). -/
def State.writeHostf (s : State) (a : Nat) (d : RegDesc) (w : PageWrite) : State :=
  let s1 := s.plainWrite a d w
  if d.off = 0x100 ∧ 60 < s1.fld a 5 0 + s1.fld a 13 8 then s1.setReg a (20 * 256 + 40) else s1

/-! ### Ring groups (R183, R184, R199, R209) -/

/-- Every ring of a group is OFF. -/
def State.groupOff (s : State) (g : Nat) : Bool := (List.range 64).all fun j => (s.ring (64 * g + j)).st == .off

/-- HEAD, in READY or FROZEN; taken modulo the ring's size. -/
def State.writeHead (s : State) (n : Nat) (w : PageWrite) : State :=
  let r := s.ring n
  let ok : Bool := r.st == .ready || r.st == .frozen
  if ok ∧ Nat.land w.m 0xFFFF ≠ 0 then
    let h := s.merged (Reg.RING_PTR n) w % 0x10000 % s.ringSize n
    (s.setFld (Reg.RING_PTR n) 15 0 h).setRing n { r with
      next := if r.flights.isEmpty then h else r.next
      stale := if r.st = .frozen then r.flights.length else r.stale }
  else s

/-- RING_CTRL: CREATE and DESTROY for PF0 and the side path, UNFREEZE, and ENABLE as written. -/
def State.writeRingCtrl (s : State) (n : Nat) (w : PageWrite) : State :=
  let priv := asPF0 w.who
  let s0 := if !priv ∧ (w.set 31 ∨ w.set 30) then s.dropped w.who else s
  let s1 := if priv ∧ w.set 31 then s0.createRing n else s0
  let s2 := if priv ∧ w.set 30 then s1.destroyRing n else s1
  let s3 := if w.set 28 then s2.unfreezeRing n else s2
  if bitOf w.m 29 then (if bitOf w.v 29 then s3.enableRing n else s3.disableRing n) else s3

/-- Fields that PF0 and the side path alone write, guarded where the ring must be OFF. A change that its writer may not
make is dropped and counted. -/
def State.guardedField (s : State) (a : Nat) (d : RegDesc) (w : PageWrite) (m : Nat) (free : Bool) : State :=
  let changes : Bool := decide (Nat.land (s.merged a w) m ≠ Nat.land (s.reg a) m)
  if !changes then s.plainWrite a d w
  else if !asPF0 w.who then (s.plainWrite a d (w.without m)).dropped w.who
  else if free then s.plainWrite a d w
  else s.plainWrite a d (w.without m)

/-- A ring group's page. -/
def State.writeRg (s : State) (g n a : Nat) (d : RegDesc) (w : PageWrite) : State :=
  let r := 64 * g + n
  let off : Bool := (s.ring r).st == .off
  if d.off = 0x100 then (if !asPF0 w.who then s.dropped w.who else if s.groupOff g then s.plainWrite a d w else s)
  else if d.off = 0x800 ∨ d.off = 0x808 then s.guardedField a d w (2 ^ 64 - 1) off
  else if d.off = 0x810 then s.guardedField a d w (7 * 2 ^ 29) off
  else if d.off = 0x814 then s.guardedField a d w (2 ^ 31) true
  else if d.off = 0x818 then s.writeHead r w
  else s.writeRingCtrl r w

/-! ### Any register -/

/-- A write to a register of a page's own block. -/
def State.writeBlock (s : State) (k : PageKind) (i n a : Nat) (d : RegDesc) (w : PageWrite) : State :=
  match k with
  | .id => if a = Reg.MOD_DEVNUM then s.writeDevnum (s.merged a w) else s.plainWrite a d w
  | .rep => if a = Reg.REP_SOFT_CTRL then (if w.set 31 then { s with softClear := true } else s) else s.plainWrite a d w
  | .pwr => s.writePwr a d w
  | .clk => s.writeClk a d w
  | .flt => s.writeFlt a d w
  | .fw => if a = Reg.FW_CTRL then (if w.set 31 then s.activate else s) else s.plainWrite a d w
  | .calu => s.writeCalu i n a d w
  | .wpc => s.writeWpc a d w
  | .sc => s.writeSc a d w
  | .rt => if a = Reg.RT_SWAP_REQ then s.requestSwap (Nat.land w.v w.m) else s.plainWrite a d w
  | .acc => if a = Reg.ACC_CMD i then (if w.set 31 then s.startInvalidate i else s) else s.plainWrite a d w
  | .sig => s.writeSig i a d w
  | .eng => s.writeChip i a d w
  | .seq => s.writeChip i a d w
  | .updc => s.writeUpdc a d w
  | .upd => s.writeUpd i a d w
  | .link => s.writeLink i a d w
  | .pod => s.writePod a d w
  | .xch => s.writeXch a d w
  | .cph => s.writeCph a d w
  | .cphd => s.writeCphd i n a d w
  | .codec => if d.off = 0x100 ∧ s.wp.job then s.plainWrite a d (w.without (0xFFF * 2 ^ 16)) else s.plainWrite a d w
  | .hostf => s.writeHostf a d w
  | .rg => s.writeRg i n a d w
  | _ => s.plainWrite a d w

/-- A write to one register, by the address of the register. -/
def State.writeReg (s : State) (a : Nat) (w : PageWrite) : State :=
  match pageOf a with
  | none => s
  | some (k, i) =>
    match findDesc k.regs (a % 0x1000) with
    | some (d, n) => if a % 0x1000 < 0x100 then s else s.writeBlock k i n a d w
    | none =>
      match findDesc regsHDR (a % 0x1000) with
      | some (d, _) =>
        if privateWord (a % 0x1000) ∧ !asPF0 w.who then s.dropped w.who
        else if 0x80 ≤ a % 0x1000 then s
        else s.writeHeader (pageBase a) (a % 0x1000) d w
      | none => s

/-- Part of an access: bytes first to first + n of the value v at address a, as it reaches the register there. -/
def State.writePart (s : State) (who : Requester) (a n v : Nat) : State :=
  match regBase a with
  | none => s
  | some (b, size) =>
    let sh := 8 * (a - b)
    s.writeReg b ⟨who, v % 2 ^ (8 * n) * 2 ^ sh, (2 ^ (8 * n) - 1) * 2 ^ sh, decide (n = size)⟩

/-- An aligned 32-bit or 64-bit write: a 64-bit register changes as a whole, two 32-bit registers one after the
other (R47). -/
def State.writeWords (s : State) (who : Requester) (a n v : Nat) : State :=
  if n = 4 then s.writePart who a 4 v
  else match regBase a with
    | some (_, 8) => s.writePart who a 8 v
    | _ => (s.writePart who a 4 v).writePart who (a + 4) 4 (v / 2 ^ 32)

/-- A write of n bytes at a register-space offset (R56, R378, R379): dropped and counted where it is narrow or
misaligned, where the page is unpopulated, or where the requester may not write the page. -/
def State.writeSpace (s : State) (who : Requester) (a n v : Nat) : State :=
  if (n ≠ 4 ∧ n ≠ 8) ∨ a % n ≠ 0 ∨ (pageOf a).isNone ∨ !s.mayWrite who (pageBase a) then s.dropped who
  else if !s.wardPowered (a / 0x1000000) then s
  else s.writeWords who a n v

/-! ### The commands -/

/-- A write through the requester's BAR0 or, for others, the register space. -/
def State.busWrite (s : State) (who : Requester) (a n v : Nat) : State :=
  if s.pathFrozen who then s.notReady who
  else match s.busAddr who a with
    | none => s.dropped who
    | some b => s.writeSpace who b n v

/-- REGISTER_WRITE. A write of another width than 32 or 64 bits is dropped and counted (R379). -/
def execRegisterWrite (who : Requester) (addr : BitVec 28) (width : Nat) (v : DWord) (s : State) :
    Host.Outcome State Fault Refusal :=
  .next (s.busWrite who addr.toNat width v.toNat)

/-- A command of a page's header, written as the 32-bit word that carries it. -/
def State.headerCommand (s : State) (who : Requester) (page : BitVec 28) (o v : Nat) : State :=
  s.busWrite who (pageBase page.toNat + o) 4 v

/-- APPLY_NOW. -/
def execApplyNow (who : Requester) (page : BitVec 28) (s : State) : Host.Outcome State Fault Refusal :=
  .next (s.headerCommand who page Hdr.WP_CTRL (2 ^ 31))

/-- DISCARD. -/
def execDiscard (who : Requester) (page : BitVec 28) (s : State) : Host.Outcome State Fault Refusal :=
  .next (s.headerCommand who page Hdr.WP_CTRL (2 ^ 30))

/-- SNAP_TAKE. -/
def execSnapTake (who : Requester) (page : BitVec 28) (bank : BitVec 2) (s : State) : Host.Outcome State Fault Refusal :=
  .next (s.headerCommand who page Hdr.SNAP_CTRL (2 ^ 31 + bank.toNat * 2 ^ 24))

/-- SNAP_TAKE_CLEAR. -/
def execSnapTakeClear (who : Requester) (page : BitVec 28) (bank : BitVec 2) (s : State) :
    Host.Outcome State Fault Refusal :=
  .next (s.headerCommand who page Hdr.SNAP_CTRL (2 ^ 31 + 2 ^ 30 + bank.toNat * 2 ^ 24))

/-- COUNTER_CLEAR: a write to a SAT counter; any other value than all ones, and any other register, is left alone. -/
def execCounterClear (who : Requester) (addr : BitVec 28) (width : Nat) (v : DWord) (s : State) :
    Host.Outcome State Fault Refusal :=
  match s.busAddr who addr.toNat with
    | some a => if (satWidth a).isSome then .next (s.busWrite who addr.toNat width v.toNat) else .next s
    | none => .next (s.busWrite who addr.toNat width v.toNat)

/-- EVT_STATUS_CLEAR. -/
def execEvtStatusClear (who : Requester) (page : BitVec 28) (v : Word) (s : State) : Host.Outcome State Fault Refusal :=
  .next (s.headerCommand who page Hdr.EVT_STATUS v.toNat)

/-- EVT_ENABLE_WRITE. -/
def execEvtEnableWrite (who : Requester) (page : BitVec 28) (v : Word) (s : State) : Host.Outcome State Fault Refusal :=
  .next (s.headerCommand who page Hdr.EVT_ENABLE v.toNat)

/-- EVT_FORCE. -/
def execEvtForce (who : Requester) (page : BitVec 28) (v : Word) (s : State) : Host.Outcome State Fault Refusal :=
  .next (s.headerCommand who page Hdr.EVT_FORCE v.toNat)

/-- UNFREEZE: CTRL.UNFREEZE of a unit's page. -/
def execUnfreeze (who : Requester) (page : BitVec 28) (s : State) : Host.Outcome State Fault Refusal :=
  .next (s.headerCommand who page Hdr.CTRL (2 ^ 31))

/-- MOD_DEVNUM_WRITE. -/
def execModDevnumWrite (who : Requester) (v : Word) (s : State) : Host.Outcome State Fault Refusal :=
  .next (s.command who pgID fun t => t.writeDevnum v.toNat)

end Sys2Proof.Machine
end

