-- ==== Sys2Proof/Machine/Bus.lean ====
section
/-! DEFINITION. Accesses over the fabric: where a global address leads, what a read or write of memory or of the
register space gives, and BAR4 (R52 to R57, R174, R179, R188, R198, R246, R359, R428). -/

namespace Sys2Proof.Machine

/-! ### Where an address leads (R52, R53) -/

/-- Where a range of global addresses lies. -/
inductive Reach where
  | here (a : Nat)
  | pod (dev a : Nat)
  | outside
deriving DecidableEq, Repr

/-- Every offset of the range is populated on a module of one order code or the other (R2, R4): a pod may mix them, and the
module that holds the offset answers for its own slow tier. -/
def populatedSome (a n : Nat) : Bool :=
  populated a n || (decide (0x100000000000 ≤ a) && decide (a + (n - 1) < 0x11D1A94A2000))

/-- The place of a range: this module, another module of the pod, or nowhere. No register configures another pod. -/
def State.reach (s : State) (ga n : Nat) : Reach :=
  let dev := ga / 2 ^ 48 % 2 ^ 16
  let a := ga % 2 ^ 48
  if 2 ^ 64 ≤ ga then .outside
  else if dev = s.devnum then (if populated a n then .here a else .outside)
  else if dev / 1024 = s.devnum / 1024 ∧ s.inPod (dev % 1024) ∧ populatedSome a n then .pod dev a
  else .outside

/-- The first offset of each place that a range touches. -/
def placesOf (a n : Nat) : Nat → List Nat
  | 0 => [a]
  | fuel + 1 =>
    let k := placeEnd a - a
    if n ≤ k then [a] else a :: placesOf (a + k) (n - k) fuel

/-- What stands at a place takes a requester's requests (R42, R46, R346, R358, R48); the slow tier through its port on base
die 1 or through that on base die 2. -/
def State.placeServes (s : State) (who : Requester) (a : Nat) : Bool :=
  match placeOf a with
  | .hbm k => s.dieServes who (k / 3) && s.wardServes 5
  | .slow => (s.dieServes who 1 || s.dieServes who 2) && s.wardPowered 5 && s.serving .slowTier
  | .bank d => s.dieServes who d
  | .scratch c => s.dieServes who (c / 16) && s.serving (.chiplet (Fin.ofNat 64 c))
  | .imem c _ => s.dieServes who (c / 16) && s.serving (.chiplet (Fin.ofNat 64 c))
  | _ => true

/-- The base dies that a place is reached by (R34); none for a register page. -/
def placeDies (a : Nat) : List Nat :=
  match placeOf a with
  | .hbm k => [k / 3]
  | .slow => [1, 2]
  | .bank d => [d]
  | .scratch c => [c / 16]
  | .imem c _ => [c / 16]
  | _ => []

/-- The link that a packet for another module leaves by (R254). -/
def State.exitLink (s : State) (dev : Nat) : Option Nat :=
  (nextAxis s.ownIndex (dev % 1024)).map fun a =>
    2 * a + boolNat (s.direction a (coordOf s.ownIndex a) (coordOf (dev % 1024) a))

/-- A requester's packets for another module reach the link die they leave by, across Ebsia (R42, R252); a relaying die discards
them. -/
def State.podServes (s : State) (who : Requester) (dev : Nat) : Bool :=
  match s.exitLink dev, s.homeDie who with
  | some l, some h => s.relaying l || s.meshServes h (linkBase l)
  | _, _ => true

/-- Every place of a range takes a requester's requests. -/
def State.rangeServes (s : State) (who : Requester) (a n : Nat) : Bool := (placesOf a n 80).all (s.placeServes who)

/-- The window set, where the requester has one, allows the access (R188). -/
def State.windowOk (s : State) (set : Option Nat) (ga n : Nat) (write : Bool) : Bool :=
  match set with
  | none => true
  | some k => s.windowed k ga n write

/-- The address a violation reports (R197): the first one that no window allows. -/
def State.shutAt (s : State) (set : Option Nat) (ga : Nat) (write : Bool) : Nat :=
  match set with
  | none => ga
  | some k => s.firstShut k ga write

/-- The first address of a range that is not allowed, or leads nowhere. -/
def State.violationAt (s : State) (set : Option Nat) (ga n : Nat) (write : Bool) : Nat :=
  if s.windowOk set ga n write then holeAt ga n else s.shutAt set ga write

/-! ### The register space through the fabric (R378, R379, R428) -/

/-- The widest aligned access at an offset that n bytes hold. -/
def accessAt (a n : Nat) : Nat :=
  if a % 8 = 0 ∧ 8 ≤ n then 8 else if a % 4 = 0 ∧ 4 ≤ n then 4 else if a % 2 = 0 ∧ 2 ≤ n then 2 else 1

/-- Reads n bytes of register space as aligned accesses. -/
def State.readRegRun (s : State) (who : Requester) (a n : Nat) : Nat → State × List Byte
  | 0 => (s, [])
  | fuel + 1 =>
    if n = 0 then (s, [])
    else
      let k := accessAt a n
      let r := s.readSpace who a k
      let q := r.1.readRegRun who (a + k) (n - k) fuel
      (q.1, r.2 ++ q.2)

/-- Writes bytes to register space as aligned accesses. -/
def State.writeRegRun (s : State) (who : Requester) (a : Nat) (bs : List Byte) : Nat → State
  | 0 => s
  | fuel + 1 =>
    if bs.isEmpty then s
    else
      let k := accessAt a bs.length
      (s.writeSpace who a k (leNat (bs.take k))).writeRegRun who (a + k) (bs.drop k) fuel

/-- A read of register space: up to 8 bytes are one access, served as BAR0 serves it; more bytes are a run of aligned accesses
(R379, R428; DESIGN CHOICE: assumption 36). -/
def State.readRegs (s : State) (who : Requester) (a n : Nat) : State × List Byte :=
  if n ≤ 8 then s.readSpace who a n else s.readRegRun who a n n

/-- A write of register space, in the same way. -/
def State.writeRegs (s : State) (who : Requester) (a : Nat) (bs : List Byte) : State :=
  if bs.length ≤ 8 then s.writeSpace who a bs.length (leNat bs) else s.writeRegRun who a bs bs.length

/-! ### Reads and writes -/

/-- How an access ends. -/
inductive Access where
  | done (bs : List Byte)
  | bad
  | violation (a : Nat)
  | refused
  | remote (dev a : Nat)
deriving DecidableEq, Repr

/-- The register space begins here (R53). -/
def regSpace : Nat := 0x300000000000

/-- A read of n bytes at a local offset. -/
def State.localRead (s : State) (who : Requester) (a n : Nat) : State × Access :=
  if !s.rangeServes who a n then (s, .refused)
  else if placeOf a = .regs then
    let r := s.readRegs who (a - regSpace) n
    (r.1, .done r.2)
  else
    let s0 := s.wakePlaces (placesOf a n 80)
    match s.badBurst a n with
    | some b => (s0.noteBad b, .bad)
    | none => (s0.noteSlow a n false, .done (s.load a n))

/-- A write of bytes at a local offset; a shut instruction bank makes it a violation. -/
def State.localWrite (s : State) (who : Requester) (a : Nat) (bs : List Byte) : State × Access :=
  if !s.rangeServes who a bs.length then (s, .refused)
  else if placeOf a = .regs then (s.writeRegs who (a - regSpace) bs, .done [])
  else
    let s1 := ((s.wakePlaces (placesOf a bs.length 80)).guardedStore a bs).noteSlow a bs.length true
    match s.bankViolation a bs, (s.tornBursts a bs.length).head? with
    | some b, _ => (s1, .violation b)
    | none, some b => (s1.noteBad b, .bad)
    | none, none => (s1, .done [])

/-- A read of n bytes at a global address by a requester with its window set, if it has one. -/
def State.fabricRead (s : State) (who : Requester) (set : Option Nat) (ga n : Nat) : State × Access :=
  if !s.windowOk set ga n false then (s, .violation (s.shutAt set ga false))
  else match s.reach ga n with
    | .outside => ((if ga / 2 ^ 48 = s.devnum then s.noteBeyond (ga % 2 ^ 48) n else s), .violation (holeAt ga n))
    | .pod dev a => if s.podServes who dev then (s, .remote dev a) else (s, .refused)
    | .here a => s.localRead who a n

/-- A write of bytes at a global address. -/
def State.fabricWrite (s : State) (who : Requester) (set : Option Nat) (ga : Nat) (bs : List Byte) : State × Access :=
  if !s.windowOk set ga bs.length true then (s, .violation (s.shutAt set ga true))
  else match s.reach ga bs.length with
    | .outside => ((if ga / 2 ^ 48 = s.devnum then s.noteBeyond (ga % 2 ^ 48) bs.length else s), .violation (holeAt ga bs.length))
    | .pod dev a => if s.podServes who dev then (s, .remote dev a) else (s, .refused)
    | .here a => s.localWrite who a bs

/-- Some place of the range refuses the requester, or the way to another module. -/
def State.wouldRefuse (s : State) (who : Requester) (ga n : Nat) : Bool :=
  match s.reach ga n with
  | .here a => !s.rangeServes who a n
  | .pod dev _ => !s.podServes who dev
  | .outside => false

/-! ### BAR4 (R55, R57, R198) -/

/-- HOST_BAR4_BASE of a physical function. -/
def State.bar4Base (s : State) (f : Func) : Nat := s.reg (Reg.HOST_BAR4_BASE f.die f.idx) / 2 ^ 36 * 2 ^ 36

/-- The Completer Abort and Successful Completion status of PCIe. -/
def completerAbort : Nat := 4

/-- The host die answers a read. -/
def State.bar4Reply (s : State) (f : Func) (op : MemOp) (status : Nat) (bs : List Byte) : State :=
  match op with
  | .read _ => s.emit (.barData f status bs)
  | .write _ => s

/-- A BAR4 access that reached an end. -/
def State.bar4End (s : State) (f : Func) (op : MemOp) : Access → State
  | .done bs => s.bar4Reply f op 0 bs
  | .violation a => (s.freezeFunc f a).bar4Reply f op completerAbort []
  | .refused => s.refuse.bar4Reply f op completerAbort []
  | _ => s.bar4Reply f op completerAbort []

/-- BAR4_ACCESS: an offset in a physical function's BAR4. A frozen function is answered Completer Abort; a function
without a BAR4, or a host die that does not run, answers nothing. An access of no bytes moves none (assumption 60). -/
def execBar4Access (f : Func) (off : BitVec 36) (op : MemOp) (s : State) : Host.Outcome State Fault Refusal :=
  let a := s.bar4Base f + off.toNat
  let n := match op with
    | .read n => n
    | .write bs => bs.length
  if 3 ≤ f.idx.val then .next s
  else if s.funcFrozen f then .next (s.bar4Reply f op completerAbort [])
  else if s.pathFrozen (.func f) then .next s
  else if n = 0 then .next (s.bar4Reply f op 0 [])
  else if !populated a n then .next ((s.noteBeyond a n).bar4End f op (.violation a))
  else
    let r := match op with
      | .read n => s.localRead (.func f) a n
      | .write bs => s.localWrite (.func f) a bs
    .next (r.1.bar4End f op r.2)

end Sys2Proof.Machine
end

