-- ==== Sys2Proof/Machine/SeqMov.lean ====
section
/-! DEFINITION. What each MOV slot does, read in its issue cycle (R162, R164, R165). -/

namespace Sys2Proof.Machine

/-- The byte address a MOV slot names, before its space (R162). -/
def Chiplet.movAddr (x : Chiplet) (f : MovFields) (scale : Nat) : Nat :=
  ((x.scalar f.base.toNat).toNat + f.offset.toNat * scale) % 2 ^ 64

/-- The local offset of n bytes at an address in a space; none outside the populated map (R53). -/
def movPlace (c space a n : Nat) : Option Nat :=
  if space = 0 then (if a + n ≤ 0x800000 then some (scratchAt c a) else none)
  else if space = 1 then (if a + n ≤ 0x40000000 then some (bankAt (dieOf c) a) else none)
  else if populated a n then some a else none

/-- BASE names no register, or SPACE is one the operation may not name (R158, R162). -/
def movIllegal (f : MovFields) (copy : Bool) : Bool :=
  !scalarOk f.base.toNat || f.space == 3 || (f.space == 2 && !copy)

/-- A MOV slot that touches n bytes: illegal, misaligned, hazards on its registers, a hole in the map, hazards
on its range; issue holds (none) on a chain destination that is still to be written. -/
def Chiplet.movSlot (x : Chiplet) (c : Nat) (f : MovFields) (illegal : Bool) (scale align n : Nat)
    (reads dests : List (RClass × Nat)) (write : Bool) (lat : Nat) (k : SlotFx → Nat → SlotFx) : Option SlotFx :=
  let a := x.movAddr f scale
  let j1 := x.judge 3 (illegal || movIllegal f false) false (decide (a % align ≠ 0))
    (scalarReads f.base.toNat ++ reads) dests false [] [] false
  if j1.cause ≠ 0 then some j1
  else match movPlace c f.space.toNat a n with
    | none => some { j1 with violation := some a }
    | some p =>
      let new : List NewRange := [⟨[grains p n], write, .clock (x.cur.clock + lat)⟩]
      let j2 := x.judge 3 false false false (scalarReads f.base.toNat ++ reads) dests false [] new false
      if j2.cause ≠ 0 then some j2
      else if x.chainHeld c new then none
      else some (k { j2 with ranges := x.enter new, pend := x.pendFor dests lat } p)

/-- The latency class of a load or store by its space: scratch or bank. -/
def spaceLat (f : MovFields) (scratch bank : Nat) : Nat := latency (if f.space = 0 then scratch else bank) 0

/-- A load takes its bytes: the ones in memory, or undefined ones where the read meets an uncorrectable error (R162), or none
where it reads its ARG range outside the ring's windows (R200). -/
def State.loadFx (s : State) (c : Nat) (f : MovFields) (p n : Nat) (j : SlotFx) (k : List Byte → List RegWrite) : SlotFx :=
  let bad := f.readErr || s.uncorrectable p n
  { j with
    regs := k (if bad then s.freeBytes n else s.load p n)
    violation := s.argShut c p n
    uncorr := bad
    frees := if bad then n else 0 }

/-- VLD: 2 KiB into a V register of each named engine. -/
def State.fxVld (s : State) (x : Chiplet) (c : Nat) (f : MovFields) : Option SlotFx :=
  let es := enginesOf f.eng
  x.movSlot c f es.isEmpty 64 64 2048 [] (es.map fun e => (RClass.v, e * 64 + f.reg.toNat)) false
    (spaceLat f 13 14) fun j p => s.loadFx c f p 2048 j fun bs => es.map fun e => .v e f.reg.toNat (bytesLanes bs)

/-- VST: 2 KiB from a V register of one engine. -/
def Chiplet.fxVst (x : Chiplet) (c : Nat) (f : MovFields) : Option SlotFx :=
  let e := if f.eng = 2 then 1 else 0
  x.movSlot c f (f.eng == 0 || f.eng == 3) 64 64 2048 [(.v, e * 64 + f.reg.toNat)] [] true (spaceLat f 15 16)
    fun j p => { j with mem := [(p, laneBytes (x.vreg e f.reg.toNat))] }

/-- SLD: 8 bytes into an S register. -/
def State.fxSld (s : State) (x : Chiplet) (c : Nat) (f : MovFields) : Option SlotFx :=
  x.movSlot c f (decide (32 ≤ f.reg.toNat)) 8 8 8 [] [(.s, f.reg.toNat)] false (spaceLat f 17 18)
    fun j p => s.loadFx c f p 8 j fun bs => [.s f.reg.toNat (BitVec.ofNat 64 (leNat bs))]

/-- SST: 8 bytes from an S register. -/
def Chiplet.fxSst (x : Chiplet) (c : Nat) (f : MovFields) : Option SlotFx :=
  x.movSlot c f (decide (32 ≤ f.reg.toNat)) 8 8 8 [(.s, f.reg.toNat)] [] true (spaceLat f 15 16)
    fun j p => { j with mem := [(p, leBytes 8 (x.sreg f.reg.toNat).toNat)] }

/-- The accumulation write of a VSTA; void when the slot is skipped (R162, R167). -/
def State.vstaWrite (s : State) (x : Chiplet) (c : Nat) (f : MovFields) (data : Option (List Word)) : AccWrite :=
  let ex := f.extra.toNat
  ⟨bitsOf ex 6 5, bitsOf ex 4 0, x.movAddr f 64 / 4096, s.reg Reg.WPC_WAYPOINT % 2 ^ 48,
    (x.sreg (bitsOf ex 11 7)).toNat % 65536, data, .chiplet (Fin.ofNat 64 c), 0, 0⟩

/-- VSTA: Vn and Vn + 1 of one engine as one accumulation write. -/
def State.fxVsta (s : State) (x : Chiplet) (c : Nat) (f : MovFields) : SlotFx :=
  let e := if f.eng = 2 then 1 else 0
  let v := f.reg.toNat
  let illegal := f.eng == 0 || f.eng == 3 || decide (v % 2 = 1) || movIllegal f false
  let j := x.judge 3 illegal false (decide (x.movAddr f 64 % 4096 ≠ 0))
    (scalarReads f.base.toNat ++ [(.v, e * 64 + v), (.v, e * 64 + v + 1), (.s, bitsOf f.extra.toNat 11 7)])
    [] false [] [] false
  { j with
    accWrites := [s.vstaWrite x c f (some (x.vreg e v ++ x.vreg e (v + 1)))]
    skipAcc := if scalarOk f.base.toNat then [s.vstaWrite x c f none] else [] }

/-! ### COPY (R162, R193) -/

/-- Fields of a COPY-class descriptor. -/
def cpSrc (d : List Byte) : Nat := fieldAt d 0x10 8
def cpDst (d : List Byte) : Nat := fieldAt d 0x18 8
def cpLen (d : List Byte) : Nat := fieldAt d 0x20 4
def cpRows (d : List Byte) : Nat := fieldAt d 0x24 4
def cpSrcStride (d : List Byte) : Nat := fieldAt d 0x28 8
def cpDstStride (d : List Byte) : Nat := fieldAt d 0x30 8

/-- A COPY-class descriptor breaks its encoding (R190): LEN or ROWS of 0, or a FILL whose LEN is no multiple
of 8. -/
def copyBad (d : List Byte) : Bool :=
  opOf d != 0 && (decide (cpLen d = 0) || decide (cpRows d = 0) || (opOf d == 2 && decide (cpLen d % 8 ≠ 0)))

/-- The grains of n bytes from a that lie in m bytes from b. -/
def grainsWithin (a n b m : Nat) : List (Nat × Nat) :=
  if overlaps a n b m then [grains (max a b) (min (a + n) (b + m) - max a b)] else []

/-- The grains of rows that lie in a chiplet's own scratch or its base die's bank SRAM, a row that crosses into them with its part. -/
def State.ownRows (s : State) (c base stride len rows : Nat) : List (Nat × Nat) :=
  (List.range rows).flatMap fun i =>
    match s.local? ((base + i * stride) % 2 ^ 64) with
    | some a => grainsWithin a len (scratchAt c 0) 0x800000 ++ grainsWithin a len (bankAt (dieOf c) 0) 0x40000000
    | none => []

/-- The completion value of the next COPY of a stream that names a counter (R165). -/
def Chiplet.copyNumber (x : Chiplet) (ctr : Nat) : Nat :=
  ((x.copies.filter fun e => e.1 == ctr && e.2.1 == x.inSection).foldl (fun m e => max m e.2.2) 0) + 1

/-- The other stream has named the counter in this step. -/
def Chiplet.copyCross (x : Chiplet) (ctr : Nat) : Bool := x.copies.any fun e => e.1 == ctr && e.2.1 != x.inSection

/-- The ranges of a COPY: source rows and destination rows. -/
def State.copyRanges (s : State) (x : Chiplet) (c ctr : Nat) (d : List Byte) : List NewRange :=
  let till := RangeEnd.copy ctr (x.copyNumber ctr)
  let src := if opOf d = 1 then s.ownRows c (cpSrc d) (cpSrcStride d) (cpLen d) (cpRows d) else []
  let dst := if opOf d = 0 then [] else s.ownRows c (cpDst d) (cpDstStride d) (cpLen d) (cpRows d)
  (if src.isEmpty then [] else [⟨src, false, till⟩]) ++ (if dst.isEmpty then [] else [⟨dst, true, till⟩])

/-- COPY: reads its descriptor, an undefined one where the read meets an uncorrectable error, and checks it against the windows
of a serving ring where it lies in the ARG range (R162, R200); the move itself and the add to the completion counter take place
when the bundle retires. A descriptor with an OP above 2, or with a LEN, ROWS or FILL length that breaks R190, makes the slot
inconsistent (DESIGN CHOICE, assumption 41: R190 gives a ring's violation alone). -/
def State.fxMovCopy (s : State) (x : Chiplet) (c : Nat) (f : MovFields) : Option SlotFx :=
  let a := x.movAddr f 64
  let ctr := f.extra.toNat
  let reads := scalarReads f.base.toNat
  let j0 := x.judge 3 (movIllegal f true) false (decide (a % 64 ≠ 0) || decide (1023 < ctr % 4096)) reads [] false [] []
    (x.copyCross ctr)
  let j1 := { j0 with copyCtr := some ctr }
  if j1.cause ≠ 0 then some j1
  else match movPlace c f.space.toNat a 64 with
    | none => some { j1 with violation := some a }
    | some p =>
      let bad := f.readErr || s.uncorrectable p 64
      let d := if bad then s.freeBytes 64 else s.load p 64
      let new := s.copyRanges x c ctr d
      let j2 : SlotFx := { x.judge 3 false false (decide (2 < opOf d) || copyBad d) reads [] false [] new false with
        copyCtr := some ctr }
      if j2.cause ≠ 0 then some j2
      else if x.chainHeld c new then none
      else some { j2 with
        ranges := x.enter new
        copy := some d
        violation := s.argShut c p 64
        uncorr := bad
        bads := (s.badBurst p 64).toList
        frees := if bad then 64 else 0 }

end Sys2Proof.Machine
end

