-- ==== Sys2Proof/Machine/Movers.lean ====
section
/-! DEFINITION. The copy units and the DMA of the host dies: COPY, FILL, TO_HOST and FROM_HOST descriptors, the moves of
COPY slots, and the answers of other modules (R43, R52, R162, R171, R188, R192, R193, R359, R428). -/

namespace Sys2Proof.Machine

/-! ### One row -/

/-- Who moves: a descriptor's ring, or a chiplet. -/
def RemoteUse.who : RemoteUse → Requester
  | .flight n _ => .ring (Fin.ofNat 32768 n)
  | .gather n _ _ => .ring (Fin.ofNat 32768 n)
  | .slot c _ => .chiplet (Fin.ofNat 64 c)
  | .dropped => .side

/-- The window set of a mover: its ring's; a serving program's is that of the ring of its request; a route has none. -/
def State.moveSet (s : State) : RemoteUse → Option Nat
  | .flight n i => some (s.useWset n i)
  | .gather n i _ => some (s.useWset n i)
  | .slot c _ => if s.isServing c then (s.chip c).serve.map fun q => s.useWset q.1 q.2 else none
  | .dropped => none

/-- The mover uses the SERVE channels (R43). -/
def State.moveServes (s : State) : RemoteUse → Bool
  | .slot c _ => s.isServing c
  | _ => false

/-- Sends an access to another module and keeps it until it is answered. -/
def State.sendRemote (s : State) (r : Remote) : State :=
  let m : TorusMsg := if r.data.isEmpty then .read (BitVec.ofNat 48 r.off) r.len else .write (BitVec.ofNat 48 r.off) r.data
  ({ s with remote := s.remote ++ [r] }).route
    (s.newPacket false false (if r.serve then .serveRequest else .request) r.dev m) none

/-- What a move brings for host memory is discarded: its function has been reset, or nobody waits for it (R356). -/
def State.hostDiscards (s : State) : RemoteUse → Bool
  | .flight n _ => decide (32768 ≤ n) || (s.ring n).discard
  | .gather n _ _ => decide (32768 ≤ n) || (s.ring n).discard
  | .slot _ _ => false
  | .dropped => true

/-- Bytes reach their destination. -/
def State.putRow (s : State) (use : RemoteUse) (dest : MoveDest) (bs : List Byte) : State × Access :=
  match dest with
  | .none => (s, .done [])
  | .host die a => (if s.hostDiscards use then s else s.hostStore die a bs, .done [])
  | .mem a =>
    let r := s.fabricWrite use.who (s.moveSet use) a bs
    match r.2 with
    | .remote dev off => (r.1.sendRemote ⟨dev, off, s.moveServes use, use, .none, bs.length, bs⟩, .done [])
    | _ => r

/-- Where a row comes from: bytes at hand, or a global address. -/
inductive MoveSrc where
  | bytes (l : List Byte)
  | mem (a : Nat)
deriving DecidableEq, Repr

/-- A row: source, destination, length. -/
structure Row where
  src : MoveSrc
  dest : MoveDest
  len : Nat
deriving DecidableEq, Repr

/-- A read that meets an uncorrectable error on a serving chiplet goes on with undefined data (R162). -/
def State.softBad (s : State) (use : RemoteUse) (len : Nat) : Option (State × List Byte) :=
  match use with
  | .slot c _ =>
    if s.isServing c then
      let s1 := s.setChip c { s.chip c with uncorr := true }
      some ({ s1 with freeCount := s1.freeCount + len }, s1.freeBytes len)
    else none
  | _ => none

/-- A write that meets an uncorrectable burst: a serving chiplet's COPY goes on to its end (R162). -/
def softWrite (use : RemoteUse) (q : State × Access) : State × Access :=
  match q.2, q.1.softBad use 0 with
  | .bad, some t => (t.1, .done [])
  | _, _ => q

/-- Bytes of this module as a mover gets them: a serving program's working weights come from its serve buffer (R28). -/
def State.servedBytes (s : State) (use : RemoteUse) (ga : Nat) (bs : List Byte) : List Byte :=
  match use with
  | .slot c _ =>
    if (s.serveData c).isEmpty ∨ placeOf (ga % 2 ^ 48) = .regs then bs else (s.serveView c).load (ga % 2 ^ 48) bs.length
  | _ => bs

/-- Moves a row; `garble` makes its data undefined (R193, overlapping rows). -/
def State.moveRow (s : State) (use : RemoteUse) (garble : Bool) (r : Row) : State × Access :=
  let put (t : State) (bs : List Byte) : State × Access :=
    softWrite use (if garble then ({ t with freeCount := t.freeCount + r.len }).putRow use r.dest (t.freeBytes r.len)
      else t.putRow use r.dest bs)
  match r.src with
  | .bytes l => put s l
  | .mem a =>
    let g := s.fabricRead use.who (s.moveSet use) a r.len
    match g.2 with
    | .done bs => put g.1 (s.servedBytes use a bs)
    | .remote dev off => (g.1.sendRemote ⟨dev, off, s.moveServes use, use, r.dest, r.len, []⟩, .done [])
    | .bad =>
      match g.1.softBad use r.len with
      | some q => put q.1 q.2
      | none => g
    | _ => g

/-- Moves rows in order up to the first that fails: the state, the bytes moved and the failure. -/
def State.moveRows (s : State) (use : RemoteUse) (garble : Bool) (moved : Nat) : List Row → State × Nat × Option Access
  | [] => (s, moved, none)
  | r :: rs =>
    let m := s.moveRow use garble r
    match m.2 with
    | .done _ => m.1.moveRows use garble (moved + r.len) rs
    | a => (m.1, moved, some a)

/-- Some row would meet a fenced unit of this module: the request is refused before it has an effect (R359). -/
def State.rowsRefused (s : State) (who : Requester) (rs : List Row) : Bool :=
  rs.any fun r =>
    (match r.src with
      | .mem a => s.wouldRefuse who a r.len
      | .bytes _ => false)
    || (match r.dest with
      | .mem a => s.wouldRefuse who a r.len
      | _ => false)

/-! ### The rows of COPY-class descriptors (R193) -/

/-- The address of row i. -/
def rowAt (base stride i : Nat) : Nat := (base + i * stride) % 2 ^ 64

/-- The rows of a COPY or FILL descriptor. -/
def copyRows (d : List Byte) : List Row :=
  let len := cpLen d
  let pattern := (List.replicate (len / 8) (slice d 0x10 8)).flatten
  (List.range (cpRows d)).map fun i =>
    { src := if opOf d = 1 then .mem (rowAt (cpSrc d) (cpSrcStride d) i) else .bytes pattern
      dest := .mem (rowAt (cpDst d) (cpDstStride d) i), len := len }

/-- Source and destination of a COPY overlap. -/
def copyOverlaps (d : List Byte) : Bool :=
  opOf d == 1 && (List.range (cpRows d)).any fun i => (List.range (cpRows d)).any fun j =>
    overlaps (rowAt (cpSrc d) (cpSrcStride d) i) (cpLen d) (rowAt (cpDst d) (cpDstStride d) j) (cpLen d)

/-! ### How a move ends -/

/-- Accesses of a mover that other modules have still to answer. -/
def State.waitsRemote (s : State) (use : RemoteUse) : Bool := s.remote.any fun r => r.use == use

/-- What a mover still awaits from others is awaited no longer. -/
def State.dropRemote (s : State) (use : RemoteUse) : State :=
  { s with remote := s.remote.map fun (r : Remote) => if r.use = use then { r with use := .dropped } else r }

/-- A descriptor has done its work: it gets its status now, or once other modules have answered its writes. -/
def State.conclude (s : State) (n idx status detail : Nat) : State :=
  if s.waitsRemote (.flight n idx) then s.mapFlight n idx fun f => { f with outcome := (status, detail) }
  else s.finish n idx status detail

/-- A descriptor's accesses fail. -/
def State.failFlight (s : State) (n idx moved : Nat) : Access → State
  | .violation a => ((s.dropRemote (.flight n idx)).finish n idx 4 moved).freezeRing n (some idx) a
  | .refused =>
    if n < 32768 then (s.dropRemote (.flight n idx)).refuseFlight n idx else (s.dropRemote (.flight n idx)).finish n idx 1 moved
  | _ => (s.dropRemote (.flight n idx)).finish n idx 9 moved

/-- A descriptor's move ends, or goes on until other modules have answered. -/
def State.endFlight (s : State) (n idx moved : Nat) : Option Access → State
  | none => s.conclude n idx 0 moved
  | some a => s.failFlight n idx moved a

/-- A violation of a chiplet: of the ring whose request it serves, or its own (R188, R198). -/
def State.chipViolates (s : State) (c a : Nat) : State :=
  match (s.chip c).serve with
  | some (n, idx) => if s.isServing c then s.freezeRing n (some idx) a else s.freezeChip c a
  | none => s.freezeChip c a

/-- One operation fewer of a chiplet is out. -/
def State.opDone (s : State) (c : Nat) : State := s.setChip c { s.chip c with opsOut := (s.chip c).opsOut - 1 }

/-- A COPY slot's move ends: it adds 1 to its completion counter, or it fails. -/
def State.endSlotCopy (s : State) (c ctr : Nat) : Option Access → State
  | none => if s.waitsRemote (.slot c ctr) then s else s.sendSig ⟨ctr, .add 1, some c, []⟩
  | some (.violation a) => ((s.dropRemote (.slot c ctr)).opDone c).chipViolates c a
  | some _ =>
    if s.isServing c then ((s.dropRemote (.slot c ctr)).sendSig ⟨ctr, .add 1, some c, []⟩).chipUncorrectable c
    else ((s.dropRemote (.slot c ctr)).opDone c).chipUncorrectable c

/-! ### COPY and FILL -/

/-- The descriptor with rows runs. -/
def State.runFlight (s : State) (n idx : Nat) (garble : Bool) (rows : List Row) : State :=
  if s.rowsRefused (.ring (Fin.ofNat 32768 n)) rows then s.refuseFlight n idx
  else
    let m := (s.acceptFlight n idx none).moveRows (.flight n idx) garble 0 rows
    m.1.endFlight n idx m.2.1 m.2.2

/-- A COPY-class descriptor runs; one that breaks its encoding is a violation of the ring (R190, R197). -/
def State.runCopy (s : State) (n idx op : Nat) : State :=
  match s.flightOf n idx 1 op with
  | none => s
  | some f =>
    if s.waitsRemote (.flight n idx) then s
    else if copyBad f.bytes then s.freezeRing n (some idx) 0
    else s.runFlight n idx (copyOverlaps f.bytes) (copyRows f.bytes)

/-- COPY. -/
def execCopy (n : Fin 32768) (idx : BitVec 16) (s : State) : Host.Outcome State Fault Refusal :=
  .next (s.runCopy n idx.toNat 1)

/-- FILL. -/
def execFill (n : Fin 32768) (idx : BitVec 16) (s : State) : Host.Outcome State Fault Refusal :=
  .next (s.runCopy n idx.toNat 2)

/-! ### TO_HOST and FROM_HOST -/

/-- Fields of a HOST descriptor. -/
def hostAddr (d : List Byte) : Nat := fieldAt d 0x10 8
def hostLocal (d : List Byte) : Nat := fieldAt d 0x18 8
def hostLen (d : List Byte) : Nat := fieldAt d 0x20 4

/-- The status that PCIe's answer gives (R193). -/
def pcieStatus : PcieResult → Nat
  | .good => 0
  | .errorCompletion => 9
  | .timeout => 0xA

/-- The row of a HOST descriptor. Data for a function that has been reset is discarded (R356); after a PCIe error the
destination in module memory holds undefined data. -/
def State.hostRow (s : State) (n : Nat) (d : List Byte) (op : Nat) (r : PcieResult) : Row :=
  let die := s.ringDie n
  let len := hostLen d
  if op = 1 then
    { src := .mem (hostLocal d), len := len
      dest := if (s.ring n).discard ∨ r ≠ .good then .none else .host die (hostAddr d) }
  else
    { src := .bytes (if r = .good then s.hostLoad die (hostAddr d) len else s.freeBytes len)
      dest := .mem (hostLocal d), len := len }

/-- After a PCIe error the descriptor ends with its status; how many bytes had moved is left open. -/
def State.endHost (s : State) (n idx len : Nat) (r : PcieResult) (m : State × Nat × Option Access) : State :=
  match m.2.2 with
  | none =>
    if r = .good then m.1.endFlight n idx m.2.1 none
    else
      let t := { m.1.dropRemote (.flight n idx) with freeCount := s.freeCount + len }
      (t.finish n idx (pcieStatus r) (t.freeValue.toNat % 2 ^ 32)).nextFree
  | some a => m.1.endFlight n idx m.2.1 (some a)

/-- A HOST descriptor runs. -/
def State.runHost (s : State) (n idx op : Nat) (r : PcieResult) : State :=
  match s.flightOf n idx 7 op with
  | none => s
  | some f =>
    if s.waitsRemote (.flight n idx) then s
    else if hostLen f.bytes = 0 then s.freezeRing n (some idx) 0
    else
      let row := s.hostRow n f.bytes op r
      if s.rowsRefused (.ring (Fin.ofNat 32768 n)) [row] then s.refuseFlight n idx
      else s.endHost n idx row.len r ((s.acceptFlight n idx none).moveRows (.flight n idx) false 0 [row])

/-- TO_HOST. -/
def execToHost (n : Fin 32768) (idx : BitVec 16) (r : PcieResult) (s : State) : Host.Outcome State Fault Refusal :=
  .next (s.runHost n idx.toNat 1 r)

/-- FROM_HOST. -/
def execFromHost (n : Fin 32768) (idx : BitVec 16) (r : PcieResult) (s : State) : Host.Outcome State Fault Refusal :=
  .next (s.runHost n idx.toNat 2 r)

/-! ### COPY slots (R162, R171) -/

/-- A row reads RT_STEP_TAINT through the register space. -/
def State.rowReadsTaint (s : State) (r : Row) : Bool :=
  match r.src with
  | .mem a => decide (a / 2 ^ 48 = s.devnum) && overlaps (a % 2 ^ 48) r.len (regSpace + Reg.RT_STEP_TAINT) 4
  | .bytes _ => false

/-- The slice taint has been read (R171): by a COPY of a training chiplet while RT_SLICE.MODE is 1. -/
def State.noteTaintRead (s : State) (c : Nat) (rs : List Row) : State :=
  if s.flag Reg.RT_SLICE 8 ∧ !s.isServing c ∧ rs.any s.rowReadsTaint then { s with wp := { s.wp with taintRead := true } } else s

/-- The move of a COPY slot, as its bundle retires. -/
def State.runSlotCopy (s : State) (c ctr : Nat) (d : List Byte) : State :=
  let rows := if opOf d = 0 then [] else copyRows d
  let s1 := s.setChip c { s.chip c with opsOut := (s.chip c).opsOut + 1 }
  let m := s1.moveRows (.slot c ctr) (copyOverlaps d) 0 rows
  (m.1.endSlotCopy c ctr m.2.2).noteTaintRead c rows

end Sys2Proof.Machine
end

