-- ==== Sys2Proof/Machine/CipherWork.lean ====
section
/-! DEFINITION. Inputs that descriptors gather, and the CIPHER class: ENCRYPT, DECRYPT and the units of their work
(R52, R188, R315, R316, R320, R321). -/

namespace Sys2Proof.Machine

/-! ### Inputs that may lie in another module -/

/-- What a descriptor has fetched from another module. -/
def State.fetchedAt (s : State) (n idx a len : Nat) : Option (List Byte) :=
  (s.fetched.find? fun (f : Fetched) =>
    decide (f.ring = n) && decide (f.idx = idx) && decide (f.at_ = a) && decide (f.data.length = len)).map Fetched.data

/-- What a descriptor fetched is kept no longer. -/
def State.forgetFetched (s : State) (n idx : Nat) : State :=
  { s with fetched := s.fetched.filter fun (f : Fetched) => !(decide (f.ring = n) && decide (f.idx = idx)) }

/-- How the inputs of a descriptor stand. -/
inductive Gathered where
  | ready (l : List (List Byte))
  | waiting
  | failed (a : Access)
deriving DecidableEq, Repr

/-- Asks another module for a range, unless it has been asked or has answered. -/
def State.askRemote (s : State) (n idx : Nat) (r : Nat × Nat) : State :=
  match s.reach r.1 r.2 with
  | .pod dev off =>
    if !s.windowOk (some (s.useWset n idx)) r.1 r.2 false ∨ (s.fetchedAt n idx r.1 r.2).isSome
      ∨ s.waitsRemote (.gather n idx r.1) then s
    else s.sendRemote ⟨dev, off, false, .gather n idx r.1, .none, r.2, []⟩
  | _ => s

/-- Reads one input, from this module or from what was fetched. -/
def State.readInput (s : State) (n idx : Nat) (r : Nat × Nat) : State × Access :=
  if r.2 = 0 then (s, .done [])
  else
    let g := s.fabricRead (.ring (Fin.ofNat 32768 n)) (some (s.useWset n idx)) r.1 r.2
    match g.2 with
    | .remote dev off =>
      match s.fetchedAt n idx r.1 r.2 with
      | some bs => (s, .done bs)
      | none => (s, .remote dev off)
    | _ => g

/-- Reads the inputs in order. -/
def State.readInputs (s : State) (n idx : Nat) (got : List (List Byte)) : List (Nat × Nat) → State × Gathered
  | [] => (s, .ready got)
  | r :: rs =>
    let g := s.readInput n idx r
    match g.2 with
    | .done bs => g.1.readInputs n idx (got ++ [bs]) rs
    | .remote _ _ => (g.1, .waiting)
    | a => (g.1, .failed a)

/-- The inputs of a descriptor: those of other modules are asked for first, and the rest is read when all are there. -/
def State.gather (s : State) (n idx : Nat) (want : List (Nat × Nat)) : State × Gathered :=
  let s1 := want.foldl (fun (t : State) r => t.askRemote n idx r) s
  let missing : Bool := want.any fun r =>
    match s1.reach r.1 r.2 with
    | .pod _ _ => s1.windowOk (some (s1.useWset n idx)) r.1 r.2 false && (s1.fetchedAt n idx r.1 r.2).isNone
    | _ => false
  if missing then (s1, .waiting) else s1.readInputs n idx [] want

/-- Writes outputs in order, up to the first that fails; the number is that of the bytes before it. -/
def State.putAll (s : State) (n idx got : Nat) : List (Nat × List Byte) → State × Nat × Option Access
  | [] => (s, got, none)
  | w :: ws =>
    if w.2.isEmpty then s.putAll n idx got ws
    else
      let r := s.putRow (.flight n idx) (.mem w.1) w.2
      match r.2 with
      | .done _ => r.1.putAll n idx (got + w.2.length) ws
      | a => (r.1, got, some a)

/-! ### The descriptor (R320, R321) -/

/-- Fields of a CIPHER descriptor. -/
def cphSrc (d : List Byte) : Nat := fieldAt d 0x10 8
def cphDst (d : List Byte) : Nat := fieldAt d 0x18 8
def cphLen (d : List Byte) : Nat := fieldAt d 0x20 4
def cphMode (d : List Byte) : Nat := fieldAt d 0x26 1
def cphWriteIv (d : List Byte) : Bool := bitOf (fieldAt d 0x27 1) 0
def cphIv (d : List Byte) : Nat := fieldAt d 0x28 8
def cphAad (d : List Byte) : Nat := fieldAt d 0x30 8
def cphAadLen (d : List Byte) : Nat := fieldAt d 0x38 4

/-- The slot serves the ring's function. -/
def State.slotServes (s : State) (n slot : Nat) : Bool :=
  let k := s.keySlot slot
  decide (k.use = 1) && match s.ringOwner n with
    | some (d, i) => decide (k.owner = funcKey d i)
    | none => false

/-- The ranges a CIPHER descriptor reads: input, parameter block, additional data. -/
def cphReads (d : List Byte) : List (Nat × Nat) :=
  [(cphSrc d, cphLen d), (cphIv d, 32), (cphAad d, if cphMode d = 4 then cphAadLen d else 0)]

/-- The ranges it writes: output, and the chaining value or tag. -/
def cphWrites (d : List Byte) : List (Nat × Nat) :=
  [(cphDst d, cphLen d)]
    ++ (if cphMode d = 4 then (if opOf d = 1 then [(cphIv d + 16, 16)] else [])
        else if cphWriteIv d then [(cphIv d, 16)] else [])

/-- A violation at acceptance: slot, mode, length or windows. -/
def State.cphViolation (s : State) (n : Nat) (d : List Byte) : Option Nat :=
  let set := some (s.ringWset n)
  if !s.slotServes n (cphSlot d) ∨ cphMode d = 0 ∨ 4 < cphMode d ∨ (cphMode d = 1 ∧ cphLen d % 16 ≠ 0) then some 0
  else
    let bad (write : Bool) (r : Nat × Nat) : Bool :=
      r.2 != 0 && (!s.windowOk set r.1 r.2 write || s.reach r.1 r.2 == .outside)
    match (cphReads d).find? (bad false), (cphWrites d).find? (bad true) with
    | some r, _ => some (s.violationAt set r.1 r.2 false)
    | none, some r => some (s.violationAt set r.1 r.2 true)
    | none, none => none

/-- The chaining block as WRITE_IV writes it; a partial last segment of CFB leaves part of it open. -/
def State.lastBlock (s : State) (whole : List Byte) (text : List Byte) : List Byte :=
  let r := text.length % 16
  if r = 0 then whole else text.drop (text.length - r) ++ s.freeBytes (16 - r)

/-- What a CIPHER descriptor computes. -/
structure CipherOut where
  text : List Byte
  iv : List Byte
  tagOk : Bool
deriving DecidableEq, Repr

/-- The transform of a mode on input, parameter block and additional data. -/
def State.cipherOut (s : State) (d key src par aad : List Byte) : CipherOut :=
  let enc := decide (opOf d = 1)
  let iv := par.take 16
  match cphMode d with
  | 1 =>
    let r := cbcMode key iv enc src
    ⟨r.1, r.2, true⟩
  | 2 =>
    let r := cfbMode key iv enc src
    ⟨r.1, s.lastBlock r.2 (if enc then r.1 else src), true⟩
  | 3 =>
    let n := (src.length + 15) / 16
    ⟨ctrMode key inc128 (beNat iv) src, beBytes 16 ((beNat iv + n) % 2 ^ 128), true⟩
  | _ =>
    let iv12 := par.take 12
    let text := gcmText key iv12 src
    let tag := gcmTag key iv12 aad (if enc then text else src)
    ⟨text, tag, enc || tag == (par.drop 16).take 16⟩

/-- The outputs as they are written: undefined data after a tag mismatch, or where input and output overlap otherwise than
by being the same range. -/
def State.cipherWrites (s : State) (d : List Byte) (o : CipherOut) : List (Nat × List Byte) :=
  let spoilt := !o.tagOk || (cphSrc d != cphDst d && overlaps (cphSrc d) (cphLen d) (cphDst d) (cphLen d))
  let text := if spoilt then (s.freeBytes (cphLen d + 16)).drop 16 else o.text
  (cphDst d, text) :: ((cphWrites d).drop 1).map fun r => (r.1, o.iv)

/-- The end of a CIPHER descriptor whose outputs are written. -/
def State.endCipher (s : State) (n idx : Nat) (d : List Byte) (ok : Bool) : Option Access → State
  | none =>
    if ok then s.conclude n idx 0 (cphLen d)
    else ((s.tally (Reg.CPH_DESC_AUTH_FAIL (cphSlot d / 1024))).conclude n idx 7 (s.freeValue.toNat % 2 ^ 32)).nextFree
  | some a => (s.failFlight n idx (s.freeValue.toNat % 2 ^ 32) a).nextFree

/-- The engine takes a descriptor out of its queue. -/
def State.dropJob (s : State) (p n idx : Nat) : State :=
  let x := s.cipher p
  s.setCipher p { x with jobs := x.jobs.filter fun (j : CipherJob) => !(decide (j.ring = n) && decide (j.idx = idx)) }

/-- The key a descriptor works with: its slot's, or the one it had when its completion was lost (R356). -/
def State.jobKey (s : State) (n idx : Nat) (d : List Byte) : List Byte :=
  match s.ghost n idx with
  | some g => g.key
  | none => (s.keySlot (cphSlot d)).key

/-- All units of a descriptor are done: its inputs are read and its outputs written. -/
def State.cipherTry (s : State) (n idx : Nat) : State :=
  match s.openFlight n idx with
  | none => s
  | some f =>
    let d := f.bytes
    let p := cphSlot d / 1024
    let g := s.gather n idx (cphReads d)
    match g.2 with
    | .waiting => g.1
    | .failed a => ((g.1.dropJob p n idx).forgetFetched n idx).failFlight n idx 0 a
    | .ready [src, par, aad] =>
      let t := (g.1.dropJob p n idx).forgetFetched n idx
      let o := t.cipherOut d (t.jobKey n idx d) src par aad
      let w := ({ t with freeCount := t.freeCount + cphLen d + 16 }).putAll n idx 0 (t.cipherWrites d o)
      w.1.endCipher n idx d o.tagOk w.2.2
    | .ready _ => g.1

/-- Some range of the descriptor lies at a fenced unit of this module. -/
def State.cphRefused (s : State) (n : Nat) (d : List Byte) : Bool :=
  (cphReads d ++ cphWrites d).any fun r => r.2 != 0 && s.wouldRefuse (.ring (Fin.ofNat 32768 n)) r.1 r.2

/-- The engine of the slot's die takes a CIPHER descriptor into its queue; a full queue leaves it unstarted (R316). -/
def State.takeCipher (s : State) (n idx op : Nat) : State :=
  match s.flightOf n idx 4 op with
  | none => s
  | some f =>
    let d := f.bytes
    let p := cphSlot d / 1024
    let units := (cphLen d + 8191) / 8192
    if f.accepted then s
    else match s.cphViolation n d with
      | some a => s.freezeRing n (some idx) a
      | none =>
        if !s.serving (.farPort (Fin.ofNat 2 p)) ∨ !s.wardPowered 7 ∨ s.cphRefused n d then s.refuseFlight n idx
        else if 4096 ≤ (s.cipher p).jobs.length then s.holdFlight n idx
        else
          let x := s.cipher p
          let s1 := (s.acceptFlight n idx (some (unitNum (.farPort (Fin.ofNat 2 p))))).setCipher p
            { x with jobs := x.jobs ++ [⟨n, idx, cphSlot d, units, units, false⟩] }
          if units = 0 then s1.cipherTry n idx else s1

/-- ENCRYPT. -/
def execEncrypt (n : Fin 32768) (idx : BitVec 16) (s : State) : Host.Outcome State Fault Refusal :=
  .next (s.takeCipher n idx.toNat 1)

/-- DECRYPT. -/
def execDecrypt (n : Fin 32768) (idx : BitVec 16) (s : State) : Host.Outcome State Fault Refusal :=
  .next (s.takeCipher n idx.toNat 2)

/-- A unit of a descriptor is done; with the last one the descriptor ends. -/
def State.jobUnit (s : State) (p ring idx : Nat) : State :=
  let x := s.cipher p
  let js := x.jobs.map fun (j : CipherJob) => if j.ring = ring ∧ j.idx = idx then { j with open_ := j.open_ - 1 } else j
  let s1 := s.setCipher p { x with jobs := js }
  if js.any fun j => decide (j.ring = ring) && decide (j.idx = idx) && decide (j.open_ = 0) then s1.cipherTry ring idx else s1

/-- CIPHER_UNIT_DONE. The cycles a unit takes are not stated. -/
def execCipherUnitDone (p : Fin 2) (core : Fin 10) (s : State) : Host.Outcome State Fault Refusal :=
  let x := s.cipher p
  match x.core core with
  | none => .next s
  | some w =>
    let s1 := ((s.setCipher p (x.give core none)).count (Reg.CPH_CORE_BUSY p) s.freeValue.toNat).nextFree.progress (pgFP p) 1
    match w with
    | .descriptor r i => .next (s1.jobUnit p r i)
    | .transmit u => .next (s1.frameCoded p u)
    | .receive => .next s1

end Sys2Proof.Machine
end

