-- ==== Sys2Proof/Machine/CodecWork.lean ====
section
/-! DEFINITION. The CODEC class: COMPRESS and EXPAND (R282 to R288), and the answers of other modules to descriptors and
COPY slots. -/

namespace Sys2Proof.Machine

/-- Fields of a CODEC descriptor. -/
def cdcSrc (d : List Byte) : Nat := fieldAt d 0x10 8
def cdcDst (d : List Byte) : Nat := fieldAt d 0x18 8
def cdcLen (d : List Byte) : Nat := fieldAt d 0x20 4
def cdcMax (d : List Byte) : Nat := fieldAt d 0x24 4
def cdcTable (d : List Byte) : Nat := fieldAt d 0x28 2
def cdcStep (d : List Byte) : Nat := fieldAt d 0x28 4

/-- What a CODEC descriptor comes to: pieces to write in order, the size or CRC failure that ended it, whether the output
outgrew DST_MAX, how many DATA chunks went in raw form, and the tables met. -/
structure CodecOut where
  pieces : List (List Byte) := []
  size : Bool := false
  crc : Bool := false
  past : Bool := false
  escapes : Nat := 0
  tables : Map ChunkTable := []
deriving DecidableEq, Repr

/-- Bytes put out so far. -/
def CodecOut.total (o : CodecOut) : Nat := (o.pieces.map List.length).foldl (· + ·) 0

/-- The output takes another piece, unless DST_MAX is exceeded. -/
def CodecOut.put (o : CodecOut) (max : Nat) (bs : List Byte) : CodecOut :=
  if o.past then o
  else if max < o.total + bs.length then { o with past := true }
  else { o with pieces := o.pieces ++ [bs] }

/-! ### COMPRESS (R288) -/

/-- Records that R282 allows: whole, with ascending positions. -/
def soundRecords (src : List Byte) : Option (List BlockRec) :=
  match parseRecords src.length src with
  | none => none
  | some rs => if rs.all fun r => ascending r.pos then some rs else none

/-- The chunks of COMPRESS: the TABLE chunk of the section, whose tensor scale the descriptor does not give, then DATA
chunks under the exact value table. -/
def State.compressed (s : State) (d : List Byte) (rs : List BlockRec) : List Chunk :=
  let i := cdcTable d
  let x := s.sect i
  let n := rs.foldl (fun a r => a + r.pos.length) 0
  sectionPart i x.start x.params ⟨s.freeValue.setWidth 32, 0, riceK x.params n, exactLengths rs⟩ rs

/-- What COMPRESS puts out. Bytes that are no block records give undefined output. -/
def State.compressOut (s : State) (d src : List Byte) : CodecOut :=
  match soundRecords src with
  | none => ({} : CodecOut).put (cdcMax d) (s.freeBytes (cdcMax d))
  | some rs =>
    (s.compressed d rs).foldl (fun (o : CodecOut) c =>
      let p := o.put (cdcMax d) c.bytes
      if c.kind = 2 ∧ c.escape ∧ !p.past then { p with escapes := p.escapes + 1 } else p) {}

/-! ### EXPAND (R285, R287) -/

/-- One chunk of EXPAND: a TABLE chunk gives the table of its section, DATA and ANCHOR chunks give their raw data; a chunk
of another kind, or one without a sound table, is discarded. -/
def CodecOut.expand (o : CodecOut) (max : Nat) (c : Chunk) : CodecOut :=
  if o.size ∨ o.crc ∨ o.past then o
  else match c.expand ((Map.find o.tables c.table).filter ChunkTable.sound) with
    | .size => { o with size := true }
    | .crc => { o with crc := true }
    | .bad => o
    | .ok raw =>
      if c.kind = 1 then { o with tables := Map.set o.tables c.table (chunkTable raw) }
      else if c.kind = 2 ∨ c.kind = 3 then o.put max raw
      else o

/-- What EXPAND puts out; coded bytes that end within a chunk are a SIZE_FAULT. -/
def expandOut (d src : List Byte) : CodecOut :=
  let r := splitChunks (src.length + 1) src
  let o := r.1.foldl (fun (o : CodecOut) c => o.expand (cdcMax d) c) {}
  if r.2.isEmpty ∨ o.crc ∨ o.past then o else { o with size := true }

/-! ### The descriptor -/

/-- The step signals of EXPAND: one add for each STEP_BYTES written. -/
def State.stepSignals (s : State) (d : List Byte) (n : Nat) : State :=
  if opOf d = 2 ∧ cdcStep d ≠ 0 then iterate (fun (t : State) => t.sigArrive (ctrOf d) (.add 1)) (n / cdcStep d) s else s

/-- The bytes of EXPAND are written, those before a failing write among them (R288); where another module has still to answer,
their signals wait for it (R45). -/
def State.stepsDone (s : State) (n idx : Nat) (d : List Byte) (bytes : Nat) : State :=
  if s.waitsRemote (.flight n idx) then s.mapFlight n idx fun f => { f with steps := bytes } else s.stepSignals d bytes

/-- The codec engine's counters after a descriptor with n bytes of raw data (R368). How long its queue stood empty is not stated. -/
def State.codecCounts (s : State) (k n : Nat) (o : CodecOut) : State :=
  let s1 := (s.count (Reg.CODEC_ESCAPES k) o.escapes).progress (pgCODEC k) (n / 4096)
  let s2 := if o.size then s1.tally (Reg.CODEC_SIZE_FAULT k) else s1
  let s3 := if o.crc then s2.tally (Reg.CODEC_CRC_FAIL k) else s2
  (s3.count (Reg.CODEC_STALL_CYCLES k) s3.freeValue.toNat).nextFree

/-- The end of a CODEC descriptor whose output is written: SIZE_FAULT, of a chunk or past DST_MAX, and a CRC failure are a
data-path fault too (R287, R288). -/
def State.endCodec (s : State) (n idx k : Nat) (o : CodecOut) : Option Access → State
  | some a => (s.failFlight n idx (s.freeValue.toNat % 2 ^ 32) a).nextFree
  | none =>
    if o.size ∨ o.crc ∨ o.past then (s.conclude n idx 3 o.total).jobFault 8 (some (codecUnit k))
    else s.conclude n idx 0 o.total

/-- Addresses of pieces written one behind the other. -/
def placed (a : Nat) : List (List Byte) → List (Nat × List Byte)
  | [] => []
  | p :: ps => (a, p) :: placed (a + p.length) ps

/-- The engine works on a descriptor whose input may be at hand. -/
def State.codecTry (s : State) (n idx k : Nat) (d : List Byte) : State :=
  let g := s.gather n idx [(cdcSrc d, cdcLen d)]
  match g.2 with
  | .waiting => g.1
  | .failed a => (g.1.forgetFetched n idx).failFlight n idx 0 a
  | .ready bs =>
    let src := bs.flatten
    let t := g.1.forgetFetched n idx
    let o := if opOf d = 1 then t.compressOut d src else expandOut d src
    let t1 := if opOf d = 1 then { t with freeCount := t.freeCount + max 1 (cdcMax d) } else t
    let w := (t1.codecCounts k (if opOf d = 1 then cdcLen d else o.total) o).putAll n idx 0 (placed (cdcDst d) o.pieces)
    (w.1.stepsDone n idx d w.2.1).endCodec n idx k o w.2.2

/-- The signal counter of STEP_BYTES lies outside the ring's window (R191). -/
def State.stepForbidden (s : State) (n : Nat) (d : List Byte) : Bool :=
  opOf d == 2 && cdcStep d != 0 && !s.sigAllowed n (ctrOf d)

/-- A codec engine takes a descriptor; a fenced one refuses it. -/
def State.takeCodec (s : State) (n idx k op : Nat) : State :=
  match s.flightOf n idx 2 op with
  | none => s
  | some f =>
    let d := f.bytes
    if f.accepted then s
    else if s.stepForbidden n d then s.freezeRing n (some idx) 0
    else if !s.serving (codecUnit k) ∨ s.wouldRefuse (.ring (Fin.ofNat 32768 n)) (cdcSrc d) (max 1 (cdcLen d)) then s.refuseFlight n idx
    else if !s.codecWorks k then s
    else (s.acceptFlight n idx (some (unitNum (codecUnit k)))).codecTry n idx k d

/-- COMPRESS. -/
def execCompress (n : Fin 32768) (idx : BitVec 16) (k : Fin 32) (s : State) : Host.Outcome State Fault Refusal :=
  .next (s.takeCodec n idx.toNat k 1)

/-- EXPAND. -/
def execExpand (n : Fin 32768) (idx : BitVec 16) (k : Fin 32) (s : State) : Host.Outcome State Fault Refusal :=
  .next (s.takeCodec n idx.toNat k 2)

/-! ### Other modules' answers -/

/-- A descriptor goes on after an answer to one of its reads. -/
def State.resumeFlight (s : State) (n idx : Nat) (f : Flight) : State :=
  if s.useClass n idx = 4 then s.cipherTry n idx
  else if s.useClass n idx = 2 then
    match f.unit with
    | some u => s.codecTry n idx (u - 113) f.bytes
    | none => s
  else s

/-- The signals of an EXPAND whose writes have been answered. -/
def State.lateSteps (s : State) (n idx bytes : Nat) (f : Flight) : State :=
  if s.useClass n idx = 2 then s.stepSignals f.bytes bytes else s

/-- A descriptor's answers are all in: it ends as it was to end; a plain move with the bytes it moved. -/
def State.settleFlight (s : State) (n idx : Nat) (f : Flight) : State :=
  if s.waitsRemote (.flight n idx) then s
  else (s.lateSteps n idx f.steps f).finish n idx f.outcome.1 f.outcome.2

/-- The bytes of an EXPAND before a write that another module has answered with an error. -/
def stepsBefore (f : Flight) (r : Remote) : Nat := min f.steps (r.dev * 2 ^ 48 + r.off - cdcDst f.bytes)

/-- A mover's access has been answered. -/
def State.endUse (s : State) (r : Remote) (a : Option Access) (bs : List Byte) : State :=
  match r.use with
  | .flight n idx =>
    match s.openFlight n idx, a with
    | some f, none => s.settleFlight n idx f
    | some f, some x => (s.lateSteps n idx (stepsBefore f r) f).failFlight n idx f.outcome.2 x
    | none, _ => s
  | .gather n idx at_ =>
    match s.openFlight n idx, a with
    | some f, none => State.resumeFlight { s with fetched := s.fetched ++ [⟨n, idx, at_, bs⟩] } n idx f
    | some _, some x => (s.forgetFetched n idx).failFlight n idx 0 x
    | none, _ => s
  | .slot c ctr => s.endSlotCopy c ctr a
  | .dropped => s

/-- How an answer's status ends an access. -/
def answerOf (r : Remote) (status : Nat) : Access :=
  if status = 4 then .violation (r.dev * 2 ^ 48 + r.off) else if status = 1 then .refused else .bad

/-- An access of a mover that another module has answered with an error: a COPY slot that was refused sends it again (R359); one of
a serving chiplet that met an uncorrectable error goes on, with undefined data where it read (R162). -/
def State.remoteError (s : State) (r : Remote) (status : Nat) (bs : List Byte) : State :=
  match r.use, answerOf r status, s.softBad r.use r.len with
  | .slot _ _, .refused, _ => s.sendRemote r
  | .slot _ _, .bad, some q =>
    let p := softWrite r.use (q.1.putRow r.use r.dest q.2)
    match p.2 with
    | .done _ => p.1.endUse r none bs
    | a => p.1.endUse r (some a) bs
  | _, a, _ => s.endUse r (some a) bs

/-- A response from another module answers the oldest access to it on its channel (R255). -/
def State.takeResponse (s : State) (dev : Nat) (serve : Bool) (status : Nat) (bs : List Byte) : State :=
  match s.remote.find? fun r => decide (r.dev = dev) && (r.serve == serve) with
  | none => s
  | some r =>
    let s1 := { s with remote := s.remote.erase r }
    if status = 0 then
      let q : State × Access := if r.use = .dropped then (s1, .done []) else softWrite r.use (s1.putRow r.use r.dest bs)
      match q.2 with
      | .done _ => q.1.endUse r none bs
      | a => q.1.endUse r (some a) bs
    else s1.remoteError r status bs

/-- The status with which this module answers another's access. -/
def accessStatus : Access → Nat
  | .done _ => 0
  | .bad => 9
  | .violation _ => 4
  | .refused => 1
  | .remote _ _ => 4

/-- The bytes of an answer. -/
def accessBytes : Access → List Byte
  | .done bs => bs
  | _ => []

/-- Ebsia carries an access between the link die it came by, the places it names, and the link die that its answer leaves by
(R42, R252). -/
def State.torusServes (s : State) (l dev off n : Nat) : Bool :=
  let out := match s.exitLink dev with
    | some m => linkBase m
    | none => linkBase l
  (placesOf off n 80).all fun a => (placeDies a).isEmpty || (placeDies a).any fun d => s.meshServes (linkBase l) d && s.meshServes d out

/-- Another module's access is served with PF0's rights and answered. -/
def State.serveRemote (s : State) (l dev : Nat) (serve : Bool) (off : Nat) (op : MemOp) : State :=
  let n := match op with
    | .read n => n
    | .write bs => bs.length
  let r : State × Access := if n = 0 ∨ !populated off n then (s, .violation off)
    else if !s.torusServes l dev off n then (s, .refused)
    else match op with
    | .read n => s.localRead .side off n
    | .write bs => s.localWrite .side off bs
  let t := if r.2 = .refused then r.1.refuse else r.1
  t.route (t.newPacket false false (if serve then .serveResponse else .response) dev
    (.response (accessStatus r.2) (accessBytes r.2))) none

end Sys2Proof.Machine
end

