-- ==== Sys2Proof/Machine/Coll.lean ====
section
/-! DEFINITION. The collective unit and the packets that reach a module: injections, reduce-scatter, fetch, broadcast,
flag OR and permute (R168, R255, R257, R259 to R264). -/

namespace Sys2Proof.Machine

/-! ### Entries of the collective table -/

/-- Entry e of the table is in use. -/
def State.collInUse (s : State) (e : Nat) : Bool := decide (e < collCount (s.reg Reg.TOR_COLL_BASE))
/-- The 64 bytes of an entry. -/
def State.collBytes (s : State) (e : Nat) : List Byte := s.load (s.reg Reg.TOR_COLL_BASE / 65536 * 65536 + 64 * e) 64
/-- The state of an entry. -/
def State.coll (s : State) (e : Nat) : CollEntry := Map.get (fun _ => {}) s.colls e
/-- Replaces the state of an entry. -/
def State.setColl (s : State) (e : Nat) (c : CollEntry) : State := { s with colls := Map.put (fun _ => {}) s.colls e c }

/-- A counter field: base die × 4096 + counter. -/
def collCtr (b : List Byte) (off : Nat) : Nat := fieldAt b off 2 % 0x4000
def collOp (b : List Byte) : Nat := fieldAt b 0 1
def collTiles (b : List Byte) : Nat := fieldAt b 8 4
def collSrc (b : List Byte) : Nat := fieldAt b 0x10 8
def collDst (b : List Byte) : Nat := fieldAt b 0x18 8
def collRemote (b : List Byte) : Nat := fieldAt b 0x20 8

/-- The entry runs over an axis. -/
def collOver (b : List Byte) (a : Nat) : Bool := bitOf (fieldAt b 1 1) a
/-- The axes of the entry in order; an entry over no axis has one stage of one member. -/
def collAxes (b : List Byte) : List Nat :=
  let l := [0, 1, 2].filter fun a => collOver b a
  if l.isEmpty then [0] else l

/-- Members of a line along an axis. -/
def State.lineLen (s : State) (b : List Byte) (a : Nat) : Nat := if collOver b a then s.sliceExtent a else 1
/-- This member's position on its line. -/
def State.linePos (s : State) (b : List Byte) (a : Nat) : Nat :=
  if collOver b a then coordOf s.ownIndex a - s.sliceOrigin a else 0
/-- The device number of a position on this member's line. -/
def State.lineMember (s : State) (a pos : Nat) : Nat :=
  s.devnum / 1024 * 1024 + withCoord s.ownIndex a (s.sliceOrigin a + pos)
/-- The device numbers of the other members of the slice. -/
def State.otherMembers (s : State) : List Nat :=
  ((List.range (s.sliceExtent 2)).flatMap fun z => (List.range (s.sliceExtent 1)).flatMap fun y =>
    (List.range (s.sliceExtent 0)).map fun x =>
      s.devnum / 1024 * 1024 + (s.sliceOrigin 0 + x) + 16 * (s.sliceOrigin 1 + y) + 128 * (s.sliceOrigin 2 + z)).filter
    fun d => decide (d ≠ s.devnum)

/-- The collective unit takes messages of entries it has accepted: a drain lets them finish (R358). -/
def State.collAlive (s : State) : Bool :=
  s.wardPowered 6 && (s.serving .coll || (decide ((s.unit .coll).phase = .draining) && !s.clockOff 6)) && !(s.unit .coll).frozen

/-- The collective unit goes on with entries: its ward's clock runs. -/
def State.collWorks (s : State) : Bool := s.collAlive && s.clockRuns 6

/-- The entry is at work. -/
def CollEntry.open_ (c : CollEntry) : Bool := c.started.isSome && !c.done && !c.failed
/-- The entry is idle. -/
def CollEntry.idle (c : CollEntry) : Bool := c.started.isNone && !c.done && !c.failed

/-! ### Ends of an entry (R45, R259, R263) -/

/-- An entry fails: the first one is recorded, the event is raised, and it is a data-path fault. -/
def State.collFail (s : State) (e cause : Nat) : State :=
  let s1 := s.setColl e { s.coll e with failed := true }
  let s2 := if s1.flag Reg.TOR_COLL_STATUS 31 then s1 else s1.setReg Reg.TOR_COLL_STATUS (2 ^ 31 + cause * 2 ^ 28 + e % 1024)
  ((s2.tally Reg.TOR_COLL_FAIL).raise pgPOD 8).jobFault 7 (some .coll)

/-- An entry completes: DONE_VALUE is added to DONE_COUNTER, behind the writes of results that region units have still to answer
(R45); a PERMUTE returns to idle. -/
def State.collDone (s : State) (e : Nat) (b : List Byte) : State :=
  let s1 := s.setColl e (if collOp b = 5 then {} else { s.coll e with done := true })
  let o : SigOp := ⟨collCtr b 2, .add (fieldAt b 4 2), none, s1.accNet.filter fun w => w.writer == .coll⟩
  let s2 := s1.tally Reg.TOR_COLL_DONE
  if o.after.isEmpty then s2.sigArrive o.ctr o.act else s2.sendSig o

/-! ### Accesses of the unit (R263) -/

/-- The window set of the unit. -/
def State.collSet (s : State) : Option Nat := some (s.fld Reg.TOR_WSET 9 0)

/-- An access of the unit that did not end well: a violation freezes it. The manual gives an entry no effect of an
uncorrectable read; it goes on waiting. -/
def State.collBad (s : State) : Access → State
  | .violation a => s.freezeColl a
  | .refused => s.refuse
  | _ => s

/-- Reads at a local offset. -/
def State.collRead (s : State) (off n : Nat) : State × Option (List Byte) :=
  let r := s.fabricRead .coll s.collSet (s.globalOf off) n
  match r.2 with
  | .done bs => (r.1, some bs)
  | a => (r.1.collBad a, none)

/-- Writes at a local offset; tells whether it was done. -/
def State.collWrite (s : State) (off : Nat) (bs : List Byte) : State × Bool :=
  if bs.isEmpty then (s, true)
  else
    let r := s.fabricWrite .coll s.collSet (s.globalOf off) bs
    match r.2 with
    | .done _ => (r.1, true)
    | a => (r.1.collBad a, false)

/-- A collective packet leaves for a module. -/
def State.sendColl (s : State) (ch : Chan) (dest : Nat) (void : Bool) (m : TorusMsg) : State :=
  s.route (s.newPacket true void ch dest m) none

/-- A collective packet leaves for a position on a line of this member, in a given direction. -/
def State.sendLine (s : State) (a : Nat) (minus : Bool) (pos : Nat) (void : Bool) (m : TorusMsg) : State :=
  s.route { s.newPacket true void .request (s.lineMember a pos) m with dir := BitVec.ofNat 3 (boolNat minus * 2 ^ a) } none

/-! ### Start (R257, R261) -/

/-- The entry's START_COUNTER has reached START_VALUE. -/
def State.collGate (s : State) (b : List Byte) : Bool :=
  decide (fieldAt b 0x30 4 ≤ (s.sig (collCtr b 0x2C)).toNat)

/-- A command that starts an entry with an operation: an entry whose OP is no operation fails with cause 2, one on a
module outside a valid slice with cause 3. -/
def State.collStart (s : State) (e op : Nat) (f : List Byte → State → State) : State :=
  let b := s.collBytes e
  let c := s.coll e
  if !s.collWorks ∨ !s.serving .coll ∨ !s.collInUse e ∨ !c.idle ∨ (op ≠ 1 ∧ !s.collGate b) then s
  else if 5 < collOp b then s.collFail e 2
  else if collOp b ≠ op then s
  else if !s.inSlice s.devnum then s.collFail e 3
  else f b (s.setColl e { c with started := some s.now })

/-! ### INJECTION and REDUCE_SCATTER (R168, R259, R260) -/

/-- A tile is injected: it lands in the injection buffer and the entry records it; a void leaves the buffer as it was. -/
def State.injectTile (s : State) (e t : Nat) (data : Option (List Word)) : State :=
  let c := s.coll e
  if c.present.any fun p => p.1 == t then s.tally Reg.TOR_SLICE_VIOL
  else
    let r : State × Bool := match data with
      | some l => s.collWrite (collSrc (s.collBytes e) + 4096 * t) (laneBytes l)
      | none => (s, true)
    if r.2 then r.1.setColl e { r.1.coll e with present := c.present ++ [(t, data.isNone)] } else r.1

/-- INJECTION: the i-th chain end on its way reaches the collective unit, behind every earlier one of its chiplet (R44); a slot
of no entry is discarded. -/
def execInjection (i : Nat) (s : State) : Host.Outcome State Fault Refusal :=
  match s.injects[i]? with
  | none => .next s
  | some j =>
    if !s.collWorks ∨ ((s.injects.take i).any fun v => v.chiplet == j.chiplet) then .next s
    else
      let s1 := { s with injects := s.injects.eraseIdx i }
      let e := j.slot / 2 ^ 32
      .next (if s.collInUse e then s1.injectTile e (j.slot % 2 ^ 32) j.data else s1)

/-- Members of the slice, and so shards of an entry. -/
def State.sliceSize (s : State) : Nat := s.sliceExtent 0 * s.sliceExtent 1 * s.sliceExtent 2

/-- The slice-relative index of this member. -/
def State.ownShard (s : State) : Nat :=
  let rel (a : Nat) : Nat := coordOf s.ownIndex a - s.sliceOrigin a
  rel 0 + s.sliceExtent 0 * (rel 1 + s.sliceExtent 1 * rel 2)

/-- The coordinate of a shard on an axis of the entry: k = x + dx × (y + dy × z). -/
def State.shardCoord (s : State) (b : List Byte) (k a : Nat) : Nat :=
  if !collOver b a then 0
  else (if a = 0 then k else if a = 1 then k / s.sliceExtent 0 else k / (s.sliceExtent 0 * s.sliceExtent 1)) % s.sliceExtent a

/-- The member still holds the shard at the stage of an axis: on every axis of the entry before it, the shard's coordinate is
the member's. -/
def State.holdsShard (s : State) (b : List Byte) (k a : Nat) : Bool :=
  decide (k < s.sliceSize) && (((collAxes b).takeWhile fun x => x != a).all fun x =>
    decide (s.shardCoord b k x = s.linePos b x))

/-- Tiles that this member has to add over all stages: at each, the shards that it still holds. -/
def State.collTasks (s : State) (b : List Byte) : Nat :=
  let ax := collAxes b
  ((List.range ax.length).foldl (fun n i =>
    n + s.sliceSize / (ax.take i).foldl (fun m a => m * s.lineLen b a) 1) 0) * collTiles b

/-- REDUCE_SCATTER: the reduction starts once a tile of it is present. -/
def execReduceScatter (e : Fin 1024) (s : State) : Host.Outcome State Fault Refusal :=
  let c := s.coll e
  if c.present.isEmpty ∧ c.recv.isEmpty ∧ collTiles (s.collBytes e) ≠ 0 then .next s
  else .next (s.collStart e 1 fun b t =>
    if 1 < fieldAt b 0x0C 1 then t.collFail e 2
    else if collTiles b = 0 then t.collDone e b
    else t)

/-- The running sum that has reached this member for a tile. -/
def CollEntry.received (c : CollEntry) (a k t : Nat) (high : Bool) : Option (Option (List Word)) :=
  (c.recv.find? fun r => r.axis == a && r.shard == k && r.t == t && r.high == high).map CollRecv.value

/-- The member's own tile at a stage: its injected one at first, later the sum of the stage before. -/
def State.ownTile (s : State) (e : Nat) (b : List Byte) (a k t : Nat) : State × Option (Option (List Word)) :=
  let c := s.coll e
  match ((collAxes b).takeWhile fun x => x != a).getLast? with
  | none =>
    let i := k * collTiles b + t
    match c.present.find? fun p => p.1 == i with
    | none => (s, none)
    | some p =>
      if p.2 then (s, some none)
      else
        let r := s.collRead (collSrc b + 4096 * i) 4096
        (r.1, r.2.map fun bs => some (bytesLanes bs))
  | some q => (s, (c.sums.find? fun r => r.axis == q && r.shard == k && r.t == t).map CollRecv.value)

/-- Where a tile's sum goes after this member: on along the line (position, direction, chain), or nowhere further. -/
inductive TileNext where
  | on (pos : Nat) (minus high : Bool)
  | stay
deriving DecidableEq, Repr

/-- The order of R260 for a shard kept at position d: the sum this member makes of its own tile and what has come, and
where it goes; nothing while a part is missing. -/
def tileSum (wrap : Bool) (n d me t : Nat) (own : Option (List Word)) (low high : Option (Option (List Word))) :
    Option (Option (List Word) × TileNext) :=
  if wrap then
    let minus := decide (t % 2 = 1)
    let pos := if minus then (d + n - 1 - me) % n else (me + n - d + n - 1) % n
    let nxt := if pos + 1 = n then TileNext.stay else .on (if minus then (me + n - 1) % n else (me + 1) % n) minus false
    if pos = 0 then some (own, nxt) else low.map fun r => (chainAdd r own, nxt)
  else if me < d then
    if me = 0 then some (own, .on (me + 1) false false) else low.map fun r => (chainAdd r own, .on (me + 1) false false)
  else if d < me then
    if me + 1 = n then some (own, .on (me - 1) true true) else high.map fun r => (chainAdd r own, .on (me - 1) true true)
  else
    let l := if d = 0 then some own else low.map fun r => chainAdd r own
    match l with
    | none => none
    | some x => if d + 1 = n then some (x, .stay) else high.map fun h => (chainAdd x h, .stay)

/-- The result tile is written: a void one leaves memory as it was, and is carried to the region (R168). -/
def State.writeResult (s : State) (b : List Byte) (t : Nat) (v : Option (List Word)) : State × Bool :=
  if fieldAt b 0x0C 1 = 0 then
    match v with
    | some l => s.collWrite (collDst b + 4096 * t) (laneBytes l)
    | none => (s, true)
  else
    let r := fieldAt b 0x0D 1
    let w : AccWrite := ⟨r / 32 % 4, r % 32, collDst b + t, s.reg Reg.WPC_WAYPOINT % 2 ^ 48, fieldAt b 6 2, v, .coll, 0, 0⟩
    let at_ := s.globalOf (s.blockAt w.die w.region w.block)
    if s.windowOk s.collSet at_ 4096 true then ({ s with accNet := s.accNet ++ [w] }, true) else (s.freezeColl at_, false)

/-- One tile of an entry has been dealt with; after the last the entry is done. -/
def State.tileDone (s : State) (e : Nat) (b : List Byte) (a k t : Nat) : State :=
  let c := s.coll e
  let s1 := (s.setColl e { c with tasks := c.tasks ++ [(a, k, t)] }).progress pgPOD 1
  if s.collTasks b ≤ c.tasks.length + 1 then s1.collDone e b else s1

/-- A sum is forwarded, kept for the next axis or written. Where AXES leaves out an axis of the slice, a member ends with the
sums of more shards than its own, for which R260 gives no place: they are written nowhere (DESIGN CHOICE: assumption 44). -/
def State.passTile (s : State) (e : Nat) (b : List Byte) (a k t : Nat) (v : Option (List Word)) : TileNext → State
  | .on pos minus high =>
    ((s.tallyIf v.isNone Reg.TOR_VOID_FWD).sendLine a minus pos v.isNone
      (.tile (Fin.ofNat 1024 e) (Fin.ofNat 3 a) k t high (v.getD []))).tileDone e b a k t
  | .stay =>
    if (collAxes b).getLast? = some a ∧ k ≠ s.ownShard then s.tileDone e b a k t
    else if (collAxes b).getLast? = some a then
      let r := s.writeResult b t v
      if r.2 then (r.1.tallyIf v.isNone Reg.TOR_VOID_FWD).tileDone e b a k t else r.1
    else
      let c := s.coll e
      (s.setColl e { c with sums := c.sums ++ [⟨a, k, t, false, v⟩] }).tileDone e b a k t

/-- COLLECTIVE_TILE: tile t of a shard at the stage of an axis, once what it needs is present. -/
def execCollectiveTile (e : Fin 1024) (axis : Fin 3) (shard t : Nat) (s : State) : Host.Outcome State Fault Refusal :=
  let b := s.collBytes e
  let c := s.coll e
  let a := axis.val
  if !s.collWorks ∨ !s.collInUse e ∨ collOp b ≠ 1 ∨ !c.open_ ∨ !(collAxes b).contains a ∨ !s.holdsShard b shard a
      ∨ collTiles b ≤ t ∨ c.tasks.contains (a, shard, t) then .next s
  else
    let r := s.ownTile e b a shard t
    match r.2 with
    | none => .next r.1
    | some own =>
      match tileSum (collOver b a && s.spansAxis a) (s.lineLen b a) (s.shardCoord b shard a) (s.linePos b a) t own
          (c.received a shard t false) (c.received a shard t true) with
      | none => .next s
      | some q => .next (r.1.passTile e b a shard t q.1 q.2)

/-! ### FETCH (R261, R223) -/

/-- The data of a FETCH arrives: it is written at DST, and the entry is done. -/
def State.takeFetch (s : State) (e : Nat) (bs : List Byte) : State :=
  let b := s.collBytes e
  if collOp b ≠ 2 ∨ !(s.coll e).open_ ∨ bs.length ≠ 4096 * collTiles b then s
  else
    let r := s.collWrite (collDst b) bs
    if r.2 then (r.1.progress pgPOD (collTiles b)).collDone e b else r.1

/-- FETCH: the request goes to the owner, or is held here where this module is the owner. -/
def execFetch (e : Fin 1024) (s : State) : Host.Outcome State Fault Refusal :=
  .next (s.collStart e 2 fun b t =>
    let dev := collRemote b / 2 ^ 48
    let src := collRemote b % 2 ^ 48
    if !t.inSlice dev then t.collFail e 3
    else if !t.windowOk t.collSet (collRemote b) (4096 * collTiles b) false then t.freezeColl (collRemote b)
    else if dev = t.devnum then
      { t with fetches := t.fetches ++ [⟨e, dev, src, collTiles b, collCtr b 0x0E, fieldAt b 0x28 4, t.now⟩] }
    else t.sendColl .request dev false
      (.fetchReq e (BitVec.ofNat 48 src) (collTiles b) (BitVec.ofNat 14 (collCtr b 0x0E)) (BitVec.ofNat 32 (fieldAt b 0x28 4))))

/-- The owner answers a held FETCH; each tile served is progress (R368). -/
def State.serveFetch (s : State) (i : Nat) (h : HeldFetch) : State :=
  let r : State × Option (List Byte) := if h.tiles = 0 then (s, some []) else s.collRead h.src (4096 * h.tiles)
  match r.2 with
  | none => r.1
  | some bs =>
    let s1 := { r.1 with fetches := r.1.fetches.eraseIdx i }.progress pgPOD h.tiles
    if h.dev = s.devnum then s1.takeFetch h.entry bs
    else s1.sendColl .response h.dev false (.fetchData (Fin.ofNat 1024 h.entry) bs)

/-- FETCH_SERVE: the i-th held FETCH, once its gate counter has reached its value. -/
def execFetchServe (i : Nat) (s : State) : Host.Outcome State Fault Refusal :=
  match s.fetches[i]? with
  | none => .next s
  | some h => .next (if s.collWorks ∧ h.value ≤ (s.sig h.gate).toNat then s.serveFetch i h else s)

/-! ### BROADCAST (R261) -/

/-- Data goes on along the line of an axis in one direction, as far as the slice reaches. -/
def State.castOn (s : State) (e : Nat) (a : Nat) (minus : Bool) (bs : List Byte) : State :=
  let p := coordOf s.ownIndex a - s.sliceOrigin a
  let m : TorusMsg := .bcastData (Fin.ofNat 1024 e) (Fin.ofNat 3 a) minus bs
  if minus then (if p = 0 then s else s.sendLine a true (p - 1) false m)
  else if p + 1 < s.sliceExtent a then s.sendLine a false (p + 1) false m else s

/-- Data goes out both ways along the entry's axes from a given one on. -/
def State.castFrom (s : State) (e : Nat) (b : List Byte) (a : Nat) (bs : List Byte) : State :=
  ([0, 1, 2].filter fun x => collOver b x && decide (a ≤ x)).foldl (fun t x => (t.castOn e x false bs).castOn e x true bs) s

/-- A member writes the data at DST, and its entry is done. -/
def State.castHere (s : State) (e : Nat) (b : List Byte) (bs : List Byte) : State :=
  let r := s.collWrite (collDst b) bs
  if r.2 then (r.1.progress pgPOD (collTiles b)).collDone e b else r.1

/-- Data that came along an axis is forwarded and written. -/
def State.castTake (s : State) (e : Nat) (b : List Byte) (a : Nat) (minus : Bool) (bs : List Byte) : State :=
  ((s.castOn e a minus bs).castFrom e b (a + 1) bs).castHere e b bs

/-- BROADCAST: the root sends; another member takes what has come for it, or waits. -/
def execBroadcast (e : Fin 1024) (s : State) : Host.Outcome State Fault Refusal :=
  .next (s.collStart e 3 fun b t =>
    let root := collRemote b % 65536
    if !t.inSlice root then t.collFail e 3
    else if root = t.devnum then
      let r : State × Option (List Byte) := if collTiles b = 0 then (t, some []) else t.collRead (collSrc b) (4096 * collTiles b)
      match r.2 with
      | none => r.1
      | some bs => (r.1.castFrom e b 0 bs).castHere e b bs
    else match (t.coll e).early with
      | some (a, minus, bs) => t.castTake e b a minus bs
      | none => t)

/-! ### FLAG_OR (R261) -/

/-- This member's word goes to the other members of its line on an axis. -/
def State.castFlags (s : State) (e : Nat) (b : List Byte) (a : Nat) (w : DWord) : State :=
  ((List.range (s.lineLen b a)).filter fun p => decide (p ≠ s.linePos b a)).foldl (fun t p =>
    t.sendColl .request (t.lineMember a p) false (.flags (Fin.ofNat 1024 e) (Fin.ofNat 3 a) (t.linePos b a) w)) s

/-- The words of the other members of the line of an axis, once they are all here. -/
def State.lineWords (s : State) (e : Nat) (b : List Byte) (a : Nat) : Option (List DWord) :=
  let ws := ((List.range (s.lineLen b a)).filter fun p => decide (p ≠ s.linePos b a)).map fun p =>
    ((s.coll e).words.find? fun w => w.1 == a && w.2.1 == p).map fun w => w.2.2
  if ws.all Option.isSome then some (ws.filterMap id) else none

/-- Stages whose words are all here end: the word takes them in and goes on to the next axis, or to DST. -/
def State.flagStages (s : State) (e : Nat) (b : List Byte) : Nat → State
  | 0 => s
  | fuel + 1 =>
    let c := s.coll e
    match (collAxes b)[c.stage]? with
    | none =>
      let r := s.collWrite (collDst b) (leBytes 8 c.word.toNat)
      if r.2 then (r.1.progress pgPOD 1).collDone e b else r.1
    | some a =>
      match s.lineWords e b a with
      | none => s
      | some ws =>
        let w := ws.foldl (· ||| ·) c.word
        let s1 := s.setColl e { c with word := w, stage := c.stage + 1 }
        (match (collAxes b)[c.stage + 1]? with
          | some a2 => s1.castFlags e b a2 w
          | none => s1).flagStages e b fuel

/-- FLAG_OR: this member's word enters. -/
def execFlagOr (e : Fin 1024) (s : State) : Host.Outcome State Fault Refusal :=
  .next (s.collStart e 4 fun b t =>
    let r := t.collRead (collSrc b) 8
    match r.2 with
    | none => r.1
    | some bs =>
      let w : DWord := BitVec.ofNat 64 (leNat bs)
      let s1 := r.1.setColl e { r.1.coll e with word := w, stage := 0 }
      (s1.castFlags e b ((collAxes b).headD 0) w).flagStages e b 4)

/-! ### PERMUTE (R262) -/

/-- Data reaches this member's staging region and is recorded in the receipt list. -/
def State.stagePermute (s : State) (e stage dst : Nat) (bs : List Byte) : State × Bool :=
  let r := s.collWrite (collRemote (s.collBytes e) + stage) bs
  if r.2 then
    let c := r.1.coll e
    ((r.1.setColl e { c with receipts := c.receipts ++ [(stage, dst, bs.length)] }).progress pgPOD 1, true)
  else r

/-- Sends one extent: to the receiver's staging region, for a place that lies at DST plus the same offset. -/
def State.sendExtent (s : State) (e : Nat) (b x : List Byte) : State × Bool :=
  let dev := fieldAt x 0 2
  let stage := fieldAt x 0x10 8
  let len := fieldAt x 0x18 8
  let dst := collDst b + stage
  let at_ := dev * 2 ^ 48 + collRemote b + stage
  if !s.inSlice dev then (s.collFail e 3, false)
  else if len % 64 ≠ 0 then (s.collFail e 2, false)
  else if len = 0 then (s, true)
  else if !s.windowOk s.collSet at_ len true then (s.freezeColl at_, false)
  else
    let r := s.collRead (fieldAt x 8 8) len
    match r.2 with
    | none => (r.1, false)
    | some bs =>
      if dev = s.devnum then r.1.stagePermute e stage dst bs
      else (r.1.sendColl .request dev false (.permuteData (Fin.ofNat 1024 e) (BitVec.ofNat 64 stage) (BitVec.ofNat 64 dst) bs),
            true)

/-- Sends extents in order, up to one that cannot go. -/
def State.sendExtents (s : State) (e : Nat) (b : List Byte) : List (List Byte) → State × Bool
  | [] => (s, true)
  | x :: xs =>
    let r := s.sendExtent e b x
    if r.2 then r.1.sendExtents e b xs else r

/-- The 32-byte extents of a list. -/
def extentsOf (bs : List Byte) : Nat → List (List Byte)
  | 0 => []
  | n + 1 => bs.take 32 :: extentsOf (bs.drop 32) n

/-- PERMUTE: the extents leave, then the barrier messages to every other member of the slice. -/
def execPermute (e : Fin 1024) (s : State) : Host.Outcome State Fault Refusal :=
  .next (s.collStart e 5 fun b t =>
    let n := collTiles b
    let l : State × Option (List Byte) := if n = 0 then (t, some []) else t.collRead (collSrc b) (32 * n)
    match l.2 with
    | none => l.1
    | some bs =>
      let r := l.1.sendExtents e b (extentsOf bs n)
      if r.2 then
        (r.1.otherMembers).foldl (fun u d => u.sendColl .request d false (.barrier e))
          (r.1.setColl e { r.1.coll e with sent := true })
      else r.1)

/-- Copies receipts to their final offsets, up to one that cannot be copied. -/
def State.copyReceipts (s : State) (base : Nat) : List (Nat × Nat × Nat) → State × Bool
  | [] => (s, true)
  | (stage, dst, len) :: rs =>
    let r := s.collRead (base + stage) len
    match r.2 with
    | none => (r.1, false)
    | some bs =>
      let w := r.1.collWrite dst bs
      if w.2 then w.1.copyReceipts base rs else w

/-- PERMUTE_COPY_PHASE: every member of the slice has sent its extents. -/
def execPermuteCopyPhase (e : Fin 1024) (s : State) : Host.Outcome State Fault Refusal :=
  let b := s.collBytes e
  let c := s.coll e
  if !s.collWorks ∨ !s.collInUse e ∨ collOp b ≠ 5 ∨ !c.open_ ∨ !c.sent ∨ !(s.otherMembers.all fun d => c.barrier.contains d) then
    .next s
  else
    let r := s.copyReceipts (collRemote b) c.receipts
    .next (if r.2 then r.1.collDone e b else r.1)

/-! ### COLLECTIVE_TIMEOUT (R263) -/

/-- TOR_COLL_TIMEOUT in ns. -/
def State.collLimit (s : State) : Nat := min 60000 (max 1 (s.reg Reg.TOR_COLL_TIMEOUT)) * 1000000

/-- COLLECTIVE_TIMEOUT: an entry at work, or a FETCH held for it, has waited too long. -/
def execCollectiveTimeout (e : Fin 1024) (s : State) : Host.Outcome State Fault Refusal :=
  let c := s.coll e
  let late (t : Nat) : Bool := decide (t + s.collLimit ≤ s.now)
  let old (h : HeldFetch) : Bool := decide (h.entry = e.val) && late h.since
  let entryLate := c.open_ && (c.started.map late).getD false
  if s.wardPowered 6 ∧ (entryLate ∨ s.fetches.any old) then
    .next (State.collFail { s with fetches := s.fetches.filter fun h => !old h } e 1)
  else .next s

/-! ### TORUS_PACKET_ARRIVE (R254, R255, R264) -/

/-- The peer is a member of the slice, and its slice is this module's (R257). -/
def State.samePeer (s : State) (p : TorusPacket) : Bool := s.inSlice p.src.toNat && decide (p.slice.toNat = s.reg Reg.TOR_SLICE)

/-- A message from a peer with another slice fails the entry on both sides: the peer learns of it by an answer without data, which
carries this module's slice (R257; DEDUCED, assumption 45). -/
def State.sliceMismatch (s : State) (e : Nat) (p : TorusPacket) : State :=
  let s1 := s.collFail e 3
  if p.chan = .request then s1.sendColl .response p.src.toNat false (.fetchData (Fin.ofNat 1024 e) []) else s1

/-- A message from a member of the slice acts on an entry in use; one from a peer with another slice fails the entry, even one that
is done (R257). -/
def State.peerEntry (s : State) (e : Nat) (p : TorusPacket) (f : State → State) : State :=
  if !s.collInUse e ∨ (s.coll e).failed then s
  else if !s.samePeer p then s.sliceMismatch e p
  else if (s.coll e).done then s
  else f s

/-- A running sum arrives; a void taints this module's step (R168). -/
def State.takeTile (s : State) (e a k t : Nat) (high : Bool) (v : Option (List Word)) : State :=
  let b := s.collBytes e
  let c := s.coll e
  if !(collAxes b).contains a ∨ !s.holdsShard b k a ∨ collTiles b ≤ t then s.collFail e 3
  else
    let s1 := s.setColl e { c with recv := c.recv ++ [⟨a, k, t, high, v⟩] }
    if v.isNone then (s1.tally Reg.RT_VOID_RECEIVED).setFld Reg.RT_STEP_TAINT 0 0 1 else s1

/-- A collective message is taken. -/
def State.takeColl (s : State) (p : TorusPacket) : State :=
  match p.msg with
  | .fetchReq e off tiles gate v =>
    if !s.serving .coll then s
    else if !s.samePeer p then s.sliceMismatch e p
    else { s with fetches := s.fetches ++ [⟨e, p.src.toNat, off.toNat, tiles, gate.toNat, v.toNat, s.now⟩] }
  | .fetchData e bs => s.peerEntry e p fun t => t.takeFetch e bs
  | .tile e a k t high l =>
    s.peerEntry e p fun u => if p.void ∨ l.length = 1024 then u.takeTile e a k t high (if p.void then none else some l) else u
  | .bcastData e a minus bs => s.peerEntry e p fun t =>
      let b := t.collBytes e
      let c := t.coll e
      if bs.length ≠ 4096 * collTiles b then t
      else if c.open_ ∧ collOp b = 3 then t.castTake e b a minus bs
      else t.setColl e { c with early := some (a.val, minus, bs) }
  | .flags e a pos w => s.peerEntry e p fun t =>
      let c := t.coll e
      let t1 := t.setColl e { c with words := c.words ++ [(a.val, pos, w)] }
      if c.open_ ∧ collOp (t.collBytes e) = 4 then t1.flagStages e (t.collBytes e) 4 else t1
  | .permuteData e stage dst bs => s.peerEntry e p fun t => (t.stagePermute e stage.toNat dst.toNat bs).1
  | .barrier e => s.peerEntry e p fun t => t.setColl e { t.coll e with barrier := (t.coll e).barrier ++ [p.src.toNat] }
  | _ => s

/-- A packet has reached its destination by a link. -/
def State.deliver (s : State) (l : Nat) (p : TorusPacket) : State :=
  let src := p.src.toNat
  match p.msg with
  | .read off len => s.serveRemote l src (p.chan == .serveRequest) off.toNat (.read len)
  | .write off bs => s.serveRemote l src (p.chan == .serveRequest) off.toNat (.write bs)
  | .response status bs => s.takeResponse src (p.chan == .serveResponse) status bs
  | _ => if s.collAlive then s.takeColl p else s

/-- TORUS_PACKET_ARRIVE: relayed, delivered, discarded as misrouted, or sent on. -/
def execTorusPacketArrive (l : Fin 6) (p : TorusPacket) (s : State) : Host.Outcome State Fault Refusal :=
  let buf : Option (Nat × Nat) := some (l.val, packetVc p (l.val / 2))
  let n := packetCount p
  if s.linkState l ≠ 2 ∨ !s.linkWorks l then .next s
  else if s.relaying l then
    if p.dest.toNat = s.devnum then .next ((s.count (Reg.TOR_RELAY_DISCARD l) n).freeBuffer n buf)
    else .next (s.sendOn (oppositeLink l) p buf)
  else if p.dest.toNat = s.devnum then .next ((s.deliver l p).freeBuffer n buf)
  else if s.beyond p (l.val / 2) then .next ((s.count (Reg.TOR_MISROUTE l) n).freeBuffer n buf)
  else .next (s.route p buf)

end Sys2Proof.Machine
end

