-- ==== Sys2Proof/Machine/SeqIssue.lean ====
section
/-! DEFINITION. How bundles issue and retire: the commands of the slots, deferred sections, waits and the ends of streams
(R142 to R144, R154 to R156, R163 to R173, R200, R203 to R205). -/

namespace Sys2Proof.Machine

/-! ### Streams and sections (R142 to R144) -/

/-- The oldest deferred section starts; the main stream goes on behind it. -/
def Chiplet.startSection (x : Chiplet) (wait : Option (Nat × Word)) : Chiplet :=
  match x.dwq with
  | [] => x
  | q :: r =>
    { x with run := .running, section_ := some q, dwq := r, resumePc := x.pc, pc := q.1, fillWait := wait
             dfr := { x.dfr with marker := 2 } }

/-- A serving chiplet's request ends: an uncorrectable error before a skipped slot (R162, R170). -/
def Chiplet.serveStatus (x : Chiplet) : Nat := if x.uncorr then 9 else if x.skipped then 5 else 0

/-- The final bundle has retired: the stream is over, and a request completes. -/
def State.endStream (s : State) (c : Nat) : State :=
  let x := s.chip c
  match x.serve with
  | some (n, idx) =>
    let s1 := s.setChip c { x with run := .ended, serve := none }
    ({ s1 with wp := { s1.wp with serveDone := s1.wp.serveDone + 1 } }).finish n idx x.serveStatus 0
  | none => s.setChip c { x with run := .ended }

/-- A fetch past bundle 8,191 (R165, R182): logged as an illegal slot of the last bundle address. -/
def State.fetchEnd (s : State) (c : Nat) : State := s.skipSlot c 9 0 0 0 0 0x1FFF

/-- The main stream goes on: with its next bundle, or, after END, with the sections still queued until the stream is over. -/
def State.goMain (s : State) (c : Nat) : State :=
  let x := s.chip c
  if x.mainDone then
    if x.dwq.isEmpty then s.endStream c else s.setChip c (x.startSection none)
  else if 8192 ≤ x.pc then
    let s1 := s.fetchEnd c
    let y : Chiplet := { s1.chip c with mainDone := true }
    if y.run = .idle then s1
    else if y.dwq.isEmpty then (s1.setChip c y).endStream c else s1.setChip c (y.startSection none)
  else s.setChip c { x with run := .running }

/-- A WAIT retires: ranges of COPY slots of its stream that it covers are live no longer (R165). -/
def Chiplet.waitRetires (x : Chiplet) (ctr : Nat) (value : Word) : Chiplet :=
  { x with ranges := x.ranges.filter fun r =>
      match r.until_ with
      | .copy k v => !(r.deferred == x.inSection && k == ctr && decide (v ≤ value.toNat))
      | .clock _ => true }

/-- The counter has reached the value. -/
def State.reached (s : State) (ctr : Nat) (value : Word) : Bool := decide (value.toNat ≤ (s.sig ctr).toNat)

/-- The main stream stands at a wait, or passes it. -/
def State.mainWait (s : State) (c : Nat) : Option (Nat × Word) → State
  | none => s.goMain c
  | some (ctr, v) =>
    if s.reached ctr v then (s.setChip c ((s.chip c).waitRetires ctr v)).goMain c
    else s.setChip c { s.chip c with run := .waiting ctr v }

/-- The section is over: the section that a full queue held up is queued, and the main stream goes on. -/
def State.endSection (s : State) (c : Nat) : State :=
  let x := s.chip c
  let wait := x.fillWait
  (s.setChip c { x with section_ := none, pc := x.resumePc, fillWait := none, pendingDefer := none
                        dwq := x.dwq ++ x.pendingDefer.toList }).mainWait c wait

/-- A section goes on with its next bundle, or ends because that lies outside its range. -/
def State.goSection (s : State) (c : Nat) (q : Nat × Nat) : State :=
  let x := s.chip c
  if x.pc < q.1 ∨ q.1 + q.2 ≤ x.pc then s.endSection c
  else if 8192 ≤ x.pc then
    let s1 := s.fetchEnd c
    if (s1.chip c).run = .idle then s1 else s1.endSection c
  else s.setChip c { x with run := .running }

/-- The stream that issues stands at a wait of its last bundle, or goes on. -/
def State.goOn (s : State) (c : Nat) (wait : Option (Nat × Word)) : State :=
  match (s.chip c).section_ with
  | none => s.mainWait c wait
  | some q =>
    match wait with
    | none => s.goSection c q
    | some (ctr, v) =>
      if s.reached ctr v then (s.setChip c ((s.chip c).waitRetires ctr v)).goSection c q
      else s.setChip c { s.chip c with run := .waiting ctr v }

/-! ### A bundle retires (R155, R156, R163, R167) -/

/-- Two slots of the bundle name one destination: both are DUAL_WRITE, unless illegal already. -/
def dualWrites (fs : List SlotFx) : List SlotFx :=
  fs.map fun (f : SlotFx) =>
    if f.cause ≠ 6 ∧ fs.any fun g => g.slot != f.slot && g.dests.any fun d => f.dests.contains d then
      { f with cause := 8, early := 0, rclass := 0, rindex := 0 }
    else f

/-- A slot in hazard or fault: it is skipped, and what others wait for still takes place (R167). -/
def State.skipFx (s : State) (c : Nat) (f : SlotFx) : State :=
  let x := s.chip c
  let s1 := s.skipSlot c f.cause f.early f.slot f.rclass f.rindex x.pc
  let y := s1.chip c
  let s2 := { s1.setChip c { y with chainOwn := y.chainOwn ++ f.voids } with accNet := s1.accNet ++ f.skipAcc }
  match f.copyCtr with
  | none => s2
  | some ctr =>
    let z := s2.chip c
    (s2.setChip c { z with copies := z.copies ++ [(ctr, z.inSection, z.copyNumber ctr)], opsOut := z.opsOut + 1 }).sendSig
      ⟨ctr, .add 1, some c, []⟩

/-- Signal operations and events of a slot leave the chiplet (R203 to R205); an operation follows the accumulation writes that
the chiplet has sent before (R45). -/
def State.signalFx (s : State) (c : Nat) (f : SlotFx) : State :=
  let before := s.accNet.filter fun w => w.writer == .chiplet (Fin.ofNat 64 c)
  let s1 := f.sigs.foldl (fun (t : State) o =>
    (t.setChip c { t.chip c with opsOut := (t.chip c).opsOut + 1 }).sendSig { o with after := before }) s
  f.events.foldl (fun (t : State) e => t.postEvent c e.1 e.2) s1

/-- What a slot writes within its chiplet. -/
def Chiplet.take (x : Chiplet) (f : SlotFx) : Chiplet :=
  let y := f.regs.foldl Chiplet.write x
  let st := y.cur
  let z := y.setCur { st with pend := st.pend ++ f.pend, busy := st.busy ++ f.busy, written := st.written ++ f.dests }
  { z with ranges := z.ranges ++ f.ranges, accums := z.accums ++ f.accums }

/-- What a slot sends out of its chiplet. -/
def State.outFx (s : State) (c : Nat) (f : SlotFx) : State :=
  let s1 := f.mem.foldl (fun (t : State) w => t.guardedStore w.1 w.2) s
  let s2 := f.bads.foldl State.noteBad { s1 with accNet := s1.accNet ++ f.accWrites }
  (if f.uncorr then s2.chipUncorrectable c else s2).signalFx c f

/-- The census reports of a bundle: vector engines before arrays, each in its own order (R141). -/
def bundleReports (fs : List SlotFx) : List (Nat × CensusRep) :=
  let ran := fs.filter fun f => decide (f.cause = 0) && f.violation.isNone
  ((ran.filter fun f => decide (f.slot = 2)) ++ ran.filter fun f => decide (f.slot ≠ 2)).flatMap fun f => f.census

/-- A COPY slot's move, with its completion value. -/
def State.copyFx (s : State) (c : Nat) (f : SlotFx) : State :=
  match f.copyCtr, f.copy with
  | some ctr, some d =>
    let x := s.chip c
    (s.setChip c { x with copies := x.copies ++ [(ctr, x.inSection, x.copyNumber ctr)] }).runSlotCopy c ctr d
  | _, _ => s

/-- One slot takes its effect. -/
def State.applyFx (s : State) (c : Nat) (f : SlotFx) : State :=
  if f.cause ≠ 0 then
    let t := s.skipFx c f
    if f.slot = 4 ∧ (f.cause < 6 ∨ f.cause = 0xA) then (t.setChip c ((t.chip c).take { f with pend := [] })).signalFx c f
    else t
  else match f.violation with
    | some a => s.chipViolates c a
    | none => ((s.setChip c ((s.chip c).take f)).outFx c f).copyFx c f

/-- The wait of a bundle's SIG slot; one that is illegal in no way waits even in hazard. -/
def waitOf (fs : List SlotFx) : Option (Nat × Word) := fs.findSome? fun f => f.wait

/-- What the bundle's CTRL slot does. -/
def ctrlOf (fs : List SlotFx) : Ctrl :=
  match fs.find? fun f => decide (f.slot = 0) && decide (f.cause = 0) with
  | some f => f.ctrl
  | none => .next

/-- Draws of the bundle's CVT, taken even when it is skipped (R91). -/
def Chiplet.countDraws (x : Chiplet) (fs : List SlotFx) : Chiplet :=
  { x with drawIdx := fs.foldl (fun d f => (d.1 + boolNat f.draws.1, d.2 + boolNat f.draws.2)) x.drawIdx }

/-- The schedule clock advances; what has expired is forgotten. -/
def Chiplet.tickClock (x : Chiplet) (n : Nat) : Chiplet :=
  let st := x.cur
  let t := st.clock + n
  let y := x.setCur { st with clock := t, pend := st.pend.filter fun p => decide (t < p.ready)
                              busy := st.busy.filter fun b => decide (t < b.2) }
  { y with ranges := y.ranges.filter y.live }

/-- The stream's next bundle address, clock and marker after a CTRL slot. -/
def Chiplet.afterCtrl (x : Chiplet) (k : Ctrl) : Chiplet :=
  let y := { x with lastPc := x.pc, pc := match k with
    | .jump t => t
    | _ => x.pc + 1 }
  match k with
  | .idle n => y.tickClock n
  | .mark m => (y.setCur { y.cur with marker := m }).tickClock 1
  | .endStream => { y.tickClock 1 with mainDone := true }
  | .defer a n =>
    let z := y.tickClock 1
    if z.dwq.length < 64 then { z with dwq := z.dwq ++ [(a, n)] } else { z with pendingDefer := some (a, n) }
  | _ => y.tickClock 1

/-- The bundle at the stream's address in the active bank, where all its bytes have been written. -/
def State.bundleBytes (s : State) (c : Nat) : Option (List Byte) :=
  let x := s.chip c
  let a := 0x200200000000 + c * 0x100000 + boolNat x.bank * 0x40000 + 32 * x.pc
  if (s.mem.filter fun e => decide (a ≤ e.1) && decide (e.1 < a + 32)).length = 32 then some (s.load a 32) else none

/-- The slots of the bundle in hand, with those of the bundle in memory whose opcode is not defined, which no command issues:
they are ILLEGAL (R155). -/
def State.bundleFx (s : State) (c : Nat) : List SlotFx :=
  let b := (s.chip c).bundle
  match s.bundleBytes c with
  | none => b
  | some bs =>
    let bad := (undefinedSlots bs).filter fun k => !b.any fun f => f.slot == k
    if bad.isEmpty then b
    else (List.range 5).flatMap fun k => (b.filter fun f => decide (f.slot = k)) ++
      if bad.contains k then [{ slot := k, cause := 6 }] else []

/-- A bundle retires: every slot takes its effect, and the stream goes on. A chiplet whose job has halted within goes no
further. -/
def State.retireBundle (s : State) (c : Nat) : State :=
  let x := s.chip c
  let fs := dualWrites (s.bundleFx c)
  let s0 := s.setChip c { x with bundle := [] }
  let s1 := (bundleReports fs).foldl (fun (t : State) r => t.report c r.1 r.2) (fs.foldl (fun (t : State) f => t.applyFx c f) s0)
  if (s1.chip c).run ≠ .running then s1
  else
    let y := ((s1.chip c).countDraws fs).afterCtrl (ctrlOf fs)
    let s2 := (s1.setChip c y).progress (pgENG c) 1
    if y.pendingDefer.isSome ∧ !y.inSection then
      (s2.tally (Reg.ENG_DWQ_FORCED c)).setChip c (y.startSection (waitOf fs))
    else s2.goOn c (waitOf fs)

/-! ### Issue (R131, R132, R154) -/

/-- The chiplet issues: its stream runs and no tile is being run again. -/
def State.canIssue (s : State) (c : Nat) : Bool :=
  let x := s.chip c
  s.chipServes c && decide (x.run = .running) && x.accums.all fun a => decide (a.phase = .running)

/-- A slot that comes in no place behind those of the bundle in hand belongs to the next one: the bundle in hand has all its
slots, and retires (R154: each bundle has each slot once, in order). -/
def State.openBundle (s : State) (c : Nat) (slot : Nat) : State :=
  if (s.chip c).bundle.any fun f => decide (slot ≤ f.slot) then s.retireBundle c else s

/-- A slot joins the bundle in hand; `k` gives what it does, from memory as the chiplet reads it, and none where issue is held;
the last slot retires the bundle. -/
def State.issueSlot (s : State) (c : Nat) (more : Bool) (k : State → Chiplet → Option SlotFx) : State :=
  let x := s.chip c
  if !s.canIssue c then s
  else match k (s.serveView c) x with
    | none => s.tally (Reg.ENG_HOLD_CYCLES c)
    | some f =>
      let s1 := { s with freeCount := s.freeCount + f.frees }.setChip c { x with bundle := x.bundle ++ [f] }
      if more then s1 else s1.retireBundle c

/-- A slot of the next bundle issues. -/
def State.issue (s : State) (c : Nat) (slot : Nat) (more : Bool) (k : State → Chiplet → Option SlotFx) :
    Host.Outcome State Fault Refusal :=
  .next (if s.canIssue c then (s.openBundle c slot).issueSlot c more k else s)

/-! ### The commands of the CTRL slot -/

/-- NOP: a bundle none of whose slots issues anything. One in hand has all its slots and retires first. -/
def execNop (c : Fin 64) (s : State) : Host.Outcome State Fault Refusal :=
  if !s.canIssue c then .next s
  else
    let s1 := if (s.chip c).bundle.isEmpty then s else s.retireBundle c
    .next (if s1.canIssue c then s1.retireBundle c else s1)

/-- END. -/
def execSeqEnd (c : Fin 64) (more : Bool) (s : State) : Host.Outcome State Fault Refusal :=
  s.issue c 0 more fun _ x => some x.fxEnd

/-- JMP. -/
def execJmp (c : Fin 64) (more : Bool) (qp : BitVec 3) (target : BitVec 13) (s : State) :
    Host.Outcome State Fault Refusal := s.issue c 0 more fun _ x => some (x.fxJmp qp target)

/-- LOOP. -/
def execLoop (c : Fin 64) (more : Bool) (sn : BitVec 5) (target : BitVec 13) (s : State) :
    Host.Outcome State Fault Refusal := s.issue c 0 more fun _ x => some (x.fxLoop sn target)

/-- DEFER. -/
def execDefer (c : Fin 64) (more : Bool) (start count : BitVec 13) (s : State) : Host.Outcome State Fault Refusal :=
  s.issue c 0 more fun _ x => some (x.fxDefer start count)

/-- MARK. -/
def execMark (c : Fin 64) (more : Bool) (m : BitVec 2) (s : State) : Host.Outcome State Fault Refusal :=
  s.issue c 0 more fun _ x => some (x.fxMark m)

/-- ALU. -/
def execAlu (c : Fin 64) (more : Bool) (fn : BitVec 4) (sd : BitVec 5) (a : BitVec 7) (imm : Bool) (b : BitVec 10)
    (s : State) : Host.Outcome State Fault Refusal := s.issue c 0 more fun _ x => some (x.fxAlu fn sd a imm b)

/-- SETQ. -/
def execSetq (c : Fin 64) (more : Bool) (qd cc : BitVec 3) (a : BitVec 7) (imm : Bool) (b : BitVec 13) (s : State) :
    Host.Outcome State Fault Refusal := s.issue c 0 more fun _ x => some (x.fxSetq qd cc a imm b)

/-- LDI. -/
def execLdi (c : Fin 64) (more : Bool) (sd : BitVec 5) (imm : BitVec 22) (s : State) :
    Host.Outcome State Fault Refusal := s.issue c 0 more fun _ x => some (x.fxLdi sd imm)

/-- IDLE. -/
def execIdle (c : Fin 64) (more : Bool) (n : BitVec 22) (s : State) : Host.Outcome State Fault Refusal :=
  s.issue c 0 more fun _ x => some (x.fxIdle n)

/-! ### The commands of the MAT slot -/

/-- MMA. -/
def execMma (c : Fin 64) (more : Bool) (f : MmaFields) (s : State) : Host.Outcome State Fault Refusal :=
  s.issue c 1 more fun v x => v.fxMma x c f

/-- TSTORE. -/
def execTstore (c : Fin 64) (more : Bool) (f : TstoreFields) (s : State) : Host.Outcome State Fault Refusal :=
  s.issue c 1 more fun _ x => x.fxTstore c f

/-! ### The commands of the VEC slot -/

/-- VEC_ADD. -/
def execVecAdd (c : Fin 64) (more : Bool) (f : VecFields) (s : State) : Host.Outcome State Fault Refusal :=
  s.issue c 2 more fun v x => some (v.fxVecAdd x f)

/-- VEC_SUB. -/
def execVecSub (c : Fin 64) (more : Bool) (f : VecFields) (s : State) : Host.Outcome State Fault Refusal :=
  s.issue c 2 more fun v x => some (v.fxVecSub x f)

/-- VEC_MUL. -/
def execVecMul (c : Fin 64) (more : Bool) (f : VecFields) (s : State) : Host.Outcome State Fault Refusal :=
  s.issue c 2 more fun v x => some (v.fxVecMul x f)

/-- FMA. -/
def execFma (c : Fin 64) (more : Bool) (f : VecFields) (s : State) : Host.Outcome State Fault Refusal :=
  s.issue c 2 more fun v x => some (v.fxFma x f)

/-- VEC_MAX. -/
def execVecMax (c : Fin 64) (more : Bool) (f : VecFields) (s : State) : Host.Outcome State Fault Refusal :=
  s.issue c 2 more fun v x => some (v.fxVecMax x f)

/-- VEC_MIN. -/
def execVecMin (c : Fin 64) (more : Bool) (f : VecFields) (s : State) : Host.Outcome State Fault Refusal :=
  s.issue c 2 more fun v x => some (v.fxVecMin x f)

/-- SEL. -/
def execSel (c : Fin 64) (more : Bool) (f : VecFields) (s : State) : Host.Outcome State Fault Refusal :=
  s.issue c 2 more fun v x => some (v.fxSel x f)

/-- CMP. -/
def execCmp (c : Fin 64) (more : Bool) (f : VecFields) (s : State) : Host.Outcome State Fault Refusal :=
  s.issue c 2 more fun v x => some (v.fxCmp x f)

/-- EXP2. -/
def execExp2 (c : Fin 64) (more : Bool) (f : VecFields) (s : State) : Host.Outcome State Fault Refusal :=
  s.issue c 2 more fun v x => some (v.fxSpecial x f Config.exp2)

/-- LOG2. -/
def execLog2 (c : Fin 64) (more : Bool) (f : VecFields) (s : State) : Host.Outcome State Fault Refusal :=
  s.issue c 2 more fun v x => some (v.fxSpecial x f Config.log2)

/-- RCP. -/
def execRcp (c : Fin 64) (more : Bool) (f : VecFields) (s : State) : Host.Outcome State Fault Refusal :=
  s.issue c 2 more fun v x => some (v.fxSpecial x f Config.rcp)

/-- RSQRT. -/
def execRsqrt (c : Fin 64) (more : Bool) (f : VecFields) (s : State) : Host.Outcome State Fault Refusal :=
  s.issue c 2 more fun v x => some (v.fxSpecial x f Config.rsqrt)

/-- RSUM. -/
def execRsum (c : Fin 64) (more : Bool) (f : VecFields) (s : State) : Host.Outcome State Fault Refusal :=
  s.issue c 2 more fun v x => some (v.fxRsum x f)

/-- RMAX. -/
def execRmax (c : Fin 64) (more : Bool) (f : VecFields) (s : State) : Host.Outcome State Fault Refusal :=
  s.issue c 2 more fun v x => some (v.fxRmax x f)

/-- ACCRD. -/
def execAccrd (c : Fin 64) (more : Bool) (f : AccrdFields) (s : State) : Host.Outcome State Fault Refusal :=
  s.issue c 2 more fun _ x => x.fxAccrd f

/-- BCAST. -/
def execBcast (c : Fin 64) (more : Bool) (f : VecFields) (s : State) : Host.Outcome State Fault Refusal :=
  s.issue c 2 more fun v x => some (v.fxBcast x f)

/-- VTOS. -/
def execVtos (c : Fin 64) (more : Bool) (f : VtosFields) (s : State) : Host.Outcome State Fault Refusal :=
  s.issue c 2 more fun _ x => some (x.fxVtos f)

/-- CVT. -/
def execCvt (c : Fin 64) (more : Bool) (f : CvtFields) (s : State) : Host.Outcome State Fault Refusal :=
  s.issue c 2 more fun v x => some (v.fxCvt x c f)

/-! ### The commands of the MOV slot -/

/-- VLD. -/
def execVld (c : Fin 64) (more : Bool) (f : MovFields) (s : State) : Host.Outcome State Fault Refusal :=
  s.issue c 3 more fun v x => v.fxVld x c f

/-- VST. -/
def execVst (c : Fin 64) (more : Bool) (f : MovFields) (s : State) : Host.Outcome State Fault Refusal :=
  s.issue c 3 more fun _ x => x.fxVst c f

/-- VSTA. -/
def execVsta (c : Fin 64) (more : Bool) (f : MovFields) (s : State) : Host.Outcome State Fault Refusal :=
  s.issue c 3 more fun v x => some (v.fxVsta x c f)

/-- SLD. -/
def execSld (c : Fin 64) (more : Bool) (f : MovFields) (s : State) : Host.Outcome State Fault Refusal :=
  s.issue c 3 more fun v x => v.fxSld x c f

/-- SST. -/
def execSst (c : Fin 64) (more : Bool) (f : MovFields) (s : State) : Host.Outcome State Fault Refusal :=
  s.issue c 3 more fun _ x => x.fxSst c f

/-- A COPY slot whose move a fenced unit would refuse is held until the unit takes it (R131, R359). -/
def State.holdCopy (s : State) (c : Fin 64) (f : SlotFx) : Option SlotFx :=
  match f.copy with
  | none => some f
  | some d => if f.cause = 0 ∧ opOf d ≠ 0 ∧ s.rowsRefused (.chiplet c) (copyRows d) then none else some f

/-- MOV_COPY. -/
def execMovCopy (c : Fin 64) (more : Bool) (f : MovFields) (s : State) : Host.Outcome State Fault Refusal :=
  s.issue c 3 more fun v x => (v.fxMovCopy x c f).bind (s.holdCopy c)

/-! ### The commands of the SIG slot -/

/-- SIG_WAIT. -/
def execSigWait (c : Fin 64) (more : Bool) (f : SigFields) (s : State) : Host.Outcome State Fault Refusal :=
  s.issue c 4 more fun _ x => some (x.fxWait f)

/-- SIG_ADD. -/
def execSigAdd (c : Fin 64) (more : Bool) (f : SigFields) (s : State) : Host.Outcome State Fault Refusal :=
  s.issue c 4 more fun _ x => some (x.fxSigAdd c f)

/-- SIG_SET. -/
def execSigSet (c : Fin 64) (more : Bool) (f : SigFields) (s : State) : Host.Outcome State Fault Refusal :=
  s.issue c 4 more fun _ x => some (x.fxSigSet c f)

/-- ARRIVE. -/
def execArrive (c : Fin 64) (more : Bool) (f : SigFields) (s : State) : Host.Outcome State Fault Refusal :=
  s.issue c 4 more fun _ x => some (x.fxArrive c f)

/-- EVENT. -/
def execEvent (c : Fin 64) (more : Bool) (f : SigFields) (s : State) : Host.Outcome State Fault Refusal :=
  s.issue c 4 more fun _ x => some (x.fxEvent f)

/-- SIG_READ. -/
def execSigRead (c : Fin 64) (more : Bool) (f : SigFields) (s : State) : Host.Outcome State Fault Refusal :=
  s.issue c 4 more fun v x => some (v.fxSigRead x f)

/-! ### Waits and sections -/

/-- WAIT_RESUME: a WAIT that its counter satisfies retires, and issue goes on (R204). -/
def execWaitResume (c : Fin 64) (s : State) : Host.Outcome State Fault Refusal :=
  match (s.chip c).run with
  | .waiting ctr v => if s.chipServes c ∧ s.reached ctr v then .next (s.goOn c (some (ctr, v))) else .next s
  | _ => .next s

/-- DEFERRED_SECTION_START: while the main stream waits on a signal that is not set, the oldest section runs (R143). -/
def execDeferredSectionStart (c : Fin 64) (s : State) : Host.Outcome State Fault Refusal :=
  let x := s.chip c
  match x.run with
  | .waiting ctr v =>
    if s.chipServes c ∧ !x.inSection ∧ !x.dwq.isEmpty ∧ !s.reached ctr v then
      .next ((s.tally (Reg.ENG_DWQ_FILLS c)).setChip c (x.startSection (some (ctr, v))))
    else .next s
  | _ => .next s

end Sys2Proof.Machine
end

