-- ==== Sys2Proof/Machine/Serve.lean ====
section
/-! DEFINITION. SERVE requests (R28, R29, R200, R201). -/

namespace Sys2Proof.Machine

/-- The bundle a SERVE request begins at. -/
def srvEntry (d : List Byte) : Nat := fieldAt d 0x10 2 % 8192

/-- SERVE_REQUEST: the request is held until a chiplet may take it; one that names a chiplet outside the serving partition
is held for RC_RETRY at most. -/
def execServeRequest (n : Fin 32768) (idx : BitVec 16) (s : State) : Host.Outcome State Fault Refusal :=
  match s.flightOf n idx.toNat 6 1 with
  | none => .next s
  | some f =>
    if f.accepted then .next s
    else if s.namesFenced f.bytes then .next (s.refuseFlight n idx.toNat)
    else
      .next (s.mapFlight n idx.toNat fun g =>
        { g with accepted := true
                 refused := if s.namesOutside g.bytes then some (g.refused.getD s.now) else none })

/-- A chiplet may be given a request: of the serving partition and of the pending one, free, with nothing latched to apply
first, and able to run. -/
def State.freeToServe (s : State) (c : Nat) : Bool :=
  let x := s.chip c
  s.isServing c && s.flag Reg.WPC_SERVE_MASK c && x.serve.isNone && x.latched.isEmpty && s.chipServes c

/-- The chiplet a request goes to: the named one, or the free one with the lowest number. -/
def State.serveTarget (s : State) (d : List Byte) : Option Nat :=
  if srvChiplet d = 0xFF then (List.range 64).find? s.freeToServe
  else if srvChiplet d < 64 ∧ s.freeToServe (srvChiplet d) then some (srvChiplet d) else none

/-- The request starts: the descriptor goes into the last 64 bytes of scratch, the stream begins at ENTRY with its clock at
0, on the serve buffer that is current now (R28). -/
def State.startServe (s : State) (n idx c : Nat) (d : List Byte) : State :=
  let s1 := s.store (scratchAt c 0x7FFFC0) d
  let x := { (s1.chip c).fresh (srvEntry d) with serve := some (n, idx), serveBuf := s1.flag Reg.WPC_POSITION 1 }
  (s1.setChip c x).mapFlight n idx fun f => { f with unit := some c, refused := none }

/-- SERVE_DISPATCH. -/
def execServeDispatch (n : Fin 32768) (idx : BitVec 16) (s : State) : Host.Outcome State Fault Refusal :=
  match s.flightOf n idx.toNat 6 1 with
  | none => .next s
  | some f =>
    if !f.accepted ∨ f.unit.isSome then .next s
    else match s.serveTarget f.bytes with
      | some c => .next (s.startServe n idx.toNat c f.bytes)
      | none =>
        if s.namesFenced f.bytes then .next (s.refuseFlight n idx.toNat)
        else if !s.namesOutside f.bytes then .next (s.holdFlight n idx.toNat)
        else if f.refused.isNone then
          .next (s.mapFlight n idx.toNat fun g => { g with refused := some s.now })
        else .next s

end Sys2Proof.Machine
end

