-- ==== Sys2Proof/Machine/Side.lean ====
section
/-! DEFINITION. The side path and the pins: MCTP, vendor-defined register messages, PLDM, dumps, the TAP and the OSFP
cages (R369, R370, R374, R376, R396 to R398, R402, R408, R415). -/

namespace Sys2Proof.Machine

/-! ### The endpoint (R374, R396) -/

/-- The binnacle answers requests: it has power, and its processor does not restart. -/
def State.sideReady (s : State) : Bool := decide (s.power ≠ 0) && s.fw.restart.isNone

/-- The 7-bit SMBus address of the endpoint (R402). -/
def State.smbusAddress (s : State) : Nat := 0x64 + s.pads.smbAddr.toNat

/-- ALERT_N is low: some event message is undelivered (R398). -/
def State.alertLow (s : State) : Bool := !s.pldm.isEmpty

/-- What an MCTP control answer carries behind its completion code: the vendor's IANA enterprise number for Get Vendor Defined Message
Support, the one set there is (R396), in the layout of DSP0236 (PRESUMED: assumption 19). -/
def mctpBody (cmd : Byte) : List Byte :=
  if cmd = 0x06 then [0xFF, 1] ++ beBytes 4 Config.vendorIana.toNat ++ beBytes 2 Config.vendorSet.toNat else []

/-- MCTP_CONTROL: the rest of an answer's body is DSP0236's. -/
def execMctpControl (cmd : Byte) (s : State) : Host.Outcome State Fault Refusal :=
  .next (s.sideRequest [cmd, 1] fun t => t.emit (.side ([cmd, 0] ++ mctpBody cmd)))

/-! ### Vendor-defined register messages (R397) -/

/-- Some word of n bytes is one that the dump being taken found unanswered within 50 µs (R369). -/
def State.unanswered (s : State) (a n : Nat) : Bool :=
  match s.dump with
  | none => false
  | some d => d.bytes.isEmpty && d.marks.any fun m => decide (a ≤ m) && decide (m < a + n)

/-- The status that a message gets before it is served: 3 BAD_ADDRESS, 2 NOT_POWERED, 4 TIMEOUT; none where it is served. -/
def State.vdmBad (s : State) (page off width : Nat) : Option Byte :=
  if page % 0x1000 ≠ 0 ∨ (pageOf page).isNone ∨ 0x9000000 ≤ page ∨ (width ≠ 4 ∧ width ≠ 8) ∨ off % width ≠ 0 ∨ 0x1000 ≤ off then
    some 3
  else if !s.wardPowered (page / 0x1000000) then some 2
  else if s.unanswered (page + off) width then some 4
  else none

/-- VDM_READ. -/
def execVdmRead (page : Word) (off : BitVec 16) (width : Byte) (s : State) : Host.Outcome State Fault Refusal :=
  .next (s.sideRequest [1] fun t =>
    match t.vdmBad page.toNat off.toNat width.toNat with
    | some st => t.emit (.side [st])
    | none =>
      let (t1, bs) := t.readSpace .side (page.toNat + off.toNat) width.toNat
      t1.emit (.side (0 :: bs)))

/-- VDM_WRITE. -/
def execVdmWrite (page : Word) (off : BitVec 16) (width : Byte) (v : DWord) (s : State) : Host.Outcome State Fault Refusal :=
  .next (s.sideRequest [1] fun t =>
    match t.vdmBad page.toNat off.toNat width.toNat with
    | some st => t.emit (.side [st])
    | none => (t.writeSpace .side (page.toNat + off.toNat) width.toNat v.toNat).emit (.side [0]))

/-- VDM_SNAPSHOT. -/
def execVdmSnapshot (page : Word) (bank : Byte) (clear : Byte) (s : State) : Host.Outcome State Fault Refusal :=
  .next (s.sideRequest [1] fun t =>
    match (t.vdmBad page.toNat 0 4).orElse fun _ => if t.unanswered page.toNat 0x1000 then some 4 else none with
    | some st => t.emit (.side [st])
    | none =>
      let t1 := t.takeSnap page.toNat (bank.toNat % 4) (decide (clear ≠ 0))
      t1.emit (.side (0 :: leBytes 2 (t1.fld (page.toNat + Hdr.SNAP_CTRL) 15 0))))

/-! ### PLDM (R398) -/

/-- The estimated power of a ward: the manual gives no formula, only that the EFFECTIVE values of its power-model trims feed it (R394). -/
def State.estimate (s : State) (w : Nat) : Word :=
  Config.wardPower w ((List.range 3).map fun j => s.fld (Reg.CALU_TRIM 3 (4 * (w - 1) + j)) 31 16) s.freeValue

/-- The reading of a sensor; no other sensor exists. -/
def State.sensor (s : State) (id : Nat) : Option (State × Nat) :=
  if 1 ≤ id ∧ id ≤ 128 then some (s, unsigned 16 (s.tempOf (id - 1)))
  else if id = 129 then some (s, s.fld Reg.PWR_AVG 11 0)
  else if id = 130 then some (s, s.fld Reg.PWR_INPUT 31 16)
  else if id = 131 then some (s, s.fld Reg.PWR_INPUT 15 0)
  else if 132 ≤ id ∧ id ≤ 139 then some (s.nextFree, (s.estimate (id - 131)).toNat)
  else if id = 200 then some (s, s.power)
  else if id = 201 then some (s, s.fld Reg.FLT_JOB 31 31)
  else none

/-- PLDM_SENSOR_READ. -/
def execPldmSensorRead (id : BitVec 16) (s : State) : Host.Outcome State Fault Refusal :=
  .next (s.sideRequest [1] fun t =>
    match t.sensor id.toNat with
    | some (t1, v) => t1.emit (.side (0 :: leBytes 4 v))
    | none => t.emit (.side [3]))

/-- PLDM_EVENT_DELIVERY: the oldest event message leaves the log. -/
def execPldmEventDelivery (s : State) : Host.Outcome State Fault Refusal :=
  match s.pldm with
  | [] => .next s
  | (ident, page, bits) :: rest =>
    if s.sideReady then
      .next ({ s with pldm := rest }.emit (.side (leBytes 4 ident ++ leBytes 4 page ++ leBytes 4 bits)))
    else .next s

/-! ### Dumps (R369, R370) -/

/-- The sections of a unit's dump: kind, source, words. -/
def State.dumpSections (s : State) (u : UnitId) : List (Nat × Nat × Nat) :=
  let pages := (unitPages u).map fun p => (1, p, 1024)
  let kb := min 64 (s.fld Reg.FLT_DUMP_CTRL 22 16)
  match u with
  | .chiplet c =>
    if kb = 0 then pages
    else pages ++ [(2, scratchAt c (s.fld Reg.FLT_DUMP_CTRL 6 0 * 0x10000), 256 * kb)]
  | _ => pages

/-- The word at a source address. -/
def State.dumpRead (s : State) (kind a : Nat) : Nat := if kind = 1 then s.viewWord a else s.loadNat a 4

/-- One section: head, data with markers, bitmap. -/
def State.dumpSection (s : State) (marks : List Nat) (e : Nat × Nat × Nat) : List Byte :=
  let (kind, src, n) := e
  let words := (List.range n).map fun i => src + 4 * i
  let bad := words.map fun a => marks.contains a
  let bits := leBytes ((n + 7) / 8) (bad.foldr (fun b v => boolNat b + 2 * v) 0)
  leBytes 4 kind ++ leBytes 4 n ++ leBytes 8 src
    ++ words.flatMap (fun a => if marks.contains a then leBytes 4 0xDEAD5EA5 else leBytes 4 (s.dumpRead kind a))
    ++ (bits ++ List.replicate ((bits.length + 7) / 8 * 8 - bits.length) 0)

/-- The whole dump, cut at the buffer's end. -/
def State.dumpBytes (s : State) (d : Dump) : List Byte × Bool :=
  let es := s.dumpSections d.unit
  let body := es.flatMap (s.dumpSection d.marks)
  let size := 64 + body.length
  let cut := decide (0x800000 < size)
  let head := dumpHead d cut (min size 0x800000) d.marks.length es.length
  ((head ++ body).take 0x800000, cut)

/-- The address is a word of the dump being taken. -/
def State.dumpHas (s : State) (d : Dump) (a : Nat) : Bool :=
  (s.dumpSections d.unit).any fun e => decide (e.2.1 ≤ a) && decide (a < e.2.1 + 4 * e.2.2) && decide (a % 4 = 0)

/-- DUMP_WORD_TIMEOUT: a word of the dump being taken is not answered within 50 µs. -/
def execDumpWordTimeout (addr : BitVec 48) (s : State) : Host.Outcome State Fault Refusal :=
  match s.dump with
  | none => .next s
  | some d =>
    if d.bytes.isEmpty ∧ s.dumpHas d addr.toNat ∧ !d.marks.contains addr.toNat then
      .next ({ s with dump := some { d with marks := d.marks ++ [addr.toNat] } }.tally Reg.FLT_DUMP_UNREADABLE)
    else .next s

/-- DUMP_COMPLETE: every word of the dump has been read; the unit goes on to its reset. -/
def execDumpComplete (u : UnitId) (s : State) : Host.Outcome State Fault Refusal :=
  match s.dump with
  | none => .next s
  | some d =>
    if d.unit = u ∧ d.bytes.isEmpty ∧ (s.unit u).phase = .dumping then
      let (bs, cut) := s.dumpBytes d
      let s1 := s.holdDump d bs cut
      .next ((s1.setUnit u { s1.unit u with dumpTaken := true, dumpDue := false }).resetOrQuarantine u)
    else .next s

/-- DUMP_RELEASE. -/
def execDumpRelease (who : Requester) (s : State) : Host.Outcome State Fault Refusal :=
  .next (s.command who pgFLT State.releaseDump)

/-- DUMP_DATA_READ: the word at OFFSET, which advances by 4; a requester that may not see the page reads 0. -/
def execDumpDataRead (who : Requester) (s : State) : Host.Outcome State Fault Refusal :=
  if s.pathFrozen who ∨ s.power = 0 then .next (s.notReady who)
  else
    let (s1, bs) := s.readSpace who Reg.FLT_DUMP_DATA 4
    .next (s1.emit (.value who (BitVec.ofNat 64 (leNat bs))))

/-! ### The TAP and the cages (R408, R415) -/

/-- The instruction drives pins. -/
def drivesPins : TapInstr → Bool
  | .extest => true
  | .otherDriving => true
  | _ => false

/-- The boundary-scan instruction in force: one that drives pins acts as BYPASS while a ring is ACTIVE. -/
def State.tapInForce (s : State) : TapInstr :=
  if s.pads.tapReset then .bypass
  else if drivesPins s.pads.tap ∧ s.anyRingActive then .bypass
  else s.pads.tap

/-- The dies on the chain, by name, from TDI on. -/
def State.tapChain (s : State) : List String :=
  if s.power = 0 then []
  else if s.power = 1 then ["BINNACLE"]
  else ["BINNACLE", "BASE0", "BASE1", "BASE2", "BASE3", "HOST0", "HOST1", "FARPORT0", "FARPORT1"]

/-- TAP_RESET: TRST_N goes low. -/
def execTapReset (s : State) : Host.Outcome State Fault Refusal :=
  .next { s with pads := { s.pads with tapReset := true, tap := .bypass } }

/-- TAP_INSTRUCTION: an instruction is loaded; TRST_N is high when it can be. -/
def execTapInstruction (i : TapInstr) (s : State) : Host.Outcome State Fault Refusal :=
  if s.power = 0 then .next s else .next { s with pads := { s.pads with tapReset := false, tap := i } }

/-- OSFP_CABLE_INSERT: a cable that advertises more than 5 W is held in low-power mode, and its link stays down. -/
def execOsfpCableInsert (p : Fin 2) (over5W : Bool) (s : State) : Host.Outcome State Fault Refusal :=
  let others := s.pads.lowPower.filter fun q => decide (q ≠ p.val)
  let s1 := { s with pads := { s.pads with lowPower := if over5W then others ++ [p.val] else others } }
  .next (if over5W then s1.setFld (Reg.FP_CTRL p) 31 31 0 else s1)

end Sys2Proof.Machine
end

