-- ==== Sys2Proof/Machine/UpdBlocks.lean ====
section
/-! DEFINITION. The blocks of an update engine's passes and its roll-forward, with the register space that an entry may name
(R224 to R242, R428). -/

namespace Sys2Proof.Machine

/-! ### Register space (R428) -/

/-- The ranges of an entry that lie in register space. -/
def State.entryRegs (s : State) (e : TensorEntry) : List (Nat × Nat) :=
  ((e.ranges s.compat).map fun r => (r.1, r.2.1)).filter fun r => placeOf r.1 == .regs

/-- The ranges of register space that an engine's block in progress may reach: those of its entry, of its outer step and of the snapshot. -/
def State.blockRegs (s : State) (k : Nat) : List (Nat × Nat) :=
  let e := s.curEntry k
  let p := e.shard + 256 * (s.upd k).block
  let src := match s.curPass k with
    | some (.outer _ _ r fp32 host a) =>
      s.snapRanges r p ++ if host then [] else let w := if fp32 then 4 else 2; [(a + w * p, 256 * w)]
    | some (.null r _) => s.snapRanges r p
    | _ => []
  s.entryRegs e ++ src.filter fun r => placeOf r.1 == .regs

/-- The ranges of register space that the entries of an engine's map reach. -/
def State.mapRegs (s : State) (k : Nat) : List (Nat × Nat) :=
  (List.range (mapCount (s.liveMap k))).flatMap fun i => s.entryRegs (s.mapEntry (s.liveMap k) i)

/-- What ranges of register space read, with PF0's rights, stands where the engine reads it. -/
def State.showRegs (s : State) (k : Fin 48) (rs : List (Nat × Nat)) : State :=
  { s with mem := rs.foldl (fun m r => Mem.write m r.1 (s.seenBytes (.upd k) (r.1 - regSpace) r.2)) s.mem }

/-- The engine's writes into register space are made, with PF0's rights. -/
def State.takeRegs (s : State) (k : Fin 48) : State :=
  s.regPort.foldl (fun (t : State) w => t.writeRegs (.upd k) (w.1 - regSpace) w.2)
    { s with mem := s.mem.filter fun e => placeOf e.1 != .regs, regPort := [] }

/-- What an engine does where its accesses may reach register space. Reads take no effect there (DESIGN CHOICE: assumption 36). -/
def State.throughRegs (s : State) (k : Fin 48) (rs : List (Nat × Nat)) (f : State → State) : State :=
  if rs.isEmpty then f s else (f (s.showRegs k rs)).takeRegs k

/-! ### The commands -/

/-- STEP_UPDATE_BLOCK. -/
def execStepUpdateBlock (k : Fin 48) (s : State) : Host.Outcome State Fault Refusal :=
  match s.curPass k with
  | some .step => .next (s.throughRegs k (s.blockRegs k) fun t => t.stepOne k)
  | _ => .next s

/-- OUTER_APPLICATION_BLOCK. -/
def execOuterApplicationBlock (k : Fin 48) (s : State) : Host.Outcome State Fault Refusal :=
  match s.curPass k with
  | some (.outer ring _ r fp32 host src) => 
    .next (s.throughRegs k (s.blockRegs k) fun t => t.outerOne k 2 r (some ⟨fp32, host, t.ringDie ring, src⟩))
  | _ => .next s

/-- NULL_STEP_BLOCK. -/
def execNullStepBlock (k : Fin 48) (s : State) : Host.Outcome State Fault Refusal :=
  match s.curPass k with
  | some (.null r _) => .next (s.throughRegs k (s.blockRegs k) fun t => t.outerOne k 3 r none)
  | _ => .next s

/-- RE_DERIVATION_BLOCK. -/
def execReDerivationBlock (k : Fin 48) (s : State) : Host.Outcome State Fault Refusal :=
  match s.curPass k with
  | some (.derive_ ..) => .next (s.throughRegs k (s.blockRegs k) fun t => t.deriveOne k)
  | _ => .next s

/-- SWEEP_BLOCK: one block of a sweep is deviation-checked. -/
def execSweepBlock (k : Fin 48) (s : State) : Host.Outcome State Fault Refusal :=
  let u := s.upd k
  if !(u.running && s.updWorks k && u.sweeping) then .next s
  else match u.due with
    | [] => .next s
    | p :: _ => 
      .next (s.throughRegs k (s.blockRegs k) fun t => ((t.deviation k (t.curEntry k) u.block).sweepCount p).blockDone k)

/-- ROLL_FORWARD: every live journal entry in ring order; then an interrupted pass is to resume at the start of the
map, unless an entry could not be rolled forward. -/
def execRollForward (k : Fin 48) (s : State) : Host.Outcome State Fault Refusal :=
  let u := s.upd k
  if !(u.recovering && s.wardPowered 5) then .next s
  else
    let s1 := s.throughRegs k (s.mapRegs k) fun t => t.rollForward k
    let ps := if s1.journalLive k then [] else (s1.upd k).held
    .next (s1.setUpd k { s1.upd k with recovering := false, held := [], due := ps, todo := !ps.isEmpty, resumed := !ps.isEmpty })

end Sys2Proof.Machine
end

