-- ==== Sys2Proof/Machine/Dispatch.lean ====
section
/-! DEFINITION. The dispatch of every command to its meaning. -/

namespace Sys2Proof.Machine

/-- The effect of a command on everything but the queue. -/
def exec (i : Instr) (s : State) : Host.Outcome State Fault Refusal :=
  match i with
  | .participantArrive p => Sys2Proof.Machine.execParticipantArrive p s
  | .waypointGather => Sys2Proof.Machine.execWaypointGather s
  | .participantAcknowledge p => Sys2Proof.Machine.execParticipantAcknowledge p s
  | .waypointDone => Sys2Proof.Machine.execWaypointDone s
  | .arrivalTimeout => Sys2Proof.Machine.execArrivalTimeout s
  | .serveRefreshCopy => Sys2Proof.Machine.execServeRefreshCopy s
  | .servingChangeApply c => Sys2Proof.Machine.execServingChangeApply c s
  | .modDevnumWrite who v => Sys2Proof.Machine.execModDevnumWrite who v s
  | .repSoftClear who => Sys2Proof.Machine.execRepSoftClear who s
  | .bar4Access f off op => Sys2Proof.Machine.execBar4Access f off op s
  | .nop c => Sys2Proof.Machine.execNop c s
  | .seqEnd c more => Sys2Proof.Machine.execSeqEnd c more s
  | .jmp c more qp target => Sys2Proof.Machine.execJmp c more qp target s
  | .loop c more sn target => Sys2Proof.Machine.execLoop c more sn target s
  | .defer c more start count => Sys2Proof.Machine.execDefer c more start count s
  | .mark c more m => Sys2Proof.Machine.execMark c more m s
  | .alu c more fn sd a imm b => Sys2Proof.Machine.execAlu c more fn sd a imm b s
  | .setq c more qd cc a imm b => Sys2Proof.Machine.execSetq c more qd cc a imm b s
  | .ldi c more sd imm => Sys2Proof.Machine.execLdi c more sd imm s
  | .idle c more n => Sys2Proof.Machine.execIdle c more n s
  | .mma c more f => Sys2Proof.Machine.execMma c more f s
  | .tstore c more f => Sys2Proof.Machine.execTstore c more f s
  | .vecAdd c more f => Sys2Proof.Machine.execVecAdd c more f s
  | .vecSub c more f => Sys2Proof.Machine.execVecSub c more f s
  | .vecMul c more f => Sys2Proof.Machine.execVecMul c more f s
  | .fma c more f => Sys2Proof.Machine.execFma c more f s
  | .vecMax c more f => Sys2Proof.Machine.execVecMax c more f s
  | .vecMin c more f => Sys2Proof.Machine.execVecMin c more f s
  | .sel c more f => Sys2Proof.Machine.execSel c more f s
  | .cmp c more f => Sys2Proof.Machine.execCmp c more f s
  | .exp2 c more f => Sys2Proof.Machine.execExp2 c more f s
  | .log2 c more f => Sys2Proof.Machine.execLog2 c more f s
  | .rcp c more f => Sys2Proof.Machine.execRcp c more f s
  | .rsqrt c more f => Sys2Proof.Machine.execRsqrt c more f s
  | .rsum c more f => Sys2Proof.Machine.execRsum c more f s
  | .rmax c more f => Sys2Proof.Machine.execRmax c more f s
  | .accrd c more f => Sys2Proof.Machine.execAccrd c more f s
  | .bcast c more f => Sys2Proof.Machine.execBcast c more f s
  | .vtos c more f => Sys2Proof.Machine.execVtos c more f s
  | .cvt c more f => Sys2Proof.Machine.execCvt c more f s
  | .vld c more f => Sys2Proof.Machine.execVld c more f s
  | .vst c more f => Sys2Proof.Machine.execVst c more f s
  | .vsta c more f => Sys2Proof.Machine.execVsta c more f s
  | .sld c more f => Sys2Proof.Machine.execSld c more f s
  | .sst c more f => Sys2Proof.Machine.execSst c more f s
  | .movCopy c more f => Sys2Proof.Machine.execMovCopy c more f s
  | .sigWait c more f => Sys2Proof.Machine.execSigWait c more f s
  | .sigAdd c more f => Sys2Proof.Machine.execSigAdd c more f s
  | .sigSet c more f => Sys2Proof.Machine.execSigSet c more f s
  | .arrive c more f => Sys2Proof.Machine.execArrive c more f s
  | .event c more f => Sys2Proof.Machine.execEvent c more f s
  | .sigRead c more f => Sys2Proof.Machine.execSigRead c more f s
  | .signalApply n => Sys2Proof.Machine.execSignalApply n s
  | .waitResume c => Sys2Proof.Machine.execWaitResume c s
  | .deferredSectionStart c => Sys2Proof.Machine.execDeferredSectionStart c s
  | .accumulationComplete c e => Sys2Proof.Machine.execAccumulationComplete c e s
  | .resightComplete c e => Sys2Proof.Machine.execResightComplete c e s
  | .standinComplete c e => Sys2Proof.Machine.execStandinComplete c e s
  | .chainForward c m => Sys2Proof.Machine.execChainForward c m s
  | .accumulationWrite die m => Sys2Proof.Machine.execAccumulationWrite die m s
  | .accInvalidate who die => Sys2Proof.Machine.execAccInvalidate who die s
  | .accInvalidateDone die region => Sys2Proof.Machine.execAccInvalidateDone die region s
  | .engRetireRequest who c array => Sys2Proof.Machine.execEngRetireRequest who c array s
  | .censusReport src slot r => Sys2Proof.Machine.execCensusReport src slot r s
  | .scSlotStage who clearHist => Sys2Proof.Machine.execScSlotStage who clearHist s
  | .scLsLoad who => Sys2Proof.Machine.execScLsLoad who s
  | .scTableBaseWrite who v => Sys2Proof.Machine.execScTableBaseWrite who v s
  | .rtSwapRequest who mask => Sys2Proof.Machine.execRtSwapRequest who mask s
  | .seqLogClear who c => Sys2Proof.Machine.execSeqLogClear who c s
  | .ringCreate who n => Sys2Proof.Machine.execRingCreate who n s
  | .ringDestroy who n => Sys2Proof.Machine.execRingDestroy who n s
  | .ringEnable who n => Sys2Proof.Machine.execRingEnable who n s
  | .ringDisable who n => Sys2Proof.Machine.execRingDisable who n s
  | .ringUnfreeze who n => Sys2Proof.Machine.execRingUnfreeze who n s
  | .doorbell f off data => Sys2Proof.Machine.execDoorbell f off data s
  | .descriptorFetch n => Sys2Proof.Machine.execDescriptorFetch n s
  | .descriptorComplete n => Sys2Proof.Machine.execDescriptorComplete n s
  | .refusedRetry n idx => Sys2Proof.Machine.execRefusedRetry n idx s
  | .rcRetryExpiry n idx => Sys2Proof.Machine.execRcRetryExpiry n idx s
  | .functionUnfreeze who die mask => Sys2Proof.Machine.execFunctionUnfreeze who die mask s
  | .descriptorNop n idx => Sys2Proof.Machine.execDescriptorNop n idx s
  | .copy n idx => Sys2Proof.Machine.execCopy n idx s
  | .fill n idx => Sys2Proof.Machine.execFill n idx s
  | .toHost n idx r => Sys2Proof.Machine.execToHost n idx r s
  | .fromHost n idx r => Sys2Proof.Machine.execFromHost n idx r s
  | .serveRequest n idx => Sys2Proof.Machine.execServeRequest n idx s
  | .serveDispatch n idx => Sys2Proof.Machine.execServeDispatch n idx s
  | .computeStart n idx => Sys2Proof.Machine.execComputeStart n idx s
  | .computeStop n idx => Sys2Proof.Machine.execComputeStop n idx s
  | .sigHostopAdd who die value => Sys2Proof.Machine.execSigHostopAdd who die value s
  | .sigHostopSet who die value => Sys2Proof.Machine.execSigHostopSet who die value s
  | .sigEvtPop who die => Sys2Proof.Machine.execSigEvtPop who die s
  | .arbiterGrant die arb cycle raises => Sys2Proof.Machine.execArbiterGrant die arb cycle raises s
  | .burstEnd die arb cycle wants => Sys2Proof.Machine.execBurstEnd die arb cycle wants s
  | .backoffExpiry die arb port cycle => Sys2Proof.Machine.execBackoffExpiry die arb port cycle s
  | .mapValidate k => Sys2Proof.Machine.execMapValidate k s
  | .updatePassStart k => Sys2Proof.Machine.execUpdatePassStart k s
  | .stepUpdateBlock k => Sys2Proof.Machine.execStepUpdateBlock k s
  | .outerApplicationBlock k => Sys2Proof.Machine.execOuterApplicationBlock k s
  | .nullStepBlock k => Sys2Proof.Machine.execNullStepBlock k s
  | .reDerivationBlock k => Sys2Proof.Machine.execReDerivationBlock k s
  | .rollForward k => Sys2Proof.Machine.execRollForward k s
  | .updVarStage who => Sys2Proof.Machine.execUpdVarStage who s
  | .updVarRead who => Sys2Proof.Machine.execUpdVarRead who s
  | .outerStep n idx => Sys2Proof.Machine.execOuterStep n idx s
  | .derive n idx => Sys2Proof.Machine.execDerive n idx s
  | .sweep n idx => Sys2Proof.Machine.execSweep n idx s
  | .engineUnfreeze who k => Sys2Proof.Machine.execEngineUnfreeze who k s
  | .slowTierAccess who off op err => Sys2Proof.Machine.execSlowTierAccess who off op err s
  | .flitSend l typ payload => Sys2Proof.Machine.execFlitSend l typ payload s
  | .dataFlit l f fec => Sys2Proof.Machine.execDataFlit l f fec s
  | .nakFlit l f => Sys2Proof.Machine.execNakFlit l f s
  | .controlFlit l f corrected lost => Sys2Proof.Machine.execControlFlit l f corrected lost s
  | .idleFlit l f => Sys2Proof.Machine.execIdleFlit l f s
  | .ackTimeout l => Sys2Proof.Machine.execAckTimeout l s
  | .peerSignalDetect l => Sys2Proof.Machine.execPeerSignalDetect l s
  | .trainComplete l t => Sys2Proof.Machine.execTrainComplete l t s
  | .retrainComplete l t => Sys2Proof.Machine.execRetrainComplete l t s
  | .retrain who l => Sys2Proof.Machine.execRetrain who l s
  | .linkDisable who l => Sys2Proof.Machine.execLinkDisable who l s
  | .linkEnable who l => Sys2Proof.Machine.execLinkEnable who l s
  | .laneLockLoss l lane => Sys2Proof.Machine.execLaneLockLoss l lane s
  | .laneMarginCheck l symbols => Sys2Proof.Machine.execLaneMarginCheck l symbols s
  | .torusPacketArrive l p => Sys2Proof.Machine.execTorusPacketArrive l p s
  | .torSliceWrite who geom v => Sys2Proof.Machine.execTorSliceWrite who geom v s
  | .torCollBaseWrite who v => Sys2Proof.Machine.execTorCollBaseWrite who v s
  | .injection m => Sys2Proof.Machine.execInjection m s
  | .reduceScatter e => Sys2Proof.Machine.execReduceScatter e s
  | .collectiveTile e axis shard t => Sys2Proof.Machine.execCollectiveTile e axis shard t s
  | .fetch e => Sys2Proof.Machine.execFetch e s
  | .fetchServe m => Sys2Proof.Machine.execFetchServe m s
  | .broadcast e => Sys2Proof.Machine.execBroadcast e s
  | .flagOr e => Sys2Proof.Machine.execFlagOr e s
  | .permute e => Sys2Proof.Machine.execPermute e s
  | .permuteCopyPhase e => Sys2Proof.Machine.execPermuteCopyPhase e s
  | .collectiveTimeout e => Sys2Proof.Machine.execCollectiveTimeout e s
  | .relayWrite who v => Sys2Proof.Machine.execRelayWrite who v s
  | .autoRelay => Sys2Proof.Machine.execAutoRelay s
  | .torProbe who => Sys2Proof.Machine.execTorProbe who s
  | .probeResult => Sys2Proof.Machine.execProbeResult s
  | .cblPwrTrip l => Sys2Proof.Machine.execCblPwrTrip l s
  | .cablePresence l present => Sys2Proof.Machine.execCablePresence l present s
  | .deltaFirstPass k => Sys2Proof.Machine.execDeltaFirstPass k s
  | .deltaSecondPass k => Sys2Proof.Machine.execDeltaSecondPass k s
  | .spanStreamForm first => Sys2Proof.Machine.execSpanStreamForm first s
  | .snapshotStreamForm => Sys2Proof.Machine.execSnapshotStreamForm s
  | .streamEncode p stream => Sys2Proof.Machine.execStreamEncode p stream s
  | .pacerSend p => Sys2Proof.Machine.execPacerSend p s
  | .pacerRateUpdate p => Sys2Proof.Machine.execPacerRateUpdate p s
  | .dataPacket p f => Sys2Proof.Machine.execDataPacket p f s
  | .parityPacket p f => Sys2Proof.Machine.execParityPacket p f s
  | .nack p f => Sys2Proof.Machine.execNack p f s
  | .feedback p f => Sys2Proof.Machine.execFeedback p f s
  | .probe p f => Sys2Proof.Machine.execProbe p f s
  | .probeReply p f => Sys2Proof.Machine.execProbeReply p f s
  | .snapReq p f => Sys2Proof.Machine.execSnapReq p f s
  | .chunkAdd k m => Sys2Proof.Machine.execChunkAdd k m s
  | .nackTimeout p stream => Sys2Proof.Machine.execNackTimeout p stream s
  | .feedbackTimer p stream => Sys2Proof.Machine.execFeedbackTimer p stream s
  | .probeTimer p => Sys2Proof.Machine.execProbeTimer p s
  | .partnerDown p => Sys2Proof.Machine.execPartnerDown p s
  | .resendRelease stream => Sys2Proof.Machine.execResendRelease stream s
  | .partnerValid who p => Sys2Proof.Machine.execPartnerValid who p s
  | .handoff n idx => Sys2Proof.Machine.execHandoff n idx s
  | .snapFetch n idx => Sys2Proof.Machine.execSnapFetch n idx s
  | .snapReqTimer => Sys2Proof.Machine.execSnapReqTimer s
  | .snapshotLoad => Sys2Proof.Machine.execSnapshotLoad s
  | .compress n idx k => Sys2Proof.Machine.execCompress n idx k s
  | .expand n idx k => Sys2Proof.Machine.execExpand n idx k s
  | .cipherCoreDispatch p core => Sys2Proof.Machine.execCipherCoreDispatch p core s
  | .cipherUnitDone p core => Sys2Proof.Machine.execCipherUnitDone p core s
  | .encrypt n idx => Sys2Proof.Machine.execEncrypt n idx s
  | .decrypt n idx => Sys2Proof.Machine.execDecrypt n idx s
  | .keyLoad who => Sys2Proof.Machine.execKeyLoad who s
  | .keyErase who => Sys2Proof.Machine.execKeyErase who s
  | .epochInstall who p e => Sys2Proof.Machine.execEpochInstall who p e s
  | .epochSwitch who => Sys2Proof.Machine.execEpochSwitch who s
  | .previousHoldEnd => Sys2Proof.Machine.execPreviousHoldEnd s
  | .graceEnd => Sys2Proof.Machine.execGraceEnd s
  | .xstateWrite who v => Sys2Proof.Machine.execXstateWrite who v s
  | .powerRequestDormant who => Sys2Proof.Machine.execPowerRequestDormant who s
  | .powerRequestWatch who => Sys2Proof.Machine.execPowerRequestWatch who s
  | .watchEntryComplete => Sys2Proof.Machine.execWatchEntryComplete s
  | .powerRequestReady who => Sys2Proof.Machine.execPowerRequestReady who s
  | .readySequenceComplete defects => Sys2Proof.Machine.execReadySequenceComplete defects s
  | .mainInputLoss => Sys2Proof.Machine.execMainInputLoss s
  | .mainUndervoltage mv => Sys2Proof.Machine.execMainUndervoltage mv s
  | .mainInputApply => Sys2Proof.Machine.execMainInputApply s
  | .standbyLoss => Sys2Proof.Machine.execStandbyLoss s
  | .wakeInHigh => Sys2Proof.Machine.execWakeInHigh s
  | .wakeInLow => Sys2Proof.Machine.execWakeInLow s
  | .binnacleBootComplete b => Sys2Proof.Machine.execBinnacleBootComplete b s
  | .clockStart w => Sys2Proof.Machine.execClockStart w s
  | .pllLockFail w => Sys2Proof.Machine.execPllLockFail w s
  | .clockIdleStop w => Sys2Proof.Machine.execClockIdleStop w s
  | .powerSample mv ca => Sys2Proof.Machine.execPowerSample mv ca s
  | .fastLoop => Sys2Proof.Machine.execFastLoop s
  | .slowLoop => Sys2Proof.Machine.execSlowLoop s
  | .thermalSample sensor raw => Sys2Proof.Machine.execThermalSample sensor raw s
  | .thermalStep => Sys2Proof.Machine.execThermalStep s
  | .thermalTrip sensor => Sys2Proof.Machine.execThermalTrip sensor s
  | .powerOnReset defects => Sys2Proof.Machine.execPowerOnReset defects s
  | .fundamentalReset d => Sys2Proof.Machine.execFundamentalReset d s
  | .moduleWarmReset who defects => Sys2Proof.Machine.execModuleWarmReset who defects s
  | .wardReset who w => Sys2Proof.Machine.execWardReset who w s
  | .functionLevelReset f => Sys2Proof.Machine.execFunctionLevelReset f s
  | .unitReset who u => Sys2Proof.Machine.execUnitReset who u s
  | .fence who u dump => Sys2Proof.Machine.execFence who u dump s
  | .drainEnd u => Sys2Proof.Machine.execDrainEnd u s
  | .drainTimeout u => Sys2Proof.Machine.execDrainTimeout u s
  | .dumpWordTimeout addr => Sys2Proof.Machine.execDumpWordTimeout addr s
  | .dumpComplete u => Sys2Proof.Machine.execDumpComplete u s
  | .resetComplete u => Sys2Proof.Machine.execResetComplete u s
  | .probationComplete u pass => Sys2Proof.Machine.execProbationComplete u pass s
  | .halt who => Sys2Proof.Machine.execHalt who s
  | .watchdogSample => Sys2Proof.Machine.execWatchdogSample s
  | .watchdogExpiry u => Sys2Proof.Machine.execWatchdogExpiry u s
  | .unquarantine who => Sys2Proof.Machine.execUnquarantine who s
  | .dumpRelease who => Sys2Proof.Machine.execDumpRelease who s
  | .dumpDataRead who => Sys2Proof.Machine.execDumpDataRead who s
  | .firmwareUpdateWrite imageB off data last => Sys2Proof.Machine.execFirmwareUpdateWrite imageB off data last s
  | .firmwareActivate who => Sys2Proof.Machine.execFirmwareActivate who s
  | .firmwareRunning => Sys2Proof.Machine.execFirmwareRunning s
  | .bootFallback => Sys2Proof.Machine.execBootFallback s
  | .registerWrite who addr width v => Sys2Proof.Machine.execRegisterWrite who addr width v s
  | .applyNow who page => Sys2Proof.Machine.execApplyNow who page s
  | .discard who page => Sys2Proof.Machine.execDiscard who page s
  | .snapTake who page bank => Sys2Proof.Machine.execSnapTake who page bank s
  | .snapTakeClear who page bank => Sys2Proof.Machine.execSnapTakeClear who page bank s
  | .counterClear who addr width v => Sys2Proof.Machine.execCounterClear who addr width v s
  | .evtStatusClear who page v => Sys2Proof.Machine.execEvtStatusClear who page v s
  | .evtEnableWrite who page v => Sys2Proof.Machine.execEvtEnableWrite who page v s
  | .evtForce who page v => Sys2Proof.Machine.execEvtForce who page v s
  | .unfreeze who page => Sys2Proof.Machine.execUnfreeze who page s
  | .vdmRead page off width => Sys2Proof.Machine.execVdmRead page off width s
  | .vdmWrite page off width v => Sys2Proof.Machine.execVdmWrite page off width v s
  | .vdmSnapshot page bank clear => Sys2Proof.Machine.execVdmSnapshot page bank clear s
  | .mctpControl cmd => Sys2Proof.Machine.execMctpControl cmd s
  | .pldmSensorRead id => Sys2Proof.Machine.execPldmSensorRead id s
  | .pldmEventDelivery => Sys2Proof.Machine.execPldmEventDelivery s
  | .tapReset => Sys2Proof.Machine.execTapReset s
  | .tapInstruction m => Sys2Proof.Machine.execTapInstruction m s
  | .perstRelease d => Sys2Proof.Machine.execPerstRelease d s
  | .pllLock w => Sys2Proof.Machine.execPllLock w s
  | .sweepBlock k => Sys2Proof.Machine.execSweepBlock k s
  | .farPortLinkChange p up => Sys2Proof.Machine.execFarPortLinkChange p up s
  | .osfpCableInsert p over5W => Sys2Proof.Machine.execOsfpCableInsert p over5W s

end Sys2Proof.Machine
end

