-- ==== Sys2Proof/Machine/Tick.lean ====
section
/-! DEFINITION. The passing of time, which no command of the table states: the module timestamp advances, and what
goes on by itself is brought up to it (R346, R349, R361, R382, R389). -/

namespace Sys2Proof.Machine

/-- The next edge of the 32,768 Hz clock behind a time, in ns: edge k stands at the whole part of k × 10^9 / 32,768, so that
no second gains an error (R389). -/
def nextEdge (t : Nat) : Nat :=
  let k := ((t + 1) * 32768 + 999999999) / 1000000000
  k * 1000000000 / 32768

/-- How far the timestamp advances: 1 ns in READY and ACTIVE, to the next always-on edge in WATCH, not at all in DORMANT. -/
def State.tickLength (s : State) : Nat :=
  if s.power = 0 then 0 else if s.power = 1 then nextEdge s.now - s.now else 1

/-- Units whose probation has ended are admitted when no job runs (R361). -/
def State.admitIdle (s : State) : State := if s.wp.job then s else s.admitAll

/-- The module timestamp advances. -/
def State.advance (s : State) : State := { s.charge s.tickLength with now := s.now + s.tickLength }

/-- A tick. -/
def State.tick (s : State) : State :=
  if s.power = 0 then s
  else
    let s1 := allUnits.foldl State.noteUnit ((s.advance.admitIdle.trainHosts).wakeClocks.holdCycles s.tickLength)
    (if s1.power < 2 then s1.noteIdle else s1.noteIdle.stepMhz).stopDone.noteRestart

end Sys2Proof.Machine
end

