-- ==== Sys2Proof/Safety.lean ====
section
/-! DEFINITION. What counts as a safe step, and the shapes in which statements say what a command does and what it
leaves alone. -/

namespace Sys2Proof.Machine

/-- The command completes at the state. -/
def Completes (i : Instr) (s : State) : Prop := ∃ t, exec i s = .next t

/-- The command completes with a state of which P holds. -/
def Gives (i : Instr) (s : State) (P : State → Prop) : Prop := ∃ t, exec i s = .next t ∧ P t

/-- Only registers differ, and what announces them: MSI-X messages and pending bits, the binnacle's event messages. -/
def Announces (s t : State) : Prop :=
  t = { s with regs := t.regs, out := t.out, msixPending := t.msixPending, pldm := t.pldm }

/-- Every register outside a list holds what it held. -/
def KeepsRegs (s t : State) (l : List Nat) : Prop := ∀ a, a ∉ l → t.reg a = s.reg a

/-- Every byte of module memory holds what it held. -/
def KeepsMem (s t : State) : Prop := ∀ a, t.load a 1 = s.load a 1

/-- The requester's register path is open, it has PF0's rights, and the ward of the page has power (R56, R198, R378). -/
abbrev MayCommand (s : State) (who : Requester) (page : Nat) : Prop :=
  s.pathFrozen who = false ∧ asPF0 who = true ∧ s.wardPowered (page / 0x1000000) = true

/-- The requester may write the header of the page it names, which is p, of a given type: its register path is open and its
ward powered (R56, R378, R381). -/
abbrev MayHeader (s : State) (who : Requester) (page : BitVec 28) (p : Nat) (k : PageKind) : Prop :=
  s.pathFrozen who = false ∧ (∀ o < 0x1000, s.busAddr who (pageBase page.toNat + o) = some (p + o)) ∧ p % 0x1000 = 0
    ∧ (∃ i, pageOf p = some (k, i)) ∧ s.mayWrite who p = true ∧ s.wardPowered (p / 0x1000000) = true

/-- The requester may run a command of a ring's registers: PF0's rights, or where `owner` says so those of the function that
owns the ring; the HOST ward runs (R184, R209). -/
abbrev MayRing (s : State) (who : Requester) (n : Nat) (owner : Bool) : Prop :=
  s.pathFrozen who = false ∧ s.hostRuns = true ∧
    (match who with
      | .func f => decide (f.idx = 0) || (owner && s.ownsRing f n)
      | _ => true) = true

/-- The count of interrupts that cannot be raised, and what it sets when it is full (R387, R392): any event may touch them. -/
abbrev irqRegs : List Nat := [Reg.RC_IRQ_DROPPED, pageBase Reg.RC_IRQ_DROPPED + Hdr.CNT_OVF, pageBase Reg.RC_IRQ_DROPPED + Hdr.EVT_STATUS]

/-- Every register of another page holds what it held; the count of interrupts that cannot be raised is left out. -/
def KeepsPages (s t : State) (pages : List Nat) : Prop :=
  ∀ a, a ∉ irqRegs → pageBase (a % 2 ^ 32) ∉ pages → t.reg a = s.reg a

/-- A change of the STATE of page p's unit that no tick has noted is noted at e, with the state before it and the STATE event of the
unit's pages (R381, R391); where nothing changed, or the page is no unit's, nothing does. -/
def StateNoted (s e : State) (p : Nat) : Prop :=
  (∀ u, unitOfPage p = some u → s.unitCode u ≠ (s.unit u).code →
    e = { s with regs := e.regs, out := e.out, msixPending := e.msixPending, pldm := e.pldm, units := e.units }
      ∧ (e.unit u).code = s.unitCode u ∧ (e.unit u).prev = (s.unit u).code ∧ (∀ w, w ≠ u → e.unit w = s.unit w)
      ∧ KeepsRegs s e ((unitPages u).map (· + Hdr.EVT_STATUS) ++ irqRegs)
      ∧ ∀ q ∈ unitPages u, e.flag (q + Hdr.EVT_STATUS) 1 = true)
  ∧ ((∀ u, unitOfPage p = some u → s.unitCode u = (s.unit u).code) → e = s)

/-- A SAT counter went up by n, up to all ones (R387). -/
def Counts (s t : State) (a n : Nat) : Prop := t.reg a = min (s.reg a + n) (2 ^ (satWidth a).getD 32 - 1)

/-- Every other ring is as it was. -/
def KeepsOtherRings (s t : State) (n : Nat) : Prop := ∀ m, m ≠ n → t.ring m = s.ring m

/-- n bytes at a local offset lie in populated HBM, slow tier, bank SRAM or scratch, no burst of memory has given an
uncorrectable error, and no table is there whose writes are dropped (R103, R179). -/
abbrev PlainAt (s : State) (a n : Nat) : Prop :=
  0 < n ∧ populated a n = true ∧ a + n ≤ 0x200200000000 ∧ s.badBursts = []
    ∧ (overlaps a n s.tableRange.1 s.tableRange.2 = false ∨ s.tableRange.2 = 0)
    ∧ (overlaps a n s.patchTable.1 (32 * s.patchTable.2) = false ∨ s.patchTable.2 = 0)

/-- Such bytes that a read finds sound: no burst of DRAM there has a byte nothing has written, or it gives no error (R427). -/
abbrev SoundAt (s : State) (a n : Nat) : Prop := PlainAt s a n ∧ s.uncorrectable a n = false

/-- n bytes at a global address are such bytes of this module, which the window set allows and no fence refuses; where they
are read, a read finds them sound. -/
abbrev RowHere (s : State) (who : Requester) (set : Option Nat) (ga n : Nat) (write : Bool) : Prop :=
  s.reach ga n = .here (ga % 2 ^ 48) ∧ s.windowOk set ga n write = true ∧ s.rangeServes who (ga % 2 ^ 48) n = true
    ∧ PlainAt s (ga % 2 ^ 48) n ∧ (write = false → s.uncorrectable (ga % 2 ^ 48) n = false)

/-- n bytes at a local offset are such bytes for the collective unit, under TOR_WSET. -/
abbrev MayColl (s : State) (off n : Nat) (write : Bool) : Prop :=
  off < 2 ^ 48 ∧ RowHere s .coll s.collSet (s.globalOf off) n write

/-- A range a descriptor of ring n names is empty or made of such bytes. -/
abbrev DescHere (s : State) (n : Nat) (r : Nat × Nat) (write : Bool) : Prop :=
  r.2 = 0 ∨ RowHere s (.ring (Fin.ofNat 32768 n)) (some (s.ringWset n)) r.1 r.2 write

/-- A link owes its peer n credits more of a virtual channel (R249). -/
abbrev Owes (s t : State) (l vc n : Nat) : Prop :=
  Map.get (fun _ => 0) (t.link l).owed vc = Map.get (fun _ => 0) (s.link l).owed vc + n

/-- Link k is UP, nothing waits on it, and it has credits of every channel and replay room for n packets
(R249, R264). -/
abbrev LinkReady (s : State) (k n : Nat) : Prop :=
  s.linkState k = 2 ∧ (s.link k).txq = [] ∧ (s.link k).outq = [] ∧ (s.link k).sent = []
    ∧ (∀ vc < 8, n ≤ (s.link k).credit vc) ∧ (s.link k).replay.length + n ≤ 1024

/-- A frame of a type comes by a port that works, from partner q, and passes the receive checks (R291, R325). -/
abbrev FrameTaken (s : State) (p : Nat) (f : Frame) (typ q : Nat) : Prop :=
  frameShaped f = true ∧ f.typ.toNat = typ ∧ f.badFcs = false ∧ s.portWorks p = true ∧ s.partnerOf f = some q
    ∧ (f.clear = true → s.normal = false) ∧ (f.clear = false → s.role p f.epoch.toNat ≠ 0)
    ∧ frameSound (s.keySlot (s.epochSlot p f.epoch.toNat)).key f = true ∧ s.replayed p q f = false

/-- A control packet waits for a core of partner q's port, sealed for it alone (R315, R324), where the port works and its die
may send. -/
abbrev Queued (s t : State) (q : Nat) (f : Frame) : Prop :=
  s.portWorks (s.ptrPort q) = true → s.canSeal (s.ptrPort q) = true →
    (t.cipher (s.ptrPort q)).txWait = (s.cipher (s.ptrPort q)).txWait
      ++ [.control q (sealFrame (s.keySlot (s.epochSlot (s.ptrPort q) ((s.epochOn (s.ptrPort q)).getD 0))).key
        (s.stamp (s.ptrPort q) f))]

/-- Every row of a COPY or FILL descriptor has its source and its destination in such bytes. -/
abbrev RowsOk (s : State) (who : Requester) (set : Option Nat) (d : List Byte) : Prop :=
  ∀ i < cpRows d, (opOf d = 1 → RowHere s who set (rowAt (cpSrc d) (cpSrcStride d) i) (cpLen d) false)
    ∧ RowHere s who set (rowAt (cpDst d) (cpDstStride d) i) (cpLen d) true

/-- Every byte of module memory outside a range holds what it held. -/
def KeepsMemBut (s t : State) (a n : Nat) : Prop := ∀ k, (k < a ∨ a + n ≤ k) → t.load k 1 = s.load k 1

/-- The writes took place in order: each one that no later one overlaps stands in memory, and every byte outside all of
them holds what it held. -/
def WritesDone (s t : State) (ws : List (Nat × List Byte)) : Prop :=
  (∀ l w r, ws = l ++ w :: r → (∀ x ∈ r, overlaps w.1 w.2.length x.1 x.2.length = false) → t.load w.1 w.2.length = w.2)
    ∧ ∀ k, (∀ w ∈ ws, k < w.1 ∨ w.1 + w.2.length ≤ k) → t.load k 1 = s.load k 1

/-- Writes are of such bytes and none touches the section table (R273). -/
def State.SectionsStay (s : State) (ws : List (Nat × List Byte)) : Prop :=
  ∀ w ∈ ws, w.2 ≠ [] → PlainAt s w.1 w.2.length
    ∧ overlaps w.1 w.2.length (s.reg Reg.XCH_SECT / 4096 * 4096) (64 * s.sectCount) = false

/-- What the second pass of engine k writes for section i: residuals, the codes and scales of fix snapshot r mod 2, and the anchor copy
where snapshot requests wait (R278, R279, R309). `first` and `w` are as in `selectSection`. -/
def State.passWrites (s : State) (k r w first i : Nat) : List (Nat × List Byte) :=
  let x := s.sect i
  let st := (Map.find s.delta.stats i).getD ⟨one32, 0, 0, List.replicate 8 3⟩
  let both := s.sectDeltas x
  let snap := snapshotOf (both.map Prod.fst)
  [(x.residual, (s.selectSection k w first x st (both.map Prod.snd)).2.1), (s.snapBase r + x.start, snap.1),
    (s.snapScales r + 2 * (x.start / 256), snap.2)]
  ++ (match s.delta.snaps with
    | some (_ :: _) => [(s.regionAddr 4 + 2 * x.start, s.load x.anchor (2 * x.params))]
    | _ => [])

/-- The writes of a second pass of engine k leave the section table and all that the pass reads of its segment alone, but for each
residual, the third read of its section, which the first write of that section replaces (R278). -/
def State.PassApart (s : State) (k r w : Nat) : Prop :=
  ∀ p ∈ s.segmentFirsts (s.segment k), s.SectionsStay (s.passWrites k r w p.2 p.1) ∧ ∀ i ∈ s.segment k, ∀ n x m y,
    (s.passWrites k r w p.2 p.1)[n]? = some x → (s.sectReads (s.sect i))[m]? = some y →
      overlaps x.1 x.2.length y.1 y.2 = false ∨ (p.1 = i ∧ n = 0 ∧ m = 2)

/-- The snapshot codes of shard indices in no section (R273). -/
def State.gapWrites (s : State) (r : Nat) : List (Nat × List Byte) :=
  s.sectGaps.map fun g => (s.snapBase r + g.1, List.replicate g.2 0)

/-- What a fetched anchor is written as: the master, hi with a remainder of 0 or as FP32 in compatibility mode, the anchor, and a
residual of 0; a shard index in no section takes none (R310). -/
def State.anchorWrites (s : State) (q : Nat × Nat) : List (Nat × List Byte) :=
  match s.placeInSections q.1 with
  | none => []
  | some (x, i) =>
    let m := x.master + masterSize s.compat * (i / 256)
    (if s.compat then [(m + 4 * (i % 256), leBytes 4 (q.2 * 65536))]
      else [(m + 2 * (i % 256), leBytes 2 q.2), (m + 512 + i % 256, [0])])
    ++ [(x.anchor + 2 * i, leBytes 2 q.2), (x.residual + 2 * i, [0, 0])]

/-- The rows have moved, one after the other: each destination that no later one overlaps holds its source's bytes, or the
pattern, and every byte outside the destinations holds what it held. -/
def RowsMoved (s t : State) (d : List Byte) : Prop :=
  WritesDone s t ((List.range (cpRows d)).map fun i => (rowAt (cpDst d) (cpDstStride d) i % 2 ^ 48,
    if opOf d = 1 then s.load (rowAt (cpSrc d) (cpSrcStride d) i % 2 ^ 48) (cpLen d)
    else (List.replicate (cpLen d / 8) (slice d 0x10 8)).flatten))

/-- Every byte of memory outside the destinations of a COPY or FILL descriptor holds what it held. -/
def KeepsBesideRows (s t : State) (d : List Byte) : Prop :=
  ∀ k, (∀ i < cpRows d, k < rowAt (cpDst d) (cpDstStride d) i % 2 ^ 48
    ∨ rowAt (cpDst d) (cpDstStride d) i % 2 ^ 48 + cpLen d ≤ k) → t.load k 1 = s.load k 1

/-- Every other chiplet is as it was. -/
abbrev OtherChips (s t : State) (c : Nat) : Prop := ∀ d, d ≠ c → t.chip d = s.chip d

/-- Engine k can read every entry of its live map. -/
abbrev MapReadable (s : State) (k : Nat) : Prop :=
  ∀ i < mapCount (s.liveMap k), s.readTrouble k [(s.liveMap k / 65536 * 65536 + 192 * i, 192)] = none

/-- Ring n holds a flight at an index with given bytes that ended with a status and a detail. -/
def Ended (t : State) (n idx : Nat) (bytes : List Byte) (st detail : Nat) : Prop :=
  ∃ g ∈ (t.ring n).flights, g.idx = idx ∧ g.bytes = bytes ∧ g.status = some (st, detail)

/-- Ring n holds a flight at an index with given bytes that its unit has accepted. -/
def Accepted (t : State) (n idx : Nat) (bytes : List Byte) : Prop :=
  ∃ g ∈ (t.ring n).flights, g.idx = idx ∧ g.bytes = bytes ∧ g.accepted = true

/-- The main stream of a chiplet issues, no slot of its next bundle is open, and nothing of its own holds a slot back or
makes a hazard: no pending result, busy array, live range or deferred section. Its next bundle is not the last of the bank, and
where the bank holds it whole, all its opcodes are defined (R155). -/
abbrev Quiet (s : State) (c : Nat) : Prop :=
  s.canIssue c = true ∧ (s.chip c).bundle = [] ∧ (s.chip c).section_ = none ∧ (s.chip c).main.pend = []
    ∧ (s.chip c).main.busy = [] ∧ (s.chip c).dfr.written = [] ∧ (s.chip c).ranges = [] ∧ (s.chip c).pendingDefer = none
    ∧ (s.chip c).mainDone = false ∧ (s.chip c).pc < 8191 ∧ (s.chip c).accums = [] ∧ (s.chip c).chainOwn = []
    ∧ (s.chip c).copies = [] ∧ (∀ bs, s.bundleBytes c = some bs → undefinedSlots bs = [])

/-- The manual allows an MMA of chiplet c with the descriptor it reads (R97, R130, R159, R160, R430): its array set, K, streams,
formats, scales and steps; both operands lie in the chiplet's scratch or its bank SRAM, not both in the bank, and read without
error within the ring's windows, as the descriptor and the chain descriptors do (R200); for DEST 1 the chain descriptors are
populated, sound and list each tile of the set once. -/
abbrev MmaAllowed (s : State) (c : Nat) (f : MmaFields) (d : MmaDesc) : Prop :=
  (f.rowsM1.toNat + 1) * (f.colsM1.toNat + 1) ≤ 36
    ∧ f.a0.toNat + (f.rowsM1.toNat + 1) * (f.colsM1.toNat + 1) ≤ 36
    ∧ 0 < d.k ∧ d.k ≤ 0x1000000 ∧ 0 < d.rows ∧ d.rows ≤ 32 ∧ 0 < d.cols ∧ d.cols ≤ 32 ∧ d.dest ≤ 1
    ∧ (pairRate ((d.streamA 0).enters false) ((d.streamB 0).enters false)).isSome = true
    ∧ (pairRate ((d.streamA 0).enters false) ((d.streamB 0).enters false) = some 4 → d.k % 4 = 0)
    ∧ s.operandOk (d.streamA 0) d.k d.aScale d.aStep = true ∧ s.operandOk (d.streamB 0) d.k d.bScale d.bStep = true
    ∧ (∀ r < f.rowsM1.toNat + 1, ∀ sp ∈ (d.streamA r).spans d.k, operandPlace c sp ≠ none
        ∧ s.uncorrectable sp.1 sp.2 = false ∧ s.argShut c sp.1 sp.2 = none)
    ∧ (∀ r < f.colsM1.toNat + 1, ∀ sp ∈ (d.streamB r).spans d.k, operandPlace c sp ≠ none
        ∧ s.uncorrectable sp.1 sp.2 = false ∧ s.argShut c sp.1 sp.2 = none)
    ∧ ((∀ r < f.rowsM1.toNat + 1, ∀ sp ∈ (d.streamA r).spans d.k, operandPlace c sp ≠ some true)
      ∨ ∀ r < f.colsM1.toNat + 1, ∀ sp ∈ (d.streamB r).spans d.k, operandPlace c sp ≠ some true)
    ∧ (d.dest = 1 → d.chain % 512 = 0
      ∧ populated d.chain (512 * ((f.rowsM1.toNat + 1) * (f.colsM1.toNat + 1))) = true
      ∧ s.uncorrectable d.chain (512 * ((f.rowsM1.toNat + 1) * (f.colsM1.toNat + 1))) = false
      ∧ ∀ i < (f.rowsM1.toNat + 1) * (f.colsM1.toNat + 1),
          (s.chainPos (s.chainDesc d.chain i) c (f.a0.toNat + i) f.tile.toNat).isSome = true)
    ∧ (∀ p ∈ s.mmaReads (s.chip c) c f (decide (d.dest = 1)) d.chain ((f.rowsM1.toNat + 1) * (f.colsM1.toNat + 1)),
        s.argShut c p.1 p.2 = none)

/-- Only the sequencer of chiplet c and its PROGRESS counter differ, and of the chiplet not its P registers. -/
def StepsAlone (s t : State) (c : Nat) : Prop :=
  t = { s with regs := t.regs, chiplets := t.chiplets } ∧ KeepsRegs s t [pgENG c + Hdr.PROGRESS]
    ∧ (∀ d, d ≠ c → t.chip d = s.chip d) ∧ (t.chip c).p = (s.chip c).p

/-- As StepsAlone, but that the census of the step and its non-finite flag are what reports of the chiplet for a slot make of
them, one behind the other; slot 0 takes none. -/
def StepsReporting (s t : State) (c slot : Nat) (rs : List CensusRep) : Prop :=
  t = { s with regs := t.regs, chiplets := t.chiplets, census := t.census }
    ∧ KeepsRegs s t [pgENG c + Hdr.PROGRESS, Reg.SC_STEP_NF]
    ∧ t.census = (rs.foldl (fun (u : State) r => u.report c slot r) s).census
    ∧ t.reg Reg.SC_STEP_NF = (rs.foldl (fun (u : State) r => u.report c slot r) s).reg Reg.SC_STEP_NF
    ∧ (∀ d, d ≠ c → t.chip d = s.chip d) ∧ (t.chip c).p = (s.chip c).p

/-- The stream has gone on to the next bundle, one issue cycle later. -/
def OneOn (s t : State) (c : Nat) : Prop :=
  (t.chip c).run = .running ∧ (t.chip c).pc = (s.chip c).pc + 1 ∧ (t.chip c).main.clock = (s.chip c).main.clock + 1

/-! ### The waypoint -/

/-- A SAT counter went up by n, or stands where nothing counts. -/
def CountsUp (s t : State) (a n : Nat) : Prop := (n = 0 → t.reg a = s.reg a) ∧ (n ≠ 0 → Counts s t a n)

/-- The tainted waypoint that this gather makes fills the run that ends the job (R172): 0 acts as 1. -/
abbrev TaintEndsJob (s : State) : Prop :=
  s.verdict.taint = true ∧ max 1 (s.fld Reg.RT_TAINT 7 0) ≤ min 255 (s.fld Reg.RT_TAINT 15 8 + 1)

/-- A pending value is taken at a gather: every participant that its change concerns has arrived, is present and is ready for it, and
the value may become live; the settings of a leg only where a leg ends (R16, R19, R25). -/
def takesChange (s : State) (r : WpReg) : Bool :=
  (r.reg != Reg.WPC_LEG || s.endsLeg false) && s.wpAllowed r
    && r.who.all fun p => s.hasArrived p && s.present p && s.readyFor p r

/-- A pending value is deferred whole (R19); the settings of a leg are held, not deferred (R25). -/
def defersChange (s : State) (r : WpReg) : Bool :=
  s.wpPending r && !takesChange s r && (r.reg != Reg.WPC_LEG || s.endsLeg false)

/-- The pattern in force is the one of the module's own route, so that banks may swap (R175). -/
def latIdMatches (s t : State) : Bool := decide (t.reg Reg.RT_LATID_LIVE = s.fld (pgSEQ 0 + Hdr.FEAT1) 31 16)

/-- A chiplet's bank swap is asked for, and its ready bit is set (R175). -/
def swapsHere (s : State) (c : Fin 64) : Bool :=
  s.flag Reg.RT_SWAP_REQ c && s.hasArrived (.chiplet c) && s.swapReady c

/-- How many changes a gather defers: pending values, bank swaps, and retirements that a fenced chiplet holds back. -/
def deferredChanges (s t : State) : Nat :=
  (s.wpRegs.filter (defersChange s)).length
    + (if latIdMatches s t then ((List.finRange 64).filter fun (c : Fin 64) => s.flag Reg.RT_SWAP_REQ c && !swapsHere s c).length
       else 0)
    + ((List.finRange 64).filter fun (c : Fin 64) => (s.chip c).retireReq.isSome && !s.unfenced (.chiplet c)).length

/-- Parts (a), (b), (d), (f) and (g) of R17 as registers and units show them: each pending value is live or deferred, and
WPC_DEFERRED counts what is deferred; swap requests are answered or wait; the serve buffers flip; units whose probation is over are
admitted; the engines' journals start again. -/
def ChangesTaken (s t : State) : Prop :=
  (∀ r ∈ s.wpRegs, Nat.land (t.reg r.live) r.mask
    = Nat.land (s.reg (if s.wpPending r = true ∧ takesChange s r = true then r.reg else r.live)) r.mask)
  ∧ CountsUp s t Reg.WPC_DEFERRED (deferredChanges s t)
  ∧ (latIdMatches s t = true → (∀ c : Fin 64, t.flag Reg.RT_SWAP_REQ c = (s.flag Reg.RT_SWAP_REQ c && !swapsHere s c))
      ∧ CountsUp s t Reg.RT_SWAPS ((List.finRange 64).filter (swapsHere s)).length)
  ∧ (latIdMatches s t = false → s.reg Reg.RT_SWAP_REQ ≠ 0 → t.reg Reg.RT_SWAP_REQ = 0
      ∧ Counts s t Reg.RT_SWAP_REJECT ((List.finRange 64).filter fun (c : Fin 64) => s.flag Reg.RT_SWAP_REQ c).length)
  ∧ Counts s t Reg.RT_PATCH_BAD (t.patches.filter patchBad).length
  ∧ t.flag Reg.WPC_POSITION 1 = (s.flag Reg.WPC_POSITION 1 ^^ s.wp.flipPending) ∧ t.wp.flipPending = false
  ∧ (∀ u, s.admissible u = true → t.unfenced u = true)
  ∧ (∀ u, s.admissible u = false → (t.unit u).phase = (s.unit u).phase)
  ∧ ∀ k < 48, (t.upd k).jptr = 0 ∧ (t.upd k).due = (s.upd k).later ∧ (t.upd k).later = []

/-- An array of a chiplet is retired for good: the spare holds its logical number, and the soft-repair region has the entry, unless
it is full (R65, R149). -/
def Retired (s t : State) (c : Fin 64) (a spare : Nat) : Prop :=
  t.physArray c a = spare
    ∧ (repairEntry 2 (c / 16) (s.physChiplet c) (s.physArray c a) spare 2 ∈ t.softRegion ∨ 4096 ≤ t.softRegion.length)

/-- Parts (b), (c) and (e) of R17 on a chiplet: applied at once, or latched by a serving chiplet with a request in progress (R29); a
fenced chiplet takes none. -/
def ChipletsTakePart (s t : State) (c : Fin 64) : Prop :=
  let x := s.chip c
  let y := t.chip c
  let w := s.reg Reg.WPC_WAYPOINT + 1
  let ps := s.patchesOf c t.patches
  let swap := latIdMatches s t && swapsHere s c
  let engaged := s.isServing c && x.serve.isSome
  (s.unfenced (.chiplet c) = false → y.bank = x.bank ∧ (∀ r, y.preg r = x.preg r) ∧ y.standins = x.standins
    ∧ y.retireReq = x.retireReq ∧ y.latched = x.latched)
  ∧ (s.unfenced (.chiplet c) = true → engaged = true → y.bank = x.bank ∧ (∀ r, y.preg r = x.preg r) ∧ y.standins = x.standins
    ∧ y.retireReq = none ∧ y.latched = x.latched ++ [{ wpn := w, commit := s.verdict.commit, patches := ps, swap := swap
                                                       standins := x.standins.filter fun e => !x.latched.any fun o => o.standins.contains e
                                                       retire := x.retireReq }])
  ∧ (s.unfenced (.chiplet c) = true → engaged = false → x.latched = [] → y.bank = (x.bank ^^ swap)
    ∧ (∀ r, y.preg r = (x.patch w s.verdict.commit ps).preg r) ∧ y.standins = [] ∧ y.retireReq = none ∧ y.latched = []
    ∧ (x.retireReq = none → (x.standins.map Prod.fst).Nodup → (∀ e ∈ x.standins, e.1 < 36 ∧ 36 ≤ e.2 ∧ e.2 < 40) →
        ∀ e ∈ x.standins, Retired s t c e.1 e.2)
    ∧ (x.standins = [] → ∀ a, x.retireReq = some a →
        (∀ sp, s.freeSpare c = some sp → a ≤ 35 → Retired s t c a sp ∧ t.fld (Reg.ENG_RETIRE c) 30 29 = 2)
        ∧ (s.freeSpare c = none ∨ 35 < a → t.fld (Reg.ENG_RETIRE c) 30 29 = 3 ∧ ∀ b < 36, t.physArray c b = s.physArray c b)))

/-- Part (h): SC_LS_COMMITTED takes the EXP of the step that ends, R120 moves EXP under the limits and the interval that part (a)
has made live, and a staged load comes last (R120 to R122). -/
def LossScaleMoves (s t : State) : Prop :=
  let e := s.lsExp
  let n := s.fld Reg.SC_LS_STATE_LIVE 31 16
  let lo := signed 8 (t.fld Reg.SC_LS_LIMITS_LIVE 7 0)
  let hi := max lo (signed 8 (t.fld Reg.SC_LS_LIMITS_LIVE 15 8))
  let step : Int := t.fld Reg.SC_LS_CTRL_LIVE 9 8 + 1
  let due := max 1 (t.fld Reg.SC_LS_CTRL_LIVE 31 16) ≤ n + 1
  let moves (e' : Int) (n' : Nat) := s.lsStaged = none → t.lsExp = e' ∧ t.fld Reg.SC_LS_STATE_LIVE 31 16 = n'
  t.fld Reg.SC_LS_COMMITTED 7 0 = s.fld Reg.SC_LS_STATE_LIVE 7 0 ∧ t.lsStaged = none
  ∧ (s.verdict.nf = true → moves (max (e - step) lo) 0 ∧ Counts s t Reg.SC_LS_DECREASES 1
      ∧ (e = lo → Counts s t Reg.SC_LS_FLOOR 1))
  ∧ (s.verdict.nf = false → s.verdict.taint = true → moves e n)
  ∧ (s.verdict.commit = true → due → moves (min (e + 1) hi) 0 ∧ Counts s t Reg.SC_LS_GROWTHS 1
      ∧ (e = hi → Counts s t Reg.SC_LS_CEILING 1))
  ∧ (s.verdict.commit = true → ¬ due → moves e (n + 1))
  ∧ ∀ b, s.lsStaged = some b → t.lsExp = max lo (min hi b.toInt) ∧ t.fld Reg.SC_LS_STATE_LIVE 31 16 = 0

/-- The magnitudes of a slot's history, the newest first (R103). -/
def histOf (s : State) (n : Nat) : List Nat := (s.slotHistory n).map Prod.snd

/-- The history after actions 2 and 5 of R109: AMAX of a step that commits enters the history of a DELAYED slot, and a step skipped
for a non-finite value clears that of a slot that reported one. -/
def histStep (s : State) (n : Nat) : List Nat :=
  match s.slotCensus n with
  | none => histOf s n
  | some r =>
    if s.verdict.nf ∧ 0 < r.nonfinite then []
    else if cfgPolicy (s.slotCfg n) = 1 ∧ s.verdict.commit then (r.amax.toNat :: histOf s n).take 16 else histOf s n

/-- t after actions 3 and 4 of R109: R108 on a step that commits, and the range step. -/
def tStep (s : State) (n : Nat) : Word :=
  let c := s.slotCfg n
  let top := maxHistory (histStep s n |>.map fun h => (0, h))
  let t := if cfgPolicy c = 1 ∧ s.verdict.commit ∧ cfgForm c ≠ 0 ∧ top ≠ 0 then delayedT c (BitVec.ofNat 32 top) else s.slotT n
  if cfgPolicy c = 1 ∧ (s.slotCensus n).isSome ∧ 0 < (s.slotSights n).2 ∧ cfgForm c ≠ 0 then capT (scaleBy t 1) else t

/-- The slot follows a change of EXP by k (R109 action 6). -/
def couples (s : State) (n : Nat) (k : Int) : Bool :=
  decide (n ∈ s.liveSlots) && decide (cfgPolicy (s.slotCfg n) = 1) && bitOf (s.slotCfg n) 18 && decide (k ≠ 0)

/-- A value follows the change of EXP (R109 action 6), held to 2^-126 and 2^127. -/
def coupled (s t : State) (n : Nat) (w : Word) : Word :=
  if couples s n (t.lsExp - s.lsExp) then clampT (scaleBy w (t.lsExp - s.lsExp)) else w

/-- The history of a slot as the device leaves it; an entry of 0 stays 0. -/
def deviceHist (s t : State) (n : Nat) : List Nat :=
  (histStep s n).map fun h => if h = 0 then 0 else (coupled s t n (BitVec.ofNat 32 h)).toNat

/-- What the device computes for a slot at a waypoint: CONFIG stays, history and t follow actions 2 to 6 of R109, and the t of a
CURRENT slot is the section scale handed in (R107). A record of which nothing has been written stays so. -/
def DeviceSlot (s t : State) (n : Nat) : Prop :=
  t.slotCfg n = s.slotCfg n ∧ histOf t n = deviceHist s t n
  ∧ ((cfgPolicy (s.slotCfg n) ≠ 2 ∨ ∀ e ∈ s.sectT, e.1 ≠ n) →
      t.slotT n = if n ∉ s.liveSlots then s.slotT n
        else if cfgForm (s.slotCfg n) = 0 then tStep s n else coupled s t n (tStep s n))
  ∧ (cfgPolicy (s.slotCfg n) = 2 → ∀ l w r, s.sectT = l ++ (n, w) :: r → (∀ x ∈ r, x.1 ≠ n) → t.slotT n = w)

/-- The slot update of a waypoint (R109): a slot that received a report has the census fields of the step and the waypoint number, any
other keeps them; what the device computes stands unless a staged write comes last, which a pinned slot can refuse (R104, R105);
the mirror shows the CONFIG word (R166). -/
def SlotsUpdated (s t : State) (n : Nat) : Prop :=
  (∀ r, s.slotCensus n = some r → t.slotLoad n 0x50 40 = (r.elems + r.zeros * 2 ^ 64 + r.sats * 2 ^ 96 + r.nonfinite * 2 ^ 128
      + r.amax.toNat * 2 ^ 160 + r.sse.toNat * 2 ^ 192 + min (s.slotSights n).1 0xFFFF * 2 ^ 224
      + min (s.slotSights n).2 0xFFFF * 2 ^ 240 + (s.reg Reg.WPC_WAYPOINT + 1) % 2 ^ 64 * 2 ^ 256) % 2 ^ 320)
  ∧ (s.slotCensus n = none → t.slotLoad n 0x50 40 = s.slotLoad n 0x50 40)
  ∧ ((∀ w ∈ s.staged, w.slot ≠ n) → DeviceSlot s t n)
  ∧ (∀ l w r, s.staged = l ++ w :: r → w.slot = n → (∀ x ∈ l ++ r, x.slot ≠ n) →
      if t.pinned n = true ∧ pinRefuses w.cfg.toNat = true then DeviceSlot s t n
      else t.slotT n = w.t ∧ t.slotCfg n = w.cfg.toNat
        ∧ histOf t n = if w.clear then [] else deviceHist s t n)
  ∧ t.mirrorCfg n = t.slotCfg n

/-- Legs and fix rounds at the completion of waypoint n (R23 to R26, R300, R305, R306): the round whose close is due closes and hands
over; where the leg ends, the next one begins with the H and C that are live, the round of its number opens, and an outer step that
is late is counted. -/
def LegsGoOn (s t : State) (n : Nat) : Prop :=
  let r := s.leg
  (∀ q, s.wp.closeAt = some (n, q) → t.fld Reg.XCH_ROUND 31 0 = (s.fld Reg.XCH_ROUND 31 0 + 1) % 2 ^ 32
    ∧ t.fld Reg.UPD_OUTER_STATE 31 0 = q % 2 ^ 32
    ∧ (s.xchEnabled = false → t.handing = none)
    ∧ (s.xchEnabled = true → s.handoffs = [] → t.handing = none ∧ Counts s t Reg.XCH_HANDOFF_LATE 1)
    ∧ (s.xchEnabled = true → ∀ h l, s.handoffs = h :: l → t.handing = some { ring := h.1, idx := h.2, last := q } ∧ t.handoffs = l))
  ∧ ((∀ q, s.wp.closeAt ≠ some (n, q)) → t.fld Reg.XCH_ROUND 31 0 = s.fld Reg.XCH_ROUND 31 0
    ∧ t.fld Reg.UPD_OUTER_STATE 31 0 = s.fld Reg.UPD_OUTER_STATE 31 0 ∧ t.handing = s.handing ∧ t.handoffs = s.handoffs)
  ∧ (n = s.wp.legStart + s.wp.legLen → t.leg = (r + 1) % 2 ^ 32 ∧ t.wp.legStart = n ∧ t.wp.legLen = s.legH
    ∧ t.wp.closeAt = some (n + s.legC, r) ∧ t.fld Reg.WPC_POSITION 31 16 = 0 ∧ t.fld Reg.XCH_ROUND 63 32 = s.wireRound r
    ∧ (s.xchEnabled = false → t.deltaOpen = s.deltaOpen ∧ t.deltaNext = s.deltaNext)
    ∧ (s.xchEnabled = true → s.codecsDue ≠ [] → s.deltaOpen = none → s.deltaNext = [] → t.deltaOpen = some (r, n) ∧ t.deltaNext = []
        ∧ t.delta = { targets := s.validPartners.filter s.ptrUp })
    ∧ (∀ d, s.xchEnabled = true → s.deltaOpen = some d → (∃ k ∈ s.codecsDue, k ∉ s.delta.pass2) → t.deltaOpen = some d
        ∧ t.delta = s.delta ∧ t.deltaNext = s.deltaNext ++ [(r, n, s.validPartners.filter s.ptrUp)])
    ∧ (1 ≤ r → (∀ a, t.roundApplied = some a → a < r - 1) → Counts s t Reg.WPC_OUTER_LATE 1)
    ∧ (r = 0 ∨ (∃ a, t.roundApplied = some a ∧ r - 1 ≤ a) → t.reg Reg.WPC_OUTER_LATE = s.reg Reg.WPC_OUTER_LATE))
  ∧ (n ≠ s.wp.legStart + s.wp.legLen → t.leg = r ∧ t.wp.legStart = s.wp.legStart ∧ t.wp.legLen = s.wp.legLen
    ∧ (∀ q, s.wp.closeAt = some (n, q) → t.wp.closeAt = none)
    ∧ ((∀ q, s.wp.closeAt ≠ some (n, q)) → t.wp.closeAt = s.wp.closeAt)
    ∧ t.fld Reg.WPC_POSITION 31 16 = (n - s.wp.legStart) % 2 ^ 16 ∧ t.fld Reg.XCH_ROUND 63 32 = s.fld Reg.XCH_ROUND 63 32
    ∧ t.deltaOpen = s.deltaOpen ∧ t.deltaNext = s.deltaNext ∧ t.reg Reg.WPC_OUTER_LATE = s.reg Reg.WPC_OUTER_LATE)

/-- The phase log takes the record of step n (R30, R31), 128 bytes at PLOG_HEAD of a ring that PLOG_BASE places in bank SRAM; with
the log off, PLOG_HEAD stays. -/
def PhaseLogged (s t : State) (g : Gather) (n : Nat) : Prop :=
  let a := s.reg Reg.PLOG_BASE / 0x20000 * 0x20000 + 128 * s.fld Reg.PLOG_HEAD 9 0
  let ph (i : Nat) := leBytes 8 (Map.get (fun _ => 0) s.wp.phases i)
  let flags := boolNat (decide (n = s.wp.legStart + s.wp.legLen)) + 2 * boolNat (s.wp.closeAt.any fun c => decide (c.1 = n))
    + 4 * boolNat (decide (t.roundApplied ≠ s.roundApplied)) + 8 * boolNat g.deferred
    + 16 * boolNat (decide (6000 < s.now - g.time))
  (s.flag Reg.PLOG_CTRL 8 = true → inBank (s.reg Reg.PLOG_BASE / 0x20000 * 0x20000) 0x20000 = true → PlainAt s a 128 →
    Memory.wf s.mem →
    t.fld Reg.PLOG_HEAD 9 0 = (s.fld Reg.PLOG_HEAD 9 0 + 1) % 1024
    ∧ t.load a 128 = leBytes 8 n ++ leBytes 8 s.now ++ leBytes 4 s.leg ++ leBytes 2 (n - s.wp.legStart - 1)
        ++ leBytes 1 (boolNat g.nf + 2 * boolNat g.taint) ++ leBytes 1 flags ++ leBytes 2 (min s.wp.rsTiles 0xFFFF)
        ++ leBytes 2 (unsigned 16 (signed 8 (s.fld Reg.SC_LS_COMMITTED 7 0))) ++ leBytes 1 s.wp.trained ++ leBytes 3 0
        ++ ph 0 ++ ph 1 ++ ph 2 ++ ph 3 ++ ph 4 ++ ph 5 ++ ph 6 ++ ph 7 ++ leBytes 4 (min s.wp.serveDone (2 ^ 32 - 1))
        ++ List.replicate 28 0
    ∧ (s.handing = none → n ≠ s.wp.legStart + s.wp.legLen → KeepsMemBut s t a 128))
  ∧ (s.flag Reg.PLOG_CTRL 8 = false → t.reg Reg.PLOG_HEAD = s.reg Reg.PLOG_HEAD
    ∧ (s.handing = none → n ≠ s.wp.legStart + s.wp.legLen → KeepsMem s t))

end Sys2Proof.Machine
end

