-- ==== Sys2Proof/WellFormed.lean ====
section
/-! DEFINITION. Which commands a bus, a link or a port can carry: the widths, lengths and type fields that R248, R249,
R251, R291 and R379 fix. -/

namespace Sys2Proof

/-- A transfer moves at least one byte. -/
def memOpWF : MemOp → Bool
  | .read n => decide (0 < n)
  | .write bs => !bs.isEmpty

/-- A flit of a type has 312 payload bytes (R248). -/
def flitWF (f : Flit) (typ : Nat) : Bool := decide (f.payload.length = 312) && decide (f.typ.toNat = typ)

/-- A frame of a type has the payload its LEN states, 1 to 8,192 bytes, and a 16-byte tag (R291). -/
def frameWF (f : Frame) (typ : Nat) : Bool :=
  decide (f.payload.length = f.len.toNat) && decide (1 ≤ f.len.toNat) && decide (f.len.toNat ≤ 8192)
    && decide (f.tag.length = 16) && decide (f.typ.toNat = typ)

/-- A register access is 1, 2, 4 or 8 bytes wide (R379). -/
def accessWF (width : Nat) : Bool := [1, 2, 4, 8].contains width

/-- The command is one that the block can be given. -/
def Instr.wellFormed : Instr → Bool
  | .participantArrive _ => true
  | .waypointGather => true
  | .participantAcknowledge _ => true
  | .waypointDone => true
  | .arrivalTimeout => true
  | .serveRefreshCopy => true
  | .servingChangeApply _ => true
  | .modDevnumWrite _ _ => true
  | .repSoftClear _ => true
  | .bar4Access _ _ op => memOpWF op
  | .nop _ => true
  | .seqEnd _ _ => true
  | .jmp _ _ _ _ => true
  | .loop _ _ _ _ => true
  | .defer _ _ _ _ => true
  | .mark _ _ _ => true
  | .alu _ _ _ _ _ _ _ => true
  | .setq _ _ _ _ _ _ _ => true
  | .ldi _ _ _ _ => true
  | .idle _ _ _ => true
  | .mma _ _ _ => true
  | .tstore _ _ _ => true
  | .vecAdd _ _ _ => true
  | .vecSub _ _ _ => true
  | .vecMul _ _ _ => true
  | .fma _ _ _ => true
  | .vecMax _ _ _ => true
  | .vecMin _ _ _ => true
  | .sel _ _ _ => true
  | .cmp _ _ _ => true
  | .exp2 _ _ _ => true
  | .log2 _ _ _ => true
  | .rcp _ _ _ => true
  | .rsqrt _ _ _ => true
  | .rsum _ _ _ => true
  | .rmax _ _ _ => true
  | .accrd _ _ _ => true
  | .bcast _ _ _ => true
  | .vtos _ _ _ => true
  | .cvt _ _ _ => true
  | .vld _ _ _ => true
  | .vst _ _ _ => true
  | .vsta _ _ _ => true
  | .sld _ _ _ => true
  | .sst _ _ _ => true
  | .movCopy _ _ _ => true
  | .sigWait _ _ _ => true
  | .sigAdd _ _ _ => true
  | .sigSet _ _ _ => true
  | .arrive _ _ _ => true
  | .event _ _ _ => true
  | .sigRead _ _ _ => true
  | .signalApply _ => true
  | .waitResume _ => true
  | .deferredSectionStart _ => true
  | .accumulationComplete _ _ => true
  | .resightComplete _ _ => true
  | .standinComplete _ _ => true
  | .chainForward _ _ => true
  | .accumulationWrite _ _ => true
  | .accInvalidate _ _ => true
  | .accInvalidateDone _ _ => true
  | .engRetireRequest _ _ _ => true
  | .censusReport _ _ _ => true
  | .scSlotStage _ _ => true
  | .scLsLoad _ => true
  | .scTableBaseWrite _ _ => true
  | .rtSwapRequest _ _ => true
  | .seqLogClear _ _ => true
  | .ringCreate _ _ => true
  | .ringDestroy _ _ => true
  | .ringEnable _ _ => true
  | .ringDisable _ _ => true
  | .ringUnfreeze _ _ => true
  | .doorbell _ _ data => decide (data.length = 1 ∨ data.length = 2 ∨ data.length = 4 ∨ data.length = 8)
  | .descriptorFetch _ => true
  | .descriptorComplete _ => true
  | .refusedRetry _ _ => true
  | .rcRetryExpiry _ _ => true
  | .functionUnfreeze _ _ _ => true
  | .descriptorNop _ _ => true
  | .copy _ _ => true
  | .fill _ _ => true
  | .toHost _ _ _ => true
  | .fromHost _ _ _ => true
  | .serveRequest _ _ => true
  | .serveDispatch _ _ => true
  | .computeStart _ _ => true
  | .computeStop _ _ => true
  | .sigHostopAdd _ _ _ => true
  | .sigHostopSet _ _ _ => true
  | .sigEvtPop _ _ => true
  | .arbiterGrant _ _ _ _ => true
  | .burstEnd _ _ _ _ => true
  | .backoffExpiry _ _ _ _ => true
  | .mapValidate _ => true
  | .updatePassStart _ => true
  | .stepUpdateBlock _ => true
  | .outerApplicationBlock _ => true
  | .nullStepBlock _ => true
  | .reDerivationBlock _ => true
  | .rollForward _ => true
  | .updVarStage _ => true
  | .updVarRead _ => true
  | .outerStep _ _ => true
  | .derive _ _ => true
  | .sweep _ _ => true
  | .engineUnfreeze _ _ => true
  | .slowTierAccess _ _ op _ => memOpWF op
  | .flitSend _ _ payload => decide (payload.length = 312)
  | .dataFlit _ f _ => flitWF f 1
  | .nakFlit _ f => flitWF f.flit 2
  | .controlFlit _ f _ _ => flitWF f 3
  | .idleFlit _ f => flitWF f.flit 0
  | .ackTimeout _ => true
  | .peerSignalDetect _ => true
  | .trainComplete _ _ => true
  | .retrainComplete _ _ => true
  | .retrain _ _ => true
  | .linkDisable _ _ => true
  | .linkEnable _ _ => true
  | .laneLockLoss _ _ => true
  | .laneMarginCheck _ symbols => decide (symbols.length = 17)
  | .torusPacketArrive _ _ => true
  | .torSliceWrite _ _ _ => true
  | .torCollBaseWrite _ _ => true
  | .injection _ => true
  | .reduceScatter _ => true
  | .collectiveTile _ _ _ _ => true
  | .fetch _ => true
  | .fetchServe _ => true
  | .broadcast _ => true
  | .flagOr _ => true
  | .permute _ => true
  | .permuteCopyPhase _ => true
  | .collectiveTimeout _ => true
  | .relayWrite _ _ => true
  | .autoRelay => true
  | .torProbe _ => true
  | .probeResult => true
  | .cblPwrTrip _ => true
  | .cablePresence _ _ => true
  | .deltaFirstPass _ => true
  | .deltaSecondPass _ => true
  | .spanStreamForm _ => true
  | .snapshotStreamForm => true
  | .streamEncode _ _ => true
  | .pacerSend _ => true
  | .pacerRateUpdate _ => true
  | .dataPacket _ f => frameWF f 1
  | .parityPacket _ f => frameWF f 2
  | .nack _ f => frameWF f 3
  | .feedback _ f => frameWF f 4
  | .probe _ f => frameWF f 5
  | .probeReply _ f => frameWF f 6
  | .snapReq _ f => frameWF f 7
  | .chunkAdd _ _ => true
  | .nackTimeout _ _ => true
  | .feedbackTimer _ _ => true
  | .probeTimer _ => true
  | .partnerDown _ => true
  | .resendRelease _ => true
  | .partnerValid _ _ => true
  | .handoff _ _ => true
  | .snapFetch _ _ => true
  | .snapReqTimer => true
  | .snapshotLoad => true
  | .compress _ _ _ => true
  | .expand _ _ _ => true
  | .cipherCoreDispatch _ _ => true
  | .cipherUnitDone _ _ => true
  | .encrypt _ _ => true
  | .decrypt _ _ => true
  | .keyLoad _ => true
  | .keyErase _ => true
  | .epochInstall _ _ _ => true
  | .epochSwitch _ => true
  | .previousHoldEnd => true
  | .graceEnd => true
  | .xstateWrite _ _ => true
  | .powerRequestDormant _ => true
  | .powerRequestWatch _ => true
  | .watchEntryComplete => true
  | .powerRequestReady _ => true
  | .readySequenceComplete _ => true
  | .mainInputLoss => true
  | .mainUndervoltage _ => true
  | .mainInputApply => true
  | .standbyLoss => true
  | .wakeInHigh => true
  | .wakeInLow => true
  | .binnacleBootComplete _ => true
  | .clockStart _ => true
  | .pllLockFail _ => true
  | .clockIdleStop _ => true
  | .powerSample _ _ => true
  | .fastLoop => true
  | .slowLoop => true
  | .thermalSample _ _ => true
  | .thermalStep => true
  | .thermalTrip _ => true
  | .powerOnReset _ => true
  | .fundamentalReset _ => true
  | .moduleWarmReset _ _ => true
  | .wardReset _ _ => true
  | .functionLevelReset _ => true
  | .unitReset _ _ => true
  | .fence _ _ _ => true
  | .drainEnd _ => true
  | .drainTimeout _ => true
  | .dumpWordTimeout _ => true
  | .dumpComplete _ => true
  | .resetComplete _ => true
  | .probationComplete _ _ => true
  | .halt _ => true
  | .watchdogSample => true
  | .watchdogExpiry _ => true
  | .unquarantine _ => true
  | .dumpRelease _ => true
  | .dumpDataRead _ => true
  | .firmwareUpdateWrite _ _ _ _ => true
  | .firmwareActivate _ => true
  | .firmwareRunning => true
  | .bootFallback => true
  | .registerWrite _ _ width _ => accessWF width
  | .applyNow _ _ => true
  | .discard _ _ => true
  | .snapTake _ _ _ => true
  | .snapTakeClear _ _ _ => true
  | .counterClear _ _ width _ => accessWF width
  | .evtStatusClear _ _ _ => true
  | .evtEnableWrite _ _ _ => true
  | .evtForce _ _ _ => true
  | .unfreeze _ _ => true
  | .vdmRead _ _ _ => true
  | .vdmWrite _ _ _ _ => true
  | .vdmSnapshot _ _ _ => true
  | .mctpControl _ => true
  | .pldmSensorRead _ => true
  | .pldmEventDelivery => true
  | .tapReset => true
  | .tapInstruction _ => true
  | .perstRelease _ => true
  | .pllLock _ => true
  | .sweepBlock _ => true
  | .farPortLinkChange _ _ => true
  | .osfpCableInsert _ _ => true

end Sys2Proof
end

