-- ==== Sys2Proof/Certificates/Slice0/Obligations.lean ====
section
/-! DEFINITION. The statements about this model, in the order of the manual's chapters. -/

open Sys2Proof Sys2Proof.Machine

/-- STEP. A step with a command at the front of the queue is exec of that command on the state with the queue's rest. -/
def Obligations.StepRunsFrontCommand : Prop :=
  ∀ (c : Instr) (r : List Instr) (s : State), s.pending = c :: r → step s = exec c { s with pending := r }

/-- Time. On an empty queue a step lets the timestamp run, by 1 ns in READY and ACTIVE, in WATCH from one edge of the
always-on clock to the next, which is 30,517 or 30,518 ns later, and in DORMANT not at all; the queue stays empty. That time
passes on an empty queue is the model's choice (assumption 2). -/
def Obligations.IdleStepAdvancesTime : Prop :=
  ∀ s : State, s.pending = [] → ∃ t, step s = .next t ∧ t.pending = []
    ∧ (s.power = 0 → t.now = s.now)
    ∧ (2 ≤ s.power → t.now = s.now + 1)
    ∧ (s.power = 1 → ∀ k, s.now = k * 1000000000 / 32768 →
        t.now = (k + 1) * 1000000000 / 32768 ∧ (t.now = s.now + 30517 ∨ t.now = s.now + 30518))

/-- Reset. Right after power-on the module stands in WATCH with registers at the reset values of their tables, nothing in
memory, no ring, no command, and every unit unfenced. -/
def Obligations.ResetLeavesTableValues : Prop :=
  State.reset.power = 1 ∧ State.reset.pending = [] ∧ State.reset.mem = [] ∧ State.reset.now = 0
    ∧ (∀ a, State.reset.reg a = (regReset a).toNat) ∧ (∀ n, (State.reset.ring n).st = .off)
    ∧ (∀ u, State.reset.unfenced u = true) ∧ (∀ c, State.reset.sig c = 0)
    ∧ State.reset.reg Reg.WPC_LEG = 0x00010001 ∧ State.reset.reg Reg.WPC_ARRIVE_TIMEOUT = 0x000F4240
    ∧ State.reset.reg Reg.TOR_COLL_TIMEOUT = 0x3E8 ∧ State.reset.fld Reg.RT_TAINT 7 0 = 3
    ∧ (∀ l < 6, State.reset.reg (Reg.TOR_LINK_CTRL l) = 0x308)

/-- Module memory keeps its canonical form, addresses strictly rising, in every step. -/
def Obligations.EveryStepKeepsMemoryForm : Prop :=
  ∀ s t : State, Memory.wf s.mem → step s = .next t → Memory.wf t.mem

/-- Module memory has its canonical form right after reset. -/
def Obligations.MemoryFormAtReset : Prop := Memory.wf State.reset.mem

/-- No command touches the queue: it holds after exec what it held before. -/
def Obligations.CommandsLeaveTheQueue : Prop :=
  ∀ (c : Instr) (s t : State), exec c s = .next t → t.pending = s.pending

/-- Every command of the table, with whatever operands and in whatever state, ends in a next state: no command faults and none
is refused. A command that the manual drops, ignores or turns away ends in the state that this leaves. That an event command
whose condition fails (assumption 3) and a command with ill-formed operands (assumption 60) do not stop either, but leave the
state as those entries say, is the model's choice; the chapters do not settle it. -/
def Obligations.EveryCommandCompletes : Prop :=
  ∀ (c : Instr) (s : State), Completes c s

/-- R51. For every coordinate x below 16, y below 8 and z below 8 the logical index z × 128 + y × 16 + x has those coordinates,
and renaming one of them changes no other. -/
def Obligations.LogicalIndexHasItsCoordinates : Prop :=
  ∀ x y z v a b : Nat, x < 16 → y < 8 → z < 8 → a < 3 → b < 3 → (v < if a = 0 then 16 else 8) →
    coordOf (z * 128 + y * 16 + x) 0 = x ∧ coordOf (z * 128 + y * 16 + x) 1 = y ∧ coordOf (z * 128 + y * 16 + x) 2 = z
      ∧ coordOf (withCoord (z * 128 + y * 16 + x) a v) b = if b = a then v else coordOf (z * 128 + y * 16 + x) b

/-- Arrival and acknowledgement (R16, R17). While a job runs and no waypoint is in progress, a participant that may arrive does
so with its own non-finite and taint flags and a ready bit for each pending change that concerns it and that it is ready for, a
bank swap of its own among them (R175), and nobody else arrives with it; while one is in progress a participant that has not acknowledged does so. Nothing but the controller
changes. -/
def Obligations.ParticipantsArriveAndAcknowledge : Prop :=
  (∀ (p : Participant) (s : State), s.wp.job = true → s.wp.stopping = false → s.wp.gather = none → s.hasArrived p = false →
    s.present p = true → s.canArrive p = true →
    Gives (.participantArrive p) s fun t => t = { s with wp := t.wp } ∧ t.hasArrived p = true
      ∧ (∀ q, q ≠ p → t.hasArrived q = s.hasArrived q) ∧ t.wp.firstArrival ≠ none
      ∧ ∃ a ∈ t.wp.arrived, a.who = p ∧ a.nf = s.partNf p ∧ a.taint = s.partTaint p
        ∧ ∀ r, r ∈ a.ready ↔ (∃ w ∈ s.wpRegs, w.reg = r ∧ s.wpPending w = true ∧ p ∈ w.who ∧ s.readyFor p w = true)
            ∨ r = Reg.RT_SWAP_REQ ∧ ∃ c, p = .chiplet c ∧ s.flag Reg.RT_SWAP_REQ c = true ∧ s.swapReady c = true)
  ∧ (∀ (p : Participant) (g : Gather) (s : State), s.wp.gather = some g → p ∉ g.acks → s.present p = true →
    Gives (.participantAcknowledge p) s fun t => t = { s with wp := t.wp } ∧
      ∃ h, t.wp.gather = some h ∧ h = { g with acks := h.acks } ∧ ∀ q, q ∈ h.acks ↔ q = p ∨ q ∈ g.acks)

/-- The gather instant. When every present participant has arrived, the controller latches the outcome, SKIP when some
participant reported a non-finite gradient or a taint, with the time of the gather, and IN_WAYPOINT reads 1 (R17, R18). A
waypoint skipped for both causes increments both WPC_SKIP_NONFINITE and WPC_SKIP_TAINT (R33), up to all ones. A run of tainted
waypoints that reaches RT_TAINT.LIMIT ends the job (R172); otherwise the change set is taken whole, as ChangesTaken,
ChipletsTakePart, LossScaleMoves and SlotsUpdated say: parts (a) to (i) of R17, the deferrals of R19, the slot update of R109 and
R108 in a slot table that SC_TABLE_BASE places, EXP, the clean count and SC_LS_COMMITTED of R120 to R122. Which ready bits there
are is the model's reading (assumptions 22 and 23). -/
def Obligations.GatherLatchesTheOutcome : Prop :=
  ∀ s : State, s.wp.job = true → s.wp.stopping = false → s.wp.gather = none →
    (∀ p ∈ allParticipants, s.hasArrived p = true ∨ s.present p = false) →
    Gives .waypointGather s fun t =>
      (s.verdict.nf = true → s.verdict.taint = true → Counts s t Reg.WPC_SKIP_NONFINITE 1 ∧ Counts s t Reg.WPC_SKIP_TAINT 1)
      ∧ (TaintEndsJob s → t.wp.job = false ∧ Counts s t Reg.RT_TAINT_FAULTS 1)
      ∧ (¬ TaintEndsJob s → ∃ g, t.wp.gather = some g ∧ g.time = s.now ∧ g.start = false ∧ g.acks = []
        ∧ (g.nf = true ↔ s.nfFlag = true ∨ ∃ a ∈ s.wp.arrived, a.nf = true)
        ∧ (g.taint = true ↔ s.taintFlag = true ∨ ∃ a ∈ s.wp.arrived, a.taint = true)
        ∧ g.deferred = decide (deferredChanges s t ≠ 0) ∧ g.outers = s.updQueue ∧ t.updQueue = []
        ∧ t.wp.job = true ∧ t.flag Reg.WPC_POSITION 0 = true
        ∧ t.fld Reg.RT_TAINT 15 8 = (if s.verdict.taint = true then s.fld Reg.RT_TAINT 15 8 + 1 else 0)
        ∧ ChangesTaken s t ∧ (∀ c : Fin 64, ChipletsTakePart s t c) ∧ LossScaleMoves s t
        ∧ ∀ b, s.slotBase = some b → Memory.wf s.mem → s.badBursts = [] →
            KeepsMemBut s t b 0x200000 ∧ t.census = [] ∧ t.resighted = [] ∧ t.staged = [] ∧ t.sectT = []
            ∧ ∀ n, 0 < n → n < 16384 → n ∈ s.liveSlots → SlotsUpdated s t n)

/-- WAYPOINT_DONE. Once every present participant has acknowledged, the waypoint ends: nothing is in progress any more, nobody has
arrived at the next one, and the flags, general signal counters, collective entries but a PERMUTE, and counts of the step start
again (R114, R115, R180, R202, R259). A step counts in WPC_WAYPOINT after every outcome, its duration is kept and held to 6 µs
(R21), legs and fix rounds go on as LegsGoOn says (R23 to R26, R300), and the phase log takes the record of R30. The
update engines start, and the training chiplets that are not fenced begin the next step, unless the job stops here (R17 step 5,
R177). The waypoint of COMPUTE START counts no step and completes its descriptor (R194). -/
def Obligations.AcknowledgedWaypointEnds : Prop :=
  ∀ (g : Gather) (s : State), s.wp.gather = some g → (∀ p ∈ allParticipants, p ∈ g.acks ∨ s.present p = false) →
    Gives .waypointDone s fun t => t.wp.gather = none ∧ t.wp.arrived = [] ∧ t.wp.firstArrival = none ∧ t.wp.timeoutRaised = false
      ∧ t.wp.late = [] ∧ t.flag Reg.WPC_POSITION 0 = false
      ∧ t.reg Reg.WPC_LAST_DURATION = min (s.now - g.time) (2 ^ 32 - 1)
      ∧ (6000 < s.now - g.time → Counts s t Reg.WPC_OVER_BUDGET 1)
      ∧ (s.now - g.time ≤ 6000 → t.reg Reg.WPC_OVER_BUDGET = s.reg Reg.WPC_OVER_BUDGET)
      ∧ (∀ a ∈ [Reg.SC_STEP_NF, Reg.SC_SLICE, Reg.RT_STEP_TAINT, Reg.RT_SLICE], t.flag a 0 = false)
      ∧ (∀ c, t.sig c = if c % 4096 < 2048 then 0 else s.sig c)
      ∧ (t.colls = s.colls.filter fun e => decide (s.loadNat (s.reg Reg.TOR_COLL_BASE / 65536 * 65536 + 64 * e.1) 1 = 5))
      ∧ t.wp.rsTiles = 0 ∧ t.wp.serveDone = 0 ∧ t.wp.phases = []
      ∧ (g.start = true → t.reg Reg.WPC_WAYPOINT = s.reg Reg.WPC_WAYPOINT ∧ KeepsMem s t ∧ t.wp.legLen = s.legH
        ∧ t.fld Reg.WPC_POSITION 3 2 = 0 ∧ t.flag Reg.FLT_JOB 31 = false ∧ t.wp.startBy = none
        ∧ ∀ n < 32768, ∀ i, s.wp.startBy = some (n, i) →
            ∀ f ∈ (s.ring n).flights, f.idx = i → f.status = none → Ended t n i f.bytes 0 0)
      ∧ (g.start = false → t.reg Reg.WPC_WAYPOINT = (s.reg Reg.WPC_WAYPOINT + 1) % 2 ^ 64
        ∧ t.fld Reg.WPC_POSITION 3 2 = boolNat g.nf + 2 * boolNat g.taint
        ∧ (∀ k < 48, (t.upd k).todo = true ∧ (t.upd k).wpn = s.reg Reg.WPC_WAYPOINT + 1
            ∧ (t.upd k).exp = signed 8 (s.fld Reg.SC_LS_COMMITTED 7 0)
            ∧ (g.nf = false → g.taint = false → (t.upd k).due.head? = some .step))
        ∧ (s.wp.stopBy = [] → ∀ c : Fin 64, s.isServing c = false → s.unfenced (.chiplet c) = true →
            (t.chip c).run = .running ∧ (t.chip c).pc = s.fld (Reg.SEQ_ENTRY_LIVE c) 12 0)
        ∧ (s.wp.stopBy ≠ [] → t.wp.stopping = true ∧ t.wp.job = s.wp.job)
        ∧ LegsGoOn s t (s.reg Reg.WPC_WAYPOINT + 1) ∧ PhaseLogged s t g (s.reg Reg.WPC_WAYPOINT + 1))

/-- A late participant (R22). WPC_ARRIVE_TIMEOUT after the first arrival, with a present participant missing, the arrival-timeout
event (9) of the controller's page is set, once, and names every participant that is missing; memory keeps every byte. What a
timeout outside 1,000 to 60,000,000 does is the model's choice (assumption 24). -/
def Obligations.LateArrivalRaisesItsEvent : Prop :=
  ∀ (s : State) (t0 : Nat), s.wp.firstArrival = some t0 → s.wp.gather = none → s.wp.timeoutRaised = false →
    (∃ p ∈ allParticipants, s.present p = true ∧ s.hasArrived p = false) →
    t0 + max 1000 (min 60000000 (s.reg Reg.WPC_ARRIVE_TIMEOUT)) * 1000 ≤ s.now →
    Gives .arrivalTimeout s fun t => t.flag (pgWPC + Hdr.EVT_STATUS) 9 = true ∧ t.wp.timeoutRaised = true ∧ KeepsMem s t
      ∧ ∀ p, p ∈ t.wp.late ↔ s.present p = true ∧ s.hasArrived p = false

/-- Serving beside training (R28, R29). While no waypoint is in progress and every update engine is idle, a due refresh copies the
working weights into the serve buffer that is not current and has the buffers flip at the next waypoint; nothing else changes. A
serving chiplet that is not fenced and is between requests takes every change it latched, in order, bank swaps, patches of its P
registers and stand-ins that become permanent, and the current buffer; no other chiplet changes. -/
def Obligations.ServingTakesRefreshAndLatches : Prop :=
  (∀ s : State, s.wp.refreshDue = true → s.wp.gather = none → (∀ k < 48, s.updIdle k = true) →
    Gives .serveRefreshCopy s fun t => t.wp.refreshDue = false ∧ t.wp.flipPending = true
      ∧ t = { s with serveBufs := t.serveBufs, wp := t.wp }
      ∧ Map.get (fun _ => []) t.serveBufs (1 - boolNat (s.flag Reg.WPC_POSITION 1)) = s.workingWeights
      ∧ Map.get (fun _ => []) t.serveBufs (boolNat (s.flag Reg.WPC_POSITION 1))
        = Map.get (fun _ => []) s.serveBufs (boolNat (s.flag Reg.WPC_POSITION 1)))
  ∧ (∀ (c : Fin 64) (s : State), s.isServing c = true → (s.chip c).serve = none → s.unfenced (.chiplet c) = true →
    (s.chip c).latched ≠ [] →
    Gives (.servingChangeApply c) s fun t => (t.chip c).latched = [] ∧ (t.chip c).serveBuf = s.flag Reg.WPC_POSITION 1
      ∧ (∀ r, (t.chip c).preg r
          = ((s.chip c).latched.foldl (fun (x : Chiplet) l => x.patch l.wpn l.commit l.patches) (s.chip c)).preg r)
      ∧ (t.chip c).bank = (s.chip c).latched.foldl (fun b l => b ^^ l.swap) (s.chip c).bank
      ∧ (∀ l ∈ (s.chip c).latched, ∀ e ∈ l.standins, e ∉ (t.chip c).standins)
      ∧ (t.chip c).s = (s.chip c).s ∧ (t.chip c).v = (s.chip c).v ∧ OtherChips s t c ∧ KeepsMem s t)

/-- COMPUTE START and STOP. A START that no job and no fence stands against begins a waypoint sequence of its own with outcome
COMMIT; a STOP while a job runs is accepted and completes at the next waypoint. -/
def Obligations.StartAndStopAreTaken : Prop :=
  (∀ (n : Fin 32768) (idx : BitVec 16) (f : Flight) (s : State), s.flightOf n idx.toNat 0 1 = some f → f.accepted = false →
    s.controllerFenced = false → s.wp.job = false →
    Gives (.computeStart n idx) s fun t => ∃ g, t.wp.gather = some g ∧ g.start = true ∧ g.nf = false ∧ g.taint = false
      ∧ g.time = s.now)
  ∧ (∀ (n : Fin 32768) (idx : BitVec 16) (f : Flight) (s : State), s.flightOf n idx.toNat 0 2 = some f → f.accepted = false →
    s.controllerFenced = false → s.wp.job = true →
    Gives (.computeStop n idx) s fun t => (n.val, idx.toNat) ∈ t.wp.stopBy ∧ t.wp.job = true ∧ Accepted t n idx.toNat f.bytes
      ∧ KeepsMem s t ∧ (∀ m, m ≠ n.val → t.ring m = s.ring m))

/-- Ring commands (R184, R199, R209). An OFF ring is created READY with TAIL set to HEAD; a ring with nothing in flight is destroyed
to OFF and disabled to READY at once, one with descriptors in flight leaves when they complete; READY becomes ACTIVE by ENABLE,
which a fenced or quarantined host die refuses and counts (R358, R371), and FROZEN by UNFREEZE, where fetch resumes at HEAD. No other ring, and no byte of memory, changes. -/
def Obligations.RingCommandsMoveTheRing : Prop :=
  (∀ (who : Requester) (n : Fin 32768) (s : State), MayRing s who n false → (s.ring n).st = .off →
    Gives (.ringCreate who n) s fun t => (t.ring n).st = .ready ∧ (t.ring n).flights = [] ∧ t.ringTail n = s.ringHead n
      ∧ (∀ m, m ≠ n.val → t.ring m = s.ring m) ∧ KeepsMem s t)
  ∧ (∀ (who : Requester) (n : Fin 32768) (s : State), MayRing s who n false →
      ((s.ring n).st = .ready ∨ (s.ring n).st = .active ∨ (s.ring n).st = .frozen) →
    Gives (.ringDestroy who n) s fun t => ((s.ring n).flights = [] → (t.ring n).st = .off ∧ t.reg (Reg.RING_PTR n) = 0)
      ∧ ((s.ring n).flights ≠ [] → (t.ring n).leaving = some .off ∧ (t.ring n).flights = (s.ring n).flights)
      ∧ (∀ m, m ≠ n.val → t.ring m = s.ring m) ∧ KeepsMem s t)
  ∧ (∀ (who : Requester) (n : Fin 32768) (s : State), MayRing s who n true → (s.ring n).st = .ready →
    Gives (.ringEnable who n) s fun t => (s.ringServed n = true → (t.ring n).st = .active ∧ t.flag (Reg.RING_CTRL n) 29 = true)
      ∧ (s.ringServed n = false → t.ring n = s.ring n ∧ Announces s t ∧ Counts s t Reg.FLT_REFUSED 1)
      ∧ (∀ m, m ≠ n.val → t.ring m = s.ring m) ∧ KeepsMem s t)
  ∧ (∀ (who : Requester) (n : Fin 32768) (s : State), MayRing s who n true → (s.ring n).st = .active →
      (s.ring n).leaving = none →
    Gives (.ringDisable who n) s fun t => ((s.ring n).flights = [] → (t.ring n).st = .ready)
      ∧ ((s.ring n).flights ≠ [] → (t.ring n).leaving = some .ready ∧ (t.ring n).st = .active)
      ∧ t.flag (Reg.RING_CTRL n) 29 = false ∧ (∀ m, m ≠ n.val → t.ring m = s.ring m) ∧ KeepsMem s t)
  ∧ (∀ (who : Requester) (n : Fin 32768) (s : State), MayRing s who n true → (s.ring n).st = .frozen →
    Gives (.ringUnfreeze who n) s fun t => (t.ring n).st = .active ∧ (t.ring n).flights = (s.ring n).flights
      ∧ ((s.ring n).flights = [] → (t.ring n).next = s.ringHead n)
      ∧ t = { s with rings := t.rings } ∧ (∀ m, m ≠ n.val → t.ring m = s.ring m))

/-- Doorbells and fetch (R186, R187, R195). Ring n has its doorbell at n × 64 of a physical function's BAR2, and at slot × 0x1000 +
(n mod 64) × 64 of the BAR2 of a virtual function that owns its group in that slot. A 32-bit or 64-bit write of the owner to the
doorbell's first word sets TAIL of a ring that is READY, ACTIVE or FROZEN to bits 15:0; a TAIL past the size freezes the ring; one
from a function that does not own the ring is dropped and counted. The descriptor at the next index of the ring that the scheduler
picks goes in flight, and the next index is the one after it; one that the checks of R191 pass has no other effect. -/
def Obligations.DoorbellSetsTailAndFetchStarts : Prop :=
  (∀ (f : Func) (n : Nat) (s : State), f.idx.val < 3 → n < 32768 → s.doorbellRing f (64 * n) = some n)
  ∧ (∀ (f : Func) (n slot : Nat) (s : State), 3 ≤ f.idx.val → slot < 16 → s.slotGroup f slot = some (n / 64) →
      s.doorbellRing f (slot * 0x1000 + n % 64 * 64) = some n)
  ∧ (∀ (f : Func) (off : BitVec 21) (n : Nat) (data : List Byte) (s : State), s.hostRuns = true → s.hostInReset f.die = false →
      s.unfenced (.hostDie f.die) = true →
      data.length = 4 ∨ data.length = 8 → off.toNat % 64 = 0 → s.doorbellRing f off.toNat = some n → s.ownsRing f n = true →
      ((s.ring n).st = .ready ∨ (s.ring n).st = .active ∨ (s.ring n).st = .frozen) →
    Gives (.doorbell f off data) s fun t =>
      (leNat data % 0x10000 < s.ringSize n → t.ringTail n = leNat data % 0x10000 ∧ t.ringHead n = s.ringHead n
        ∧ t = { s with regs := t.regs } ∧ KeepsRegs s t [Reg.RING_PTR n])
      ∧ (s.ringSize n ≤ leNat data % 0x10000 → (t.ring n).st = .frozen ∧ KeepsMem s t ∧ KeepsOtherRings s t n))
  ∧ (∀ (f : Func) (off : BitVec 21) (data : List Byte) (s : State), s.hostRuns = true → s.hostInReset f.die = false →
      s.unfenced (.hostDie f.die) = true →
      data.length = 4 ∨ data.length = 8 → off.toNat % 64 = 0 → (∀ n, s.doorbellRing f off.toNat = some n → s.ownsRing f n = false) →
    Gives (.doorbell f off data) s fun t => Announces s t ∧ Counts s t Reg.RC_DB_DROPPED 1)
  ∧ (∀ (n : Fin 32768) (s : State), s.hostCore = true → s.nextFetch (s.ringDie n) = some n.val →
    Gives (.descriptorFetch n) s fun t => (t.ring n).next = s.ringSucc n (s.ring n).next ∧ KeepsOtherRings s t n ∧ KeepsMem s t
      ∧ ∃ g, (t.ring n).flights = (s.ring n).flights ++ [g] ∧ g.idx = (s.ring n).next
        ∧ ∀ d, s.descriptor n (s.ring n).next = some d → g.bytes = d
          ∧ (s.descriptorBad n (s.ring n).next = false → opOf d = 0 ∨ opDefined (s.ringClass n) (opOf d) = true →
              (s.sigAllowed n (ctrOf d) = true → g.status = none
                ∧ t = { s with rings := t.rings, lastFetch := t.lastFetch, regs := t.regs }
                ∧ KeepsRegs s t [pgHOSTF (s.ringDie n) + Hdr.PROGRESS])
              ∧ (s.sigAllowed n (ctrOf d) = false → (t.ring n).st = .frozen)))

/-- Completion (R186, R192, R197, R199, R368, R392). The oldest descriptor of a ring, once it has a status, leaves the ring: LAST_STATUS shows the
status, HEAD advances by one modulo the size and the phase inverts where it wraps, and the host die's PROGRESS goes on. HEAD stands
still for descriptors that were in flight when it was rewritten. With SIGNAL the value is added to the counter, up to its ceiling,
where the window allows it and the base die takes it; with COMPLETE, or for a VIOLATION, the 16 bytes of the record, in host memory or
module memory, stand at the place of the index in the completion ring, with tag, status, phase, index, detail and time, and DETAIL is
any value where the manual gives none; with IRQ the vector of the ring's owner is sent, is pending where it is masked, or is counted
where nothing can be raised. A ring whose function was reset discards record and interrupt. A ring that is leaving settles with its
last descriptor. -/
def Obligations.OldestDescriptorCompletes : Prop :=
  ∀ (n : Fin 32768) (s : State) (f : Flight) (r : List Flight) (st detail a v : Nat) (quiet rec : Bool), s.hostCore = true →
    (s.ring n).flights = f :: r → f.status = some (st, detail) → quiet = (s.ring n).discard →
    rec = ((flagOf f.bytes 0 || decide (st = 4)) && !quiet) → a = s.reg (Reg.RING_COMP n) / 64 * 64 + 16 * f.idx →
    v = s.fld (Reg.RING_AUX n) 26 16 →
    Gives (.descriptorComplete n) s fun t => (t.ring n).flights = r ∧ t.fld (Reg.RING_CTRL n) 23 16 = st % 256
      ∧ KeepsOtherRings s t n
      ∧ t.reg (pgHOSTF (s.ringDie n) + Hdr.PROGRESS) = (s.reg (pgHOSTF (s.ringDie n) + Hdr.PROGRESS) + 1) % 2 ^ 32
      ∧ ((s.ring n).leaving = none ∨ r ≠ [] → (t.ring n).st = (s.ring n).st ∧ (t.ring n).leaving = (s.ring n).leaving
          ∧ ((s.ring n).stale = 0 → t.ringHead n = (s.ringHead n + 1) % s.ringSize n
              ∧ (t.ring n).phase = ((s.ring n).phase ^^ decide ((s.ringHead n + 1) % s.ringSize n = 0)))
          ∧ (0 < (s.ring n).stale → t.ringHead n = s.ringHead n ∧ (t.ring n).stale = (s.ring n).stale - 1))
      ∧ (∀ l, (s.ring n).leaving = some l → r = [] → (t.ring n).st = (if l = .fencing then .ready else l)
          ∧ (t.ring n).leaving = none
          ∧ (l = .off ∨ l = .fencing → t.reg (Reg.RING_PTR n) = 0 ∧ t.flag (Reg.RING_CTRL n) 29 = false))
      -- the signal
      ∧ (flagOf f.bytes 3 = true → s.sigAllowed n (ctrOf f.bytes) = true → s.sigDead (ctrOf f.bytes / 4096) = false →
          t.sig (ctrOf f.bytes) = BitVec.ofNat 32 (min ((s.sig (ctrOf f.bytes)).toNat + sigValueOf f.bytes) 0xFFFFFFFF))
      ∧ (∀ c, c ≠ ctrOf f.bytes ∨ flagOf f.bytes 3 = false ∨ s.sigAllowed n (ctrOf f.bytes) = false
          ∨ s.sigDead (ctrOf f.bytes / 4096) = true → t.sig c = s.sig c)
      -- the record
      ∧ (rec = true → ∃ d, (detailStated (s.ringClass n) (opOf f.bytes) st = true → d = detail)
          ∧ (bitOf (s.reg (Reg.RING_COMP n)) 0 = true →
              t.hostLoad (s.ringDie n) a 16 = recordBytes f st d (s.ring n).phase s.now ∧ KeepsMem s t)
          ∧ (bitOf (s.reg (Reg.RING_COMP n)) 0 = false → PlainAt s a 16 →
              t.load a 16 = recordBytes f st d (s.ring n).phase s.now ∧ KeepsMemBut s t a 16 ∧ t.hostMem = s.hostMem))
      ∧ (rec = false → KeepsMem s t ∧ t.hostMem = s.hostMem)
      -- the interrupt
      ∧ (flagOf f.bytes 1 = true → quiet = false →
          (∀ d i, s.ringOwner n = some (d, i) → s.hostDieDown d = false →
            if s.msixMasked.contains (funcKey d i * 4096 + v) then funcKey d i * 4096 + v ∈ t.msixPending
            else t.out.getLast? = some (.msix d i v))
          ∧ (flagOf f.bytes 3 = false → (∀ d i, s.ringOwner n = some (d, i) → s.hostDieDown d = true) →
              rec = false ∨ bitOf (s.reg (Reg.RING_COMP n)) 0 = true ∨ PlainAt s a 16 →
              Counts s t Reg.RC_IRQ_DROPPED 1))
      -- what else stays
      ∧ (flagOf f.bytes 1 = false → flagOf f.bytes 3 = false → rec = false ∨ bitOf (s.reg (Reg.RING_COMP n)) 0 = true →
          t = { s with regs := t.regs, rings := t.rings, hostMem := t.hostMem, freeCount := t.freeCount }
            ∧ KeepsRegs s t [Reg.RING_PTR n, Reg.RING_CTRL n, pgHOSTF (s.ringDie n) + Hdr.PROGRESS])

/-- Refused descriptors and frozen functions (R190, R192, R199, R201). A descriptor that backs off goes to its engine again within
RC_RETRY; one refused for RC_RETRY completes REFUSED and is counted, but for a SERVE request that by then waits for a free chiplet
alone; NOP completes DONE; a write of 1 to its bit releases a frozen function and no other. -/
def Obligations.RefusalsEndAndFunctionsThaw : Prop :=
  (∀ (n : Fin 32768) (idx : BitVec 16) (s : State) (f : Flight) (t0 : Nat), f ∈ (s.ring n).flights → f.idx = idx.toNat →
      f.refused = some t0 → f.retryAt.isSome = true → f.status = none → s.now ≤ t0 + s.retryTime →
    Gives (.refusedRetry n idx) s fun t => t = { s with rings := t.rings } ∧ KeepsOtherRings s t n
      ∧ { f with retryAt := none, refusals := f.refusals + 1 } ∈ (t.ring n).flights
      ∧ (∀ g, g ∈ (s.ring n).flights → g.idx ≠ idx.toNat → g ∈ (t.ring n).flights))
  ∧ (∀ (n : Fin 32768) (idx : BitVec 16) (s : State) (f : Flight) (t0 : Nat),
      ((s.ring n).flights.find? fun f => decide (f.idx = idx.toNat) && f.status.isNone) = some f → f.refused = some t0 →
      t0 + s.retryTime ≤ s.now →
      (s.ringClass n = 6 → f.accepted = true → s.namesOutside f.bytes = true ∨ s.namesFenced f.bytes = true) →
    Gives (.rcRetryExpiry n idx) s fun t => Ended t n idx.toNat f.bytes 1 0 ∧ KeepsMem s t ∧ KeepsOtherRings s t n
      ∧ Counts s t Reg.RC_REFUSED 1)
  ∧ (∀ (n : Fin 32768) (idx : BitVec 16) (s : State) (f : Flight), s.flight n idx.toNat = some f → opOf f.bytes = 0 →
    Gives (.descriptorNop n idx) s fun t => Ended t n idx.toNat f.bytes 0 0 ∧ t = { s with rings := t.rings }
      ∧ KeepsOtherRings s t n)
  ∧ (∀ (who : Requester) (die : Fin 2) (mask : DWord) (s : State), MayCommand s who pgRC →
    Gives (.functionUnfreeze who die mask) s fun t => t = { s with regs := t.regs } ∧ KeepsRegs s t [frozenReg die]
      ∧ ∀ i < 64, t.flag (frozenReg die) i = (s.flag (frozenReg die) i && !mask.getLsbD i))

/-- CTRL slots that steer the stream, each alone in its bundle on a quiet chiplet: NOP goes on, IDLE lets its cycles pass, MARK
sets the section marker, JMP and LOOP take their target when they are to, DEFER queues a section, END ends a stream with no
section queued. Register files and memory keep what they held, but for the register LOOP counts down. -/
def Obligations.ControlSlotsSteerTheStream : Prop :=
  (∀ (c : Fin 64) (s : State), Quiet s c → Gives (.nop c) s fun t => OneOn s t c ∧ StepsAlone s t c
      ∧ (t.chip c).s = (s.chip c).s ∧ (t.chip c).v = (s.chip c).v ∧ (t.chip c).q = (s.chip c).q ∧ (t.chip c).acc = (s.chip c).acc)
  ∧ (∀ (c : Fin 64) (n : BitVec 22) (s : State), Quiet s c → n ≠ 0 → Gives (.idle c false n) s fun t =>
      (t.chip c).main.clock = (s.chip c).main.clock + n.toNat ∧ (t.chip c).pc = (s.chip c).pc + 1 ∧ StepsAlone s t c
      ∧ (t.chip c).s = (s.chip c).s)
  ∧ (∀ (c : Fin 64) (m : BitVec 2) (s : State), Quiet s c → m ≠ 3 → Gives (.mark c false m) s fun t =>
      (t.chip c).main.marker = m.toNat ∧ OneOn s t c ∧ StepsAlone s t c ∧ (t.chip c).s = (s.chip c).s)
  ∧ (∀ (c : Fin 64) (qp : BitVec 3) (target : BitVec 13) (s : State), Quiet s c → Gives (.jmp c false qp target) s fun t =>
      (t.chip c).pc = (if (s.chip c).pred qp.toNat then target.toNat else (s.chip c).pc + 1) ∧ StepsAlone s t c
      ∧ (t.chip c).main.clock = (s.chip c).main.clock + 1 ∧ (t.chip c).s = (s.chip c).s)
  ∧ (∀ (c : Fin 64) (sn : BitVec 5) (target : BitVec 13) (s : State), Quiet s c → Gives (.loop c false sn target) s fun t =>
      StepsAlone s t c ∧ (∀ r, r ≠ sn.toNat → (t.chip c).sreg r = (s.chip c).sreg r)
      ∧ ((s.chip c).sreg sn.toNat = 0 → (t.chip c).sreg sn.toNat = 0 ∧ (t.chip c).pc = (s.chip c).pc + 1)
      ∧ ((s.chip c).sreg sn.toNat ≠ 0 → (t.chip c).sreg sn.toNat = (s.chip c).sreg sn.toNat - 1
          ∧ (t.chip c).pc = target.toNat))
  ∧ (∀ (c : Fin 64) (a n : BitVec 13) (s : State), Quiet s c → n ≠ 0 → (s.chip c).dwq.length < 64 →
      Gives (.defer c false a n) s fun t => (t.chip c).dwq = (s.chip c).dwq ++ [(a.toNat, n.toNat)] ∧ OneOn s t c
      ∧ StepsAlone s t c ∧ (t.chip c).s = (s.chip c).s)
  ∧ (∀ (c : Fin 64) (s : State), Quiet s c → (s.chip c).dwq = [] → (s.chip c).serve = none →
      Gives (.seqEnd c false) s fun t => (t.chip c).run = .ended ∧ StepsAlone s t c ∧ (t.chip c).s = (s.chip c).s)

/-- CTRL slots that write registers, each alone in its bundle on a quiet chiplet: ALU and LDI write their S register, SETQ all
lanes of its Q register in both engines, and no other register. -/
def Obligations.ScalarSlotsWriteTheirRegister : Prop :=
  (∀ (c : Fin 64) (fn : BitVec 4) (sd : BitVec 5) (a : BitVec 7) (imm : Bool) (b : BitVec 10) (s : State), Quiet s c →
      fn.toNat ≤ 10 → scalarOk a.toNat = true → (imm = false → scalarOk (b.toNat % 128) = true) →
      Gives (.alu c false fn sd a imm b) s fun t =>
        (t.chip c).sreg sd.toNat = aluFn fn.toNat ((s.chip c).scalar a.toNat)
          (if imm then b.signExtend 64 else (s.chip c).scalar (b.toNat % 128))
        ∧ (∀ r, r ≠ sd.toNat → (t.chip c).sreg r = (s.chip c).sreg r) ∧ OneOn s t c ∧ StepsAlone s t c
        ∧ (t.chip c).v = (s.chip c).v ∧ (t.chip c).q = (s.chip c).q ∧ (t.chip c).acc = (s.chip c).acc)
  ∧ (∀ (c : Fin 64) (sd : BitVec 5) (imm : BitVec 22) (s : State), Quiet s c →
      Gives (.ldi c false sd imm) s fun t => (t.chip c).sreg sd.toNat = imm.signExtend 64
        ∧ (∀ r, r ≠ sd.toNat → (t.chip c).sreg r = (s.chip c).sreg r) ∧ OneOn s t c ∧ StepsAlone s t c
        ∧ (t.chip c).v = (s.chip c).v ∧ (t.chip c).q = (s.chip c).q ∧ (t.chip c).acc = (s.chip c).acc)
  ∧ (∀ (c : Fin 64) (qd cc : BitVec 3) (a : BitVec 7) (imm : Bool) (b : BitVec 13) (s : State), Quiet s c →
      qd ≠ 0 → cc.toNat ≤ 5 → scalarOk a.toNat = true → (imm = false → scalarOk (b.toNat % 128) = true) →
      Gives (.setq c false qd cc a imm b) s fun t =>
        (∀ e < 2, (t.chip c).qreg e qd.toNat = if ccHolds cc.toNat ((s.chip c).scalar a.toNat)
          (if imm then b.signExtend 64 else (s.chip c).scalar (b.toNat % 128)) then BitVec.allOnes 512 else 0)
        ∧ (∀ e < 2, ∀ r < 8, r ≠ qd.toNat → (t.chip c).qreg e r = (s.chip c).qreg e r) ∧ OneOn s t c ∧ StepsAlone s t c
        ∧ (t.chip c).v = (s.chip c).v ∧ (t.chip c).s = (s.chip c).s ∧ (t.chip c).acc = (s.chip c).acc)

/-- Lane operations, each alone in its bundle on a quiet chiplet, and naming slot 0 or a slot that may be named (R161, R112): ADD,
SUB, MUL, FMA, MAX, MIN, EXP2, LOG2, RCP and RSQRT write their result to the enabled lanes of V register VD of the named engines and
report the census of those lanes to the slot; disabled lanes and every other register keep what they held, and so does memory. MAX
and MIN of NaN or of two zeros, and the special functions, are free values, but that a NaN among them is the canonical one (R101;
assumptions 30 and 31): the clause holds for every value of them. -/
def Obligations.LaneOperationsWriteEnabledLanes : Prop :=
  ∀ (c : Fin 64) (f : VecFields) (s : State), Quiet s c → f.eng ≠ 0 → badSb f = false →
      (s.serveView c).slotBad f.slot.toNat = false →
    ∀ p ∈ ([(.vecAdd c false f, fun a b _ => fadd (vecRnd f) a b), (.vecSub c false f, fun a b _ => fsub (vecRnd f) a b),
        (.vecMul c false f, fun a b _ => fmul (vecRnd f) a b), (.fma c false f, fun a b d => ffma (vecRnd f) a b d),
        (.vecMax c false f, fun a b _ => laneMax a b), (.vecMin c false f, fun a b _ => laneMin a b),
        (.exp2 c false f, fun a _ _ => canonNaN (Config.exp2 a)), (.log2 c false f, fun a _ _ => canonNaN (Config.log2 a)),
        (.rcp c false f, fun a _ _ => canonNaN (Config.rcp a)), (.rsqrt c false f, fun a _ _ => canonNaN (Config.rsqrt a))] :
        List (Instr × (Word → Word → Word → Word))),
    ∀ out : Nat → List Word, (∀ e, out e = (((s.chip c).vreg e f.va.toNat).zip (((s.chip c).laneB f e).zip
        ((s.chip c).vreg e f.vc.toNat))).map fun q => p.2 q.1 q.2.1 q.2.2) →
    Gives p.1 s fun t =>
      (∀ e ∈ enginesOf f.eng, (t.chip c).vreg e f.vd.toNat =
        mergeLanes ((s.chip c).lanesOn e f.qp.toNat) ((s.chip c).vreg e f.vd.toNat) (out e))
      ∧ (∀ e < 2, ∀ r < 64, e ∉ enginesOf f.eng ∨ r ≠ f.vd.toNat → (t.chip c).vreg e r = (s.chip c).vreg e r)
      ∧ OneOn s t c ∧ StepsReporting s t c f.slot.toNat ((enginesOf f.eng).map fun e =>
          resultCensus (onLanes ((s.chip c).lanesOn e f.qp.toNat) (out e)))
      ∧ (t.chip c).s = (s.chip c).s ∧ (t.chip c).q = (s.chip c).q ∧ (t.chip c).acc = (s.chip c).acc

/-- SEL, BCAST, RSUM and RMAX write their V register (R161): the selected lanes, one scalar in every lane, the pairwise sum
under the rounding RM names (R99) and the greatest of the enabled lanes in lane 0; each reports the census of what it computed
to the slot it names. ACCRD copies half of an accepted tile. Disabled lanes and all else keep their value. That BCAST has a
SLOT field and reports to it is the model's reading (assumption 62). -/
def Obligations.SelectBroadcastAndReduce : Prop :=
  (∀ (c : Fin 64) (f : VecFields) (s : State), Quiet s c → f.eng ≠ 0 → (s.serveView c).slotBad f.slot.toNat = false →
    ∀ sum top : Nat → Word,
      (∀ e, sum e = pairSumBy (vecRnd f) (((s.chip c).lanesOn e f.qp.toNat).zip ((s.chip c).vreg e f.va.toNat)
          |>.map fun q => if q.1 then q.2 else 0)) →
      (∀ e, top e = (iterate maxRound 9 (((s.chip c).lanesOn e f.qp.toNat).zip ((s.chip c).vreg e f.va.toNat)
          |>.map fun q => if q.1 then q.2 else 0xFF800000)).headD 0) →
    ∀ p ∈ ([(.bcast c false f, fun _ => List.replicate 512 (((s.chip c).sreg (f.va.toNat % 32)).setWidth 32),
              fun e => onLanes ((s.chip c).lanesOn e f.qp.toNat)
                (List.replicate 512 (((s.chip c).sreg (f.va.toNat % 32)).setWidth 32))),
            (.rsum c false f, fun e => laneZero (sum e), fun e => [sum e]),
            (.rmax c false f, fun e => laneZero (top e), fun e => [top e])] :
        List (Instr × (Nat → List Word) × (Nat → List Word))), p.1 = .bcast c false f ∨ badSb f = false →
    Gives p.1 s fun t =>
      (∀ e ∈ enginesOf f.eng, (t.chip c).vreg e f.vd.toNat =
        mergeLanes ((s.chip c).lanesOn e f.qp.toNat) ((s.chip c).vreg e f.vd.toNat) (p.2.1 e))
      ∧ (∀ e < 2, ∀ r < 64, e ∉ enginesOf f.eng ∨ r ≠ f.vd.toNat → (t.chip c).vreg e r = (s.chip c).vreg e r)
      ∧ OneOn s t c ∧ StepsReporting s t c f.slot.toNat ((enginesOf f.eng).map fun e => resultCensus (p.2.2 e))
      ∧ (t.chip c).s = (s.chip c).s ∧ (t.chip c).q = (s.chip c).q ∧ (t.chip c).acc = (s.chip c).acc)
  ∧ (∀ (c : Fin 64) (f : VecFields) (s : State), Quiet s c → f.eng ≠ 0 → badSb f = false →
      (s.serveView c).slotBad f.slot.toNat = false →
    ∀ out : Nat → List Word, (∀ e, out e = (((s.chip c).lanesOn e (f.vc.toNat % 8)).zip (((s.chip c).vreg e f.va.toNat).zip
        ((s.chip c).laneB f e))).map fun q => if q.1 then q.2.1 else q.2.2) →
    Gives (.sel c false f) s fun t =>
      (∀ e ∈ enginesOf f.eng, (t.chip c).vreg e f.vd.toNat =
        mergeLanes ((s.chip c).lanesOn e f.qp.toNat) ((s.chip c).vreg e f.vd.toNat) (out e))
      ∧ (∀ e < 2, ∀ r < 64, e ∉ enginesOf f.eng ∨ r ≠ f.vd.toNat → (t.chip c).vreg e r = (s.chip c).vreg e r)
      ∧ OneOn s t c ∧ StepsReporting s t c f.slot.toNat ((enginesOf f.eng).map fun e =>
          resultCensus (onLanes ((s.chip c).lanesOn e f.qp.toNat) (out e)))
      ∧ (t.chip c).s = (s.chip c).s ∧ (t.chip c).q = (s.chip c).q ∧ (t.chip c).acc = (s.chip c).acc)
  ∧ (∀ (c : Fin 64) (f : AccrdFields) (s : State), Quiet s c → f.eng ≠ 0 → f.array.toNat ≤ 35 →
    Gives (.accrd c false f) s fun t =>
      (∀ e ∈ enginesOf f.eng, (t.chip c).vreg e f.vd.toNat =
        mergeLanes ((s.chip c).lanesOn e f.qp.toNat) ((s.chip c).vreg e f.vd.toNat)
          ((((s.chip c).accTile f.array.toNat f.tile.toNat).drop (512 * boolNat f.half)).take 512))
      ∧ (∀ e < 2, ∀ r < 64, e ∉ enginesOf f.eng ∨ r ≠ f.vd.toNat → (t.chip c).vreg e r = (s.chip c).vreg e r)
      ∧ OneOn s t c ∧ StepsAlone s t c ∧ (t.chip c).s = (s.chip c).s ∧ (t.chip c).q = (s.chip c).q
      ∧ (t.chip c).acc = (s.chip c).acc)

/-- CMP, VTOS and CVT (R161): the comparison of each enabled lane in a Q register, one lane zero-extended in an S register,
the converted register under the scales its slots give, with the census of its destination reported to the destination's slot
(R112). The frame is that of the other VEC slots. CMP and VTOS name one engine (with both they are DUAL_WRITE, R156). CMP
under LTU and GEU is a free value (assumption 32). The codes and the scale byte CVT writes in a block some of whose lanes are
disabled, and how its squared errors are rounded and summed, are the model's choice (assumption 63). -/
def Obligations.CompareMoveOutAndConvert : Prop :=
  (∀ (c : Fin 64) (f : VecFields) (s : State), Quiet s c → f.eng = 1 ∨ f.eng = 2 → badSb f = false →
      (s.serveView c).slotBad f.slot.toNat = false → f.vd.toNat % 8 ≠ 0 → f.vc.toNat % 8 ≤ 5 →
    Gives (.cmp c false f) s fun t =>
      (∀ e ∈ enginesOf f.eng, ∀ i < 512, ((s.chip c).qreg e f.qp.toNat).getLsbD i = false →
        ((t.chip c).qreg e (f.vd.toNat % 8)).getLsbD i = ((s.chip c).qreg e (f.vd.toNat % 8)).getLsbD i)
      ∧ (∀ e ∈ enginesOf f.eng, ∀ i < 512, ((s.chip c).qreg e f.qp.toNat).getLsbD i = true →
        ∀ a b, ((s.chip c).vreg e f.va.toNat)[i]? = some a → ((s.chip c).laneB f e)[i]? = some b →
          ((t.chip c).qreg e (f.vd.toNat % 8)).getLsbD i = laneCc (f.vc.toNat % 8) a b)
      ∧ (∀ e < 2, ∀ r < 8, e ∉ enginesOf f.eng ∨ r ≠ f.vd.toNat % 8 → (t.chip c).qreg e r = (s.chip c).qreg e r)
      ∧ OneOn s t c ∧ StepsAlone s t c ∧ (t.chip c).s = (s.chip c).s ∧ (t.chip c).v = (s.chip c).v
      ∧ (t.chip c).acc = (s.chip c).acc)
  ∧ (∀ (c : Fin 64) (f : VtosFields) (s : State), Quiet s c → f.eng = 1 ∨ f.eng = 2 →
    Gives (.vtos c false f) s fun t =>
      (∀ e ∈ enginesOf f.eng, (t.chip c).sreg f.sd.toNat =
        if ((s.chip c).qreg e f.qp.toNat).getLsbD f.lane.toNat then
          (((s.chip c).vreg e f.va.toNat)[f.lane.toNat]?.getD 0).setWidth 64 else (s.chip c).sreg f.sd.toNat)
      ∧ (∀ r, r ≠ f.sd.toNat → (t.chip c).sreg r = (s.chip c).sreg r)
      ∧ OneOn s t c ∧ StepsAlone s t c ∧ (t.chip c).v = (s.chip c).v ∧ (t.chip c).q = (s.chip c).q
      ∧ (t.chip c).acc = (s.chip c).acc)
  ∧ (∀ (c : Fin 64) (f : CvtFields) (ss : Nat) (p : ConvSpec) (s v : State), Quiet s c → v = s.serveView c → f.eng ≠ 0 → f.rnd ≠ 3 →
      legalPair f.srcFmt.toNat f.srcScale.toNat = true → legalPair f.dstFmt.toNat f.dstScale.toNat = true → f.dstFmt.toNat < 8 →
      v.slotBad f.dslot.toNat = false → ss = ((s.chip c).sreg f.ssreg.toNat).toNat % 16384 →
      (f.srcScale = 0 ∨ v.slotBad ss = false) →
      p = { sf := f.srcFmt.toNat, sform := f.srcScale.toNat
            st := if f.srcScale.toNat = 0 then .fin false 1 0 else ofF32 (v.slotT ss)
            df := f.dstFmt.toNat, dform := f.dstScale.toNat
            dt := if f.dstScale.toNat = 0 then .fin false 1 0 else ofF32 (v.slotT f.dslot.toNat)
            rnd := f.rnd.toNat, prop := f.ovf } →
    ∀ out : Nat → List Word × CensusRep, (∀ e, out e = convertReg p ((s.chip c).vreg e f.va.toNat) ((s.chip c).vreg e f.vd.toNat)
        ((s.chip c).lanesOn e f.qp.toNat)
        (s.laneDraws c e (if e = 0 then (s.chip c).drawIdx.1 else (s.chip c).drawIdx.2))) →
    Gives (.cvt c false f) s fun t =>
      (∀ e ∈ enginesOf f.eng, (t.chip c).vreg e f.vd.toNat = (out e).1)
      ∧ (∀ e < 2, ∀ r < 64, e ∉ enginesOf f.eng ∨ r ≠ f.vd.toNat → (t.chip c).vreg e r = (s.chip c).vreg e r)
      ∧ OneOn s t c ∧ StepsReporting s t c f.dslot.toNat ((enginesOf f.eng).map fun e => (out e).2)
      ∧ (t.chip c).s = (s.chip c).s ∧ (t.chip c).q = (s.chip c).q ∧ (t.chip c).acc = (s.chip c).acc)

/-- Loads and stores in the chiplet's scratch and its die's bank SRAM (SPACE 0 and 1, R162), each alone in its bundle on a
quiet chiplet: VLD and SLD bring the bytes at the address that BASE and OFFSET give into their register, where a serving
chiplet reads working weights, which R28 has come from its serve buffer, the bytes of `serveView`; VST and SST put their
register's bytes there, and every other byte of memory reads as before; VSTA sends its two registers as one accumulation
write. A read may not meet an uncorrectable error, nor a serving program its ARG range outside the windows. That a serving
chiplet's load takes each byte the serve buffer holds, by its own local offset, is the model's choice (assumption 34); that a
load that meets the ARG range is held to the windows is its reading (assumption 41). -/
def Obligations.LoadsAndStoresMoveTheirBytes : Prop :=
  (∀ (c : Fin 64) (f : MovFields) (p : Nat) (s v : State), Quiet s c → v = s.serveView c → f.eng ≠ 0 → movIllegal f false = false →
      f.readErr = false → (s.chip c).movAddr f 64 % 64 = 0 → movPlace c f.space.toNat ((s.chip c).movAddr f 64) 2048 = some p →
      v.uncorrectable p 2048 = false → v.argShut c p 2048 = none →
    Gives (.vld c false f) s fun t =>
      (∀ e ∈ enginesOf f.eng, (t.chip c).vreg e f.reg.toNat = bytesLanes (v.load p 2048))
      ∧ (∀ e < 2, ∀ r < 64, e ∉ enginesOf f.eng ∨ r ≠ f.reg.toNat → (t.chip c).vreg e r = (s.chip c).vreg e r)
      ∧ OneOn s t c ∧ StepsAlone s t c ∧ (t.chip c).s = (s.chip c).s ∧ (t.chip c).q = (s.chip c).q
      ∧ (t.chip c).acc = (s.chip c).acc)
  ∧ (∀ (c : Fin 64) (f : MovFields) (p : Nat) (s v : State), Quiet s c → v = s.serveView c → movIllegal f false = false →
      f.readErr = false → f.reg.toNat < 32 → (s.chip c).movAddr f 8 % 8 = 0 →
      movPlace c f.space.toNat ((s.chip c).movAddr f 8) 8 = some p → v.uncorrectable p 8 = false → v.argShut c p 8 = none →
    Gives (.sld c false f) s fun t =>
      (t.chip c).sreg f.reg.toNat = BitVec.ofNat 64 (leNat (v.load p 8))
      ∧ (∀ r, r ≠ f.reg.toNat → (t.chip c).sreg r = (s.chip c).sreg r)
      ∧ OneOn s t c ∧ StepsAlone s t c ∧ (t.chip c).v = (s.chip c).v ∧ (t.chip c).q = (s.chip c).q
      ∧ (t.chip c).acc = (s.chip c).acc)
  ∧ (∀ (c : Fin 64) (f : MovFields) (p : Nat) (l : List Word) (s : State), Quiet s c → f.eng = 1 ∨ f.eng = 2 →
      movIllegal f false = false → (s.chip c).movAddr f 64 % 64 = 0 →
      movPlace c f.space.toNat ((s.chip c).movAddr f 64) 2048 = some p → PlainAt s p 2048 →
      l = (s.chip c).vreg (if f.eng = 2 then 1 else 0) f.reg.toNat → l.length = 512 →
    Gives (.vst c false f) s fun t => OneOn s t c ∧ OtherChips s t c
      ∧ t = { s with regs := t.regs, chiplets := t.chiplets, mem := t.mem } ∧ KeepsRegs s t [pgENG c + Hdr.PROGRESS]
      ∧ (t.chip c).s = (s.chip c).s ∧ (t.chip c).v = (s.chip c).v ∧ (t.chip c).q = (s.chip c).q
      ∧ t.load p 2048 = laneBytes l ∧ KeepsMemBut s t p 2048)
  ∧ (∀ (c : Fin 64) (f : MovFields) (p : Nat) (s : State), Quiet s c → movIllegal f false = false → f.reg.toNat < 32 →
      (s.chip c).movAddr f 8 % 8 = 0 → movPlace c f.space.toNat ((s.chip c).movAddr f 8) 8 = some p → PlainAt s p 8 →
    Gives (.sst c false f) s fun t => OneOn s t c ∧ OtherChips s t c
      ∧ t = { s with regs := t.regs, chiplets := t.chiplets, mem := t.mem } ∧ KeepsRegs s t [pgENG c + Hdr.PROGRESS]
      ∧ (t.chip c).s = (s.chip c).s ∧ (t.chip c).v = (s.chip c).v ∧ (t.chip c).q = (s.chip c).q
      ∧ t.load p 8 = leBytes 8 ((s.chip c).sreg f.reg.toNat).toNat ∧ KeepsMemBut s t p 8)
  ∧ (∀ (c : Fin 64) (f : MovFields) (s : State), Quiet s c → f.eng = 1 ∨ f.eng = 2 → movIllegal f false = false →
      f.reg.toNat % 2 = 0 → (s.chip c).movAddr f 64 % 4096 = 0 →
    Gives (.vsta c false f) s fun t => OneOn s t c ∧ OtherChips s t c
      ∧ t = { s with regs := t.regs, chiplets := t.chiplets, accNet := t.accNet } ∧ KeepsRegs s t [pgENG c + Hdr.PROGRESS]
      ∧ (t.chip c).s = (s.chip c).s ∧ (t.chip c).v = (s.chip c).v ∧ (t.chip c).q = (s.chip c).q
      ∧ t.accNet = s.accNet ++ [s.vstaWrite (s.chip c) c f (some ((s.chip c).vreg (if f.eng = 2 then 1 else 0) f.reg.toNat
          ++ (s.chip c).vreg (if f.eng = 2 then 1 else 0) (f.reg.toNat + 1)))])

/-- MMA and TSTORE, each alone in its bundle on a quiet chiplet (R128, R130, R159, R160): an MMA whose fields and descriptor
the manual allows, whose streams lie in scratch or bank SRAM and read without error, starts one accumulation for every array of
its set, in ascending order, with the product of its row and column streams added to the tile when ACCUM is set and, for DEST 1,
the chain descriptor of its tile; TSTORE puts the 4 KiB of an accepted tile into scratch, and every other byte of memory reads
as before. -/
def Obligations.MatrixSlotsComputeAndStore : Prop :=
  (∀ (c : Fin 64) (f : MmaFields) (bytes : List Byte) (s : State), Quiet s c →
      (s.serveView c).mmaBytes (s.chip c) c f = some bytes → MmaAllowed (s.serveView c) c f (mmaDesc bytes) → f.readErr = false →
    Gives (.mma c false f) s fun t => OneOn s t c ∧ OtherChips s t c ∧ (t.chip c).acc = (s.chip c).acc
      ∧ (t.chip c).s = (s.chip c).s ∧ (t.chip c).p = (s.chip c).p ∧ (t.chip c).v = (s.chip c).v ∧ (t.chip c).q = (s.chip c).q
      ∧ t = { s with regs := t.regs, chiplets := t.chiplets, census := t.census }
      ∧ KeepsRegs s t [pgENG c + Hdr.PROGRESS, Reg.SC_STEP_NF]
      ∧ (t.chip c).accums.map (fun r => (r.array, r.tile, r.phase, r.value, r.chain)) =
        (List.range ((f.rowsM1.toNat + 1) * (f.colsM1.toNat + 1))).map fun i =>
          (f.a0.toNat + i, f.tile.toNat, .running,
            (s.serveView c).tileResult ((mmaDesc bytes).streamA (i / (f.colsM1.toNat + 1)))
              ((mmaDesc bytes).streamB (i % (f.colsM1.toNat + 1))) (mmaDesc bytes).k f.accum
              ((s.chip c).accTile (f.a0.toNat + i) f.tile.toNat) false,
            if (mmaDesc bytes).dest = 1 then (s.serveView c).chainDesc (mmaDesc bytes).chain i else []))
  ∧ (∀ (c : Fin 64) (f : TstoreFields) (s : State), Quiet s c → f.array.toNat < 36 →
      (((s.chip c).preg f.pd.toNat).toNat + f.offset.toNat * 64) % 2 ^ 64 + 4096 ≤ 0x800000 →
      PlainAt s (scratchAt c ((((s.chip c).preg f.pd.toNat).toNat + f.offset.toNat * 64) % 2 ^ 64)) 4096 →
      ((s.chip c).accTile f.array.toNat f.tile.toNat).length = 1024 →
    Gives (.tstore c false f) s fun t => OneOn s t c ∧ OtherChips s t c
      ∧ t = { s with regs := t.regs, chiplets := t.chiplets, mem := t.mem } ∧ KeepsRegs s t [pgENG c + Hdr.PROGRESS]
      ∧ (t.chip c).acc = (s.chip c).acc ∧ (t.chip c).s = (s.chip c).s ∧ (t.chip c).v = (s.chip c).v
      ∧ (t.chip c).p = (s.chip c).p ∧ (t.chip c).q = (s.chip c).q
      ∧ t.load (scratchAt c ((((s.chip c).preg f.pd.toNat).toNat + f.offset.toNat * 64) % 2 ^ 64)) 4096
          = laneBytes ((s.chip c).accTile f.array.toNat f.tile.toNat)
      ∧ KeepsMemBut s t (scratchAt c ((((s.chip c).preg f.pd.toNat).toNat + f.offset.toNat * 64) % 2 ^ 64)) 4096)

/-- How a tile is decided (R116 to R119, R131, R132, R147, R148, R162). The cycles in which its operands were short are counted. The
oldest accumulation of a chiplet is accepted when its residues agree, no operand passed its threshold, it has been re-sighted, or the
chiplet serves: its value enters the accumulator. Where an operand passed it, a training chiplet runs the tile again while the budget
lasts, and accepts it, and counts the overrun, when it does not; RESIGHTED or OVERRUN goes up by one in each slot whose threshold the
tile passed, and in no other. A tile that has run again is accepted, unless a read of its operands has met an uncorrectable error,
which halts the job of a training chiplet. When the residues differ and a good spare is free, the array takes it as its stand-in, the
fault is counted, and the tile has yet to run on it; with no spare, or on a stand-in, the tile is not accepted and the job halts. -/
def Obligations.TilesAreDecided : Prop :=
  (∀ (c : Fin 64) (r : Accum) (l : List Accum) (held : Nat) (s : State), (s.chip c).accums = r :: l → s.chipServes c = true →
      (r.phase = .running → r.slots = [] ∨ r.sighted = true ∨ s.isServing c = true →
        Gives (.accumulationComplete c ⟨true, held⟩) s fun t => (t.chip c).accTile r.array r.tile = r.value ∧ (t.chip c).accums = l
          ∧ (∀ k, k ≠ r.array * 8 + r.tile → Map.find (t.chip c).acc k = Map.find (s.chip c).acc k)
          ∧ t = { s with regs := t.regs, out := t.out, msixPending := t.msixPending, pldm := t.pldm, chiplets := t.chiplets }
          ∧ OtherChips s t c ∧ KeepsPages s t [pgENG c] ∧ Counts s t (Reg.ENG_HOLD_CYCLES c) held)
      ∧ (r.phase = .running → r.slots ≠ [] → r.sighted = false → s.isServing c = false →
        Gives (.accumulationComplete c ⟨true, held⟩) s fun t => KeepsMem s t ∧ OtherChips s t c ∧ KeepsPages s t [pgENG c, pgSC]
          ∧ (∀ n, n ∉ r.slots → t.slotSights n = s.slotSights n)
          ∧ (if (s.chip c).rsUsed < s.reg Reg.SC_RS_BUDGET_LIVE then
              (t.chip c).accums = { r with phase := .resight } :: l ∧ (t.chip c).acc = (s.chip c).acc
                ∧ (t.chip c).rsUsed = (s.chip c).rsUsed + 1 ∧ Counts s t Reg.SC_RS_TILES 1 ∧ t.wp.rsTiles = s.wp.rsTiles + 1
                ∧ ∀ n ∈ r.slots, t.slotSights n = ((s.slotSights n).1 + 1, (s.slotSights n).2)
            else (t.chip c).accums = l ∧ (t.chip c).accTile r.array r.tile = r.value ∧ Counts s t Reg.SC_RS_OVERRUN 1
                ∧ ∀ n ∈ r.slots, t.slotSights n = ((s.slotSights n).1, (s.slotSights n).2 + 1)))
      ∧ (r.phase = .resight → s.rerunBad c r = false →
        Gives (.resightComplete c ⟨true, held⟩) s fun t => (t.chip c).accums = l ∧ KeepsMem s t ∧ OtherChips s t c
          ∧ KeepsPages s t [pgENG c] ∧ Counts s t (Reg.ENG_HOLD_CYCLES c) (r.k + 24 + held)
          ∧ (t.chip c).accTile r.array r.tile = (s.serveView c).tileResult r.a r.b r.k r.accum r.start true)
      ∧ (r.phase = .standin → r.slots = [] ∨ r.sighted = true ∨ s.isServing c = true → s.rerunBad c r = false →
        Gives (.standinComplete c ⟨true, held⟩) s fun t => (t.chip c).accums = l ∧ KeepsMem s t ∧ OtherChips s t c
          ∧ KeepsPages s t [pgENG c]
          ∧ (t.chip c).accTile r.array r.tile = (s.serveView c).tileResult r.a r.b r.k r.accum r.start r.sighted)
      ∧ (s.rerunBad c r = true → ∀ p ∈ [(AccPhase.resight, Instr.resightComplete c ⟨true, held⟩),
          (.standin, .standinComplete c ⟨true, held⟩)], r.phase = p.1 →
        Gives p.2 s fun t => KeepsMem s t
          ∧ (s.isServing c = false → (t.chip c).acc = (s.chip c).acc ∧ (t.chip c).accums = [] ∧ t.flag Reg.FLT_JOB 31 = true)
          ∧ (s.isServing c = true → (t.chip c).uncorr = true ∧ (t.chip c).accums = l)))
  ∧ (∀ (c : Fin 64) (r : Accum) (l : List Accum) (sp held : Nat) (s : State), (s.chip c).accums = r :: l →
      s.chipServes c = true → (∀ e ∈ (s.chip c).standins, e.1 ≠ r.array) → s.freeSpare c = some sp →
    ∀ p ∈ [(AccPhase.running, Instr.accumulationComplete c ⟨false, held⟩, r.sighted), (.resight, .resightComplete c ⟨false, held⟩, true)],
      r.phase = p.1 → (r.phase = .resight → s.rerunBad c r = false) →
    Gives p.2.1 s fun t => (t.chip c).standins = (s.chip c).standins ++ [(r.array, sp)]
      ∧ (∃ v, (t.chip c).accums = { r with phase := .standin, sighted := p.2.2, value := v } :: l) ∧ (t.chip c).acc = (s.chip c).acc
      ∧ Counts s t (Reg.ENG_RESIDUE_FAULTS c) 1 ∧ KeepsMem s t ∧ OtherChips s t c ∧ KeepsPages s t [pgENG c])
  ∧ (∀ (c : Fin 64) (r : Accum) (l : List Accum) (held : Nat) (s : State), (s.chip c).accums = r :: l → s.chipServes c = true →
      ((∃ e ∈ (s.chip c).standins, e.1 = r.array) ∨ s.freeSpare c = none) →
    ∀ p ∈ [(AccPhase.running, Instr.accumulationComplete c ⟨false, held⟩), (.resight, .resightComplete c ⟨false, held⟩),
        (.standin, .standinComplete c ⟨false, held⟩)], r.phase = p.1 →
      Gives p.2 s fun t => (t.chip c).acc = (s.chip c).acc ∧ t.flag Reg.FLT_JOB 31 = true ∧ KeepsMem s t
        ∧ (t.chip c).accums = if s.isServing c then l else [])

/-- Chains and accumulation regions (R42, R98, R133 to R138, R168). The first tile of a chain goes on to the next member's unit, a
later one added to the sum that has come, whose place in a buffer of its own chiplet it may take, and the last one's sum to the
chain's destination, where no base die on the way is fenced: scratch, bank SRAM, an accumulation write or
an injection. A write that its region's rule takes first or adds changes its block, tag and count, and nothing else in memory; one
that comes too early is held. Invalidating marks the selected region and, when done, has zeroed its state words. -/
def Obligations.ChainsAndRegionsAccumulate : Prop :=
  (∀ (c : Fin 64) (i nxt : Nat) (o : ChainOwn) (v : List Word) (s : State), (s.chip c).chainOwn[i]? = some o →
      o.value = some v → o.pos + 1 < chainMembers o.desc → (chainMember o.desc (o.pos + 1)).1 = nxt →
      s.chipServes c = true → s.chipServes nxt = true → s.meshServes (dieOf c) (dieOf nxt) = true →
      (o.pos = 0 → (s.chip nxt).chainIn.length < 8 → Gives (.chainForward c i) s fun t => t = { s with chiplets := t.chiplets }
        ∧ (t.chip nxt).chainIn = (s.chip nxt).chainIn ++ [⟨o.desc, 0, some v⟩]
        ∧ (t.chip c).chainOwn = (s.chip c).chainOwn.eraseIdx i ∧ ∀ d, d ≠ c.val → d ≠ nxt → t.chip d = s.chip d)
      ∧ ∀ q run, o.pos ≠ 0 → (s.chip c).chainIn.findIdx? (fun r => r.desc == o.desc && r.pos + 1 == o.pos) = some q →
          ((s.chip c).chainIn[q]?).map RunSum.value = some (some run) →
          (s.chip nxt).chainIn.length < (if nxt = c then 9 else 8) →
        Gives (.chainForward c i) s fun t => t = { s with chiplets := t.chiplets }
          ∧ (t.chip nxt).chainIn = (if nxt = c then (s.chip c).chainIn.eraseIdx q else (s.chip nxt).chainIn)
              ++ [⟨o.desc, o.pos, some ((run.zip v).map fun p => faddFlush p.1 p.2)⟩]
          ∧ (t.chip c).chainOwn = (s.chip c).chainOwn.eraseIdx i
          ∧ (nxt ≠ c → (t.chip c).chainIn = (s.chip c).chainIn.eraseIdx q)
          ∧ ∀ d, d ≠ c.val → d ≠ nxt → t.chip d = s.chip d)
  ∧ (∀ (c : Fin 64) (i q : Nat) (o : ChainOwn) (v run : List Word) (s : State), (s.chip c).chainOwn[i]? = some o →
      o.value = some v → o.pos ≠ 0 → o.pos + 1 = chainMembers o.desc → s.chipServes c = true →
      (s.chip c).chainIn.findIdx? (fun r => r.desc == o.desc && r.pos + 1 == o.pos) = some q →
      ((s.chip c).chainIn[q]?).map RunSum.value = some (some run) → v.length = 1024 → run.length = 1024 →
    ∀ sum at_, sum = (run.zip v).map (fun p => faddFlush p.1 p.2) →
      at_ = (if chainKind o.desc = 0 then scratchAt c (chainAddr o.desc) else bankAt (chainDie o.desc) (chainAddr o.desc)) →
      (chainKind o.desc = 0 → chainAddr o.desc + 4096 ≤ 0x800000 ∧ PlainAt s at_ 4096) →
      (chainKind o.desc = 1 → chainAddr o.desc + 4096 ≤ 0x40000000 ∧ PlainAt s at_ 4096
        ∧ s.meshServes (dieOf c) (chainDie o.desc) = true) →
    Gives (.chainForward c i) s fun t => (t.chip c).chainOwn = (s.chip c).chainOwn.eraseIdx i
      ∧ (t.chip c).chainIn = (s.chip c).chainIn.eraseIdx q ∧ OtherChips s t c
      ∧ t = { s with chiplets := t.chiplets, mem := t.mem, accNet := t.accNet, injects := t.injects }
      ∧ (if chainKind o.desc ≤ 1 then t.load at_ 4096 = laneBytes sum ∧ KeepsMemBut s t at_ 4096 else KeepsMem s t)
      ∧ t.accNet = s.accNet ++ (if chainKind o.desc = 2 then [⟨chainDie o.desc, chainRegion o.desc, chainAddr o.desc,
          chainTag o.desc, chainMicro o.desc, some sum, .chiplet c, 0, 0⟩] else [])
      ∧ t.injects = s.injects ++ if 3 ≤ chainKind o.desc then [⟨chainAddr o.desc, some sum, c⟩] else [])
  ∧ (∀ (die : Fin 4) (i : Nat) (w : AccWrite) (l : List Word) (s : State), s.accNet[i]? = some w → w.die = die →
      s.dieServes w.writer die = true → s.writeBehind i w = false → w.waitTill ≤ s.now → w.block < s.regionBlocks w.die w.region →
      s.regionPlaced w.die w.region = true → w.data = some l → l.length = 1024 → s.accHeld = [] →
      PlainAt s (s.blockAt w.die w.region w.block) 4096 → PlainAt s (s.stateAt w.die w.region w.block) 8 →
      (s.accVerdict w = .first ∨ s.accVerdict w = .add →
        Gives (.accumulationWrite die i) s fun t => t = { s with accNet := s.accNet.eraseIdx i, mem := t.mem }
          ∧ t.blockTag w.die w.region w.block = w.tag % 2 ^ 48
          ∧ (s.accVerdict w = .first → t.load (s.blockAt w.die w.region w.block) 4096 = laneBytes l
              ∧ t.blockNext w.die w.region w.block = 1)
          ∧ (s.accVerdict w = .add → t.load (s.blockAt w.die w.region w.block) 4096 =
                laneBytes (List.zipWith (fadd .rne) (bytesLanes (s.load (s.blockAt w.die w.region w.block) 4096)) l)
              ∧ t.blockNext w.die w.region w.block = (s.blockNext w.die w.region w.block + 1) % 65536)
          ∧ ∀ k, (k < s.blockAt w.die w.region w.block ∨ s.blockAt w.die w.region w.block + 4096 ≤ k) →
              (k < s.stateAt w.die w.region w.block ∨ s.stateAt w.die w.region w.block + 8 ≤ k) → t.load k 1 = s.load k 1)
      ∧ (s.accVerdict w = .hold →
        Gives (.accumulationWrite die i) s fun t => t.accHeld = [w] ∧ t.accNet = s.accNet.eraseIdx i ∧ KeepsMem s t
          ∧ Counts s t (Reg.ACC_HELD_WRITES die) 1 ∧ KeepsPages s t [pgACC die]))
  ∧ (∀ (who : Requester) (die : Fin 4) (s : State), MayCommand s who (pgACC die) →
    Gives (.accInvalidate who die) s fun t => t = { s with ranges := t.ranges }
      ∧ ∀ k, Map.get (fun _ => 0) t.ranges k =
        if k = die.val * 32 + s.fld (Reg.ACC_SEL die) 4 0 then 1 else Map.get (fun _ => 0) s.ranges k)
  ∧ (∀ (die : Fin 4) (region : Fin 32) (s : State), Map.get (fun _ => 0) s.ranges (die.val * 32 + region.val) = 1 →
      s.regionPlaced die region = true →
      (s.regionBlocks die region ≠ 0 → PlainAt s (s.stateAt die region 0) (8 * s.regionBlocks die region)) →
    Gives (.accInvalidateDone die region) s fun t => t = { s with ranges := t.ranges, mem := t.mem }
      ∧ (∀ k, Map.get (fun _ => 0) t.ranges k =
          if k = die.val * 32 + region.val then 0 else Map.get (fun _ => 0) s.ranges k)
      ∧ (∀ b < s.regionBlocks die region, t.load (s.stateAt die region b) 8 = List.replicate 8 0)
      ∧ KeepsMemBut s t (s.stateAt die region 0) (8 * s.regionBlocks die region))

/-- SIG slots, each alone in its bundle on a quiet chiplet (R45, R203, R205): WAIT goes on when its counter has reached the value and stands at
it otherwise; ADD, SET and ARRIVE send their operation, behind the accumulation writes the chiplet has sent, and ARRIVE waits then; EVENT posts a record in the FIFO of the
counter's base die; READ copies a counter into its S register. Memory keeps every byte. -/
def Obligations.SignalSlotsWaitSendAndRead : Prop :=
  (∀ (c : Fin 64) (f : SigFields) (s : State), Quiet s c →
      (Gives (.sigWait c false f) s fun t => StepsAlone s t c ∧ (t.chip c).pc = (s.chip c).pc + 1
        ∧ (t.chip c).s = (s.chip c).s
        ∧ (t.chip c).run = if (s.chip c).sigValue f % 2 ^ 32 ≤ (s.sig (sigCtr f)).toNat then .running
            else .waiting (sigCtr f) (BitVec.ofNat 32 ((s.chip c).sigValue f)))
      ∧ (Gives (.arrive c false f) s fun t => t.sigNet = s.sigNet ++ [⟨sigCtr f, .add 1, some c, s.accNet.filter fun w => w.writer == .chiplet c⟩]
        ∧ t = { s with regs := t.regs, chiplets := t.chiplets, sigNet := t.sigNet } ∧ OtherChips s t c
        ∧ (t.chip c).pc = (s.chip c).pc + 1 ∧ (t.chip c).opsOut = (s.chip c).opsOut + 1
        ∧ (t.chip c).run = if (s.chip c).sigValue f % 2 ^ 32 ≤ (s.sig (sigCtr f)).toNat then .running
            else .waiting (sigCtr f) (BitVec.ofNat 32 ((s.chip c).sigValue f)))
      ∧ ∀ p ∈ [(Instr.sigAdd c false f, SigAct.add ((s.chip c).sigValue f)), (.sigSet c false f, .set ((s.chip c).sigValue f))],
        Gives p.1 s fun t => t.sigNet = s.sigNet ++ [⟨sigCtr f, p.2, some c, s.accNet.filter fun w => w.writer == .chiplet c⟩] ∧ OneOn s t c ∧ OtherChips s t c
          ∧ t = { s with regs := t.regs, chiplets := t.chiplets, sigNet := t.sigNet }
          ∧ (t.chip c).opsOut = (s.chip c).opsOut + 1 ∧ (t.chip c).s = (s.chip c).s)
  ∧ (∀ (c : Fin 64) (f : SigFields) (s : State), Quiet s c → s.sigDead (sigCtr f / 4096) = false →
      (s.evtFifo (sigCtr f / 4096)).length < 64 →
    Gives (.event c false f) s fun t => OneOn s t c ∧ OtherChips s t c ∧ KeepsMem s t
      ∧ KeepsPages s t [pgENG c, pgSIG (sigCtr f / 4096)] ∧ t.flag (pgSIG (sigCtr f / 4096) + Hdr.EVT_STATUS) 8 = true
      ∧ (∃ r, t.evtFifo (sigCtr f / 4096) = s.evtFifo (sigCtr f / 4096) ++ [r] ∧ bitOf r.toNat 63 = true
          ∧ bitsOf r.toNat 62 57 = c.val ∧ bitsOf r.toNat 56 44 = (s.chip c).sigValue f % 8192
          ∧ bitsOf r.toNat 43 32 = sigCtr f % 4096 ∧ bitsOf r.toNat 31 0 = s.now % 2 ^ 32)
      ∧ ∀ d, d ≠ sigCtr f / 4096 → t.evtFifo d = s.evtFifo d)
  ∧ (∀ (c : Fin 64) (f : SigFields) (s : State), Quiet s c →
    Gives (.sigRead c false f) s fun t => (t.chip c).sreg (f.value.toNat % 32) = (s.sig (sigCtr f)).setWidth 64
      ∧ (∀ r, r ≠ f.value.toNat % 32 → (t.chip c).sreg r = (s.chip c).sreg r) ∧ OneOn s t c ∧ StepsAlone s t c)

/-- Counters and waits (R45, R143, R202 to R205, R213). An operation whose data writes have been answered adds to its counter, up
to all ones, or sets it, and no other counter changes; a host operation does the same to the counter SIG_SEL names; a wait whose
counter is reached resumes; while one is not, the oldest deferred section starts. A read of the event FIFO answers the oldest
record and removes it. -/
def Obligations.SignalOperationsTakeEffect : Prop :=
  (∀ (i : Nat) (o : SigOp) (s : State), s.sigNet[i]? = some o → s.sigHeld o = false → s.sigDead (o.ctr / 4096) = false →
    Gives (.signalApply i) s fun t => t.sigNet = s.sigNet.eraseIdx i ∧ KeepsMem s t ∧ KeepsPages s t [pgSIG (o.ctr / 4096)]
      ∧ (∀ v, o.act = .add v → (t.sig o.ctr).toNat = min ((s.sig o.ctr).toNat + v) 0xFFFFFFFF)
      ∧ (∀ v, o.act = .set v → t.sig o.ctr = BitVec.ofNat 32 v)
      ∧ (∀ k, k ≠ o.ctr → t.sig k = s.sig k)
      ∧ (∀ c, o.src = some c → (t.chip c).opsOut = (s.chip c).opsOut - 1))
  ∧ (∀ (c : Fin 64) (ctr : Nat) (v : Word) (s : State), (s.chip c).run = .waiting ctr v → s.chipServes c = true →
      (s.chip c).section_ = none → (s.chip c).mainDone = false → (s.chip c).pc < 8192 →
      (v.toNat ≤ (s.sig ctr).toNat →
        Gives (.waitResume c) s fun t => (t.chip c).run = .running ∧ (t.chip c).pc = (s.chip c).pc
          ∧ t = { s with chiplets := t.chiplets } ∧ OtherChips s t c)
      ∧ (∀ q r, (s.sig ctr).toNat < v.toNat → (s.chip c).dwq = q :: r →
        Gives (.deferredSectionStart c) s fun t => (t.chip c).run = .running ∧ (t.chip c).pc = q.1
          ∧ (t.chip c).section_ = some q ∧ (t.chip c).dwq = r ∧ (t.chip c).resumePc = (s.chip c).pc
          ∧ Counts s t (Reg.ENG_DWQ_FILLS c) 1 ∧ KeepsMem s t ∧ OtherChips s t c ∧ KeepsPages s t [pgENG c]))
  ∧ (∀ (who : Requester) (die : Fin 4) (value : Word) (s : State), MayCommand s who (pgSIG die) → s.sigDead die = false →
      (Gives (.sigHostopAdd who die value) s fun t => KeepsMem s t ∧ KeepsPages s t [pgSIG die]
        ∧ (t.sig (die.val * 4096 + s.fld (Reg.SIG_SEL die) 11 0)).toNat
          = min ((s.sig (die.val * 4096 + s.fld (Reg.SIG_SEL die) 11 0)).toNat + value.toNat) 0xFFFFFFFF
        ∧ ∀ k, k ≠ die.val * 4096 + s.fld (Reg.SIG_SEL die) 11 0 → t.sig k = s.sig k)
      ∧ (Gives (.sigHostopSet who die value) s fun t => t = { s with regs := t.regs, sigs := t.sigs }
        ∧ KeepsRegs s t [Reg.SIG_HOSTOP die]
        ∧ ∀ k, t.sig k = if k = die.val * 4096 + s.fld (Reg.SIG_SEL die) 11 0 then value else s.sig k))
  ∧ (∀ (who : Requester) (die : Fin 4) (s : State), MayCommand s who (pgSIG die) →
    Gives (.sigEvtPop who die) s fun t => t = { s with out := t.out, evts := t.evts }
      ∧ t.out = s.out ++ [.value who ((s.evtFifo die).headD 0)]
      ∧ ∀ d, t.evtFifo d = if d = die.val then (s.evtFifo die).drop 1 else s.evtFifo d)

/-- Copies (R162, R171, R188, R192, R193, R356). A COPY slot or a COPY or FILL descriptor whose rows are plain memory of this
module moves every row, in order; where source and destination overlap, the destination alone changes. The slot's counter then
gets its 1, the descriptor completes DONE with the bytes moved. A HOST descriptor that PCIe answers moves its bytes between
host memory and module memory; one that PCIe fails ends with that status, and its destination is all that may change. Every
byte outside the destinations keeps its value. That the rows move in order is the model's reading (assumption 41). A TO_HOST
that PCIe fails leaves host memory as it was: how many bytes a failed transfer has moved the spec does not state, and this is
the model's choice (assumption 39). -/
def Obligations.CopiesMoveTheirRows : Prop :=
  (∀ (c : Fin 64) (f : MovFields) (s : State), Quiet s c → movIllegal f true = false → (s.chip c).movAddr f 64 % 64 = 0 →
      f.extra.toNat % 4096 < 1024 → s.serveData c = [] → s.waitsRemote (.slot c f.extra.toNat) = false → f.readErr = false →
    ∀ p d, movPlace c f.space.toNat ((s.chip c).movAddr f 64) 64 = some p → s.uncorrectable p 64 = false →
      s.argShut c p 64 = none → d = s.load p 64 →
      opOf d ≤ 2 → copyBad d = false →
      (opOf d ≠ 0 → RowsOk s (.chiplet c) (s.moveSet (.slot c f.extra.toNat)) d) →
    Gives (.movCopy c false f) s fun t => OneOn s t c ∧ OtherChips s t c ∧ (t.chip c).s = (s.chip c).s
      ∧ (t.chip c).copies.map (fun e => (e.1, e.2.1)) = [(f.extra.toNat, false)]
      ∧ (t.chip c).opsOut = (s.chip c).opsOut + 1 ∧ t.sigNet = s.sigNet ++ [⟨f.extra.toNat, .add 1, some c, []⟩]
      ∧ KeepsPages s t [pgENG c, pgSLT]
      ∧ (opOf d = 0 → KeepsMem s t) ∧ (opOf d ≠ 0 → KeepsBesideRows s t d)
      ∧ (opOf d ≠ 0 → copyOverlaps d = false → RowsMoved s t d))
  ∧ (∀ (n : Fin 32768) (idx : BitVec 16) (f : Flight) (s : State), s.waitsRemote (.flight n idx.toNat) = false →
      copyBad f.bytes = false → RowsOk s (.ring n) (some (s.ringWset n)) f.bytes →
    ∀ p ∈ [(1, Instr.copy n idx), (2, Instr.fill n idx)], s.flightOf n idx.toNat 1 p.1 = some f →
      Gives p.2 s fun t => Ended t n idx.toNat f.bytes 0 (cpRows f.bytes * cpLen f.bytes) ∧ KeepsOtherRings s t n
        ∧ KeepsPages s t [pgSLT] ∧ KeepsBesideRows s t f.bytes
        ∧ t = { s with regs := t.regs, rings := t.rings, mem := t.mem, freeCount := t.freeCount, clocks := t.clocks, out := t.out,
                       msixPending := t.msixPending, pldm := t.pldm }
        ∧ (copyOverlaps f.bytes = false → RowsMoved s t f.bytes))
  ∧ (∀ (n : Fin 32768) (idx : BitVec 16) (f : Flight) (r : PcieResult) (s : State),
      s.waitsRemote (.flight n idx.toNat) = false → hostLen f.bytes ≠ 0 →
      (s.flightOf n idx.toNat 7 1 = some f →
        RowHere s (.ring n) (some (s.ringWset n)) (hostLocal f.bytes) (hostLen f.bytes) false → (s.ring n).discard = false →
        Gives (.toHost n idx r) s fun t => KeepsMem s t ∧ KeepsOtherRings s t n ∧ KeepsPages s t [pgSLT]
          ∧ (r = .good → Ended t n idx.toNat f.bytes 0 (hostLen f.bytes)
            ∧ t.hostLoad (s.ringDie n) (hostAddr f.bytes) (hostLen f.bytes)
              = s.load (hostLocal f.bytes % 2 ^ 48) (hostLen f.bytes))
          ∧ (r ≠ .good → t.hostMem = s.hostMem ∧ ∃ d, Ended t n idx.toNat f.bytes (pcieStatus r) d))
      ∧ (s.flightOf n idx.toNat 7 2 = some f →
        RowHere s (.ring n) (some (s.ringWset n)) (hostLocal f.bytes) (hostLen f.bytes) true →
        Gives (.fromHost n idx r) s fun t => t.hostMem = s.hostMem ∧ KeepsOtherRings s t n ∧ KeepsPages s t [pgSLT]
          ∧ KeepsMemBut s t (hostLocal f.bytes % 2 ^ 48) (hostLen f.bytes)
          ∧ (r = .good → Ended t n idx.toNat f.bytes 0 (hostLen f.bytes)
            ∧ t.load (hostLocal f.bytes % 2 ^ 48) (hostLen f.bytes)
              = s.hostLoad (s.ringDie n) (hostAddr f.bytes) (hostLen f.bytes))
          ∧ (r ≠ .good → ∃ d, Ended t n idx.toNat f.bytes (pcieStatus r) d)))

/-- Serving requests (R28, R192, R200, R201). A request that names no fenced chiplet is held; one that is held goes to the chiplet
it names or to the free one with the lowest number, whose last 64 bytes of scratch get the descriptor, and whose stream begins at
ENTRY; while that one is busy it is held on, and RC_RETRY does not run. -/
def Obligations.ServeRequestsAreHeldAndDispatched : Prop :=
  (∀ (n : Fin 32768) (idx : BitVec 16) (f : Flight) (s : State), s.flightOf n idx.toNat 6 1 = some f → f.accepted = false →
      s.namesFenced f.bytes = false →
    Gives (.serveRequest n idx) s fun t => t = { s with rings := t.rings } ∧ Accepted t n idx.toNat f.bytes
      ∧ KeepsOtherRings s t n)
  ∧ (∀ (n : Fin 32768) (idx : BitVec 16) (f : Flight) (c : Nat) (s : State), s.flightOf n idx.toNat 6 1 = some f →
      f.accepted = true → f.unit = none → s.serveTarget f.bytes = some c → f.bytes.length = 64 → s.badBursts = [] →
    Gives (.serveDispatch n idx) s fun t => t = { s with rings := t.rings, chiplets := t.chiplets, mem := t.mem }
      ∧ (srvChiplet f.bytes < 64 → c = srvChiplet f.bytes) ∧ c < 64 ∧ s.isServing c = true
      ∧ (srvChiplet f.bytes = 0xFF → ∀ d < c, s.freeToServe d = false)
      ∧ (t.chip c).run = .running ∧ (t.chip c).pc = srvEntry f.bytes ∧ (t.chip c).serve = some (n.val, idx.toNat)
      ∧ (t.chip c).main.clock = 0 ∧ (t.chip c).serveBuf = s.flag Reg.WPC_POSITION 1 ∧ OtherChips s t c
      ∧ t.load (scratchAt c 0x7FFFC0) 64 = f.bytes ∧ KeepsMemBut s t (scratchAt c 0x7FFFC0) 64
      ∧ (∃ g ∈ (t.ring n).flights, g.idx = idx.toNat ∧ g.bytes = f.bytes ∧ g.unit = some c) ∧ KeepsOtherRings s t n)
  ∧ (∀ (n : Fin 32768) (idx : BitVec 16) (f : Flight) (s : State), s.flightOf n idx.toNat 6 1 = some f →
      f.accepted = true → f.unit = none → s.serveTarget f.bytes = none → s.namesFenced f.bytes = false →
      s.namesOutside f.bytes = false →
    Gives (.serveDispatch n idx) s fun t => t = { s with rings := t.rings } ∧ KeepsOtherRings s t n
      ∧ ∃ g ∈ (t.ring n).flights, g.idx = idx.toNat ∧ g.bytes = f.bytes ∧ g.refused = none ∧ g.accepted = true)

/-- Maps and passes (R105, R222, R224, R238, R242). MAP_VALIDATE records the first bad entry of a pending map with its cause, or makes a good map ready and
pins the slots it names; a pass that is due starts at the first block of the map; a descriptor that names running engines
waits on each of them; an OUTER_STEP, in its turn, is queued for the next waypoint or completes STALE. Memory keeps every byte. -/
def Obligations.MapsAndPassesAreTaken : Prop :=
  (∀ (k : Fin 48) (s : State), s.updWorks k = true →
    Gives (.mapValidate k) s fun t => t = { s with regs := t.regs, pins := t.pins, upds := t.upds }
      ∧ KeepsRegs s t [Reg.UPD_BAD_ENTRY k] ∧ (∀ j, j ≠ k.val → t.upd j = s.upd j)
      ∧ (s.mapPlaced k (s.reg (Reg.UPD_MAP k)) = false → (t.upd k).mapOk = none ∧ t.reg (Reg.UPD_BAD_ENTRY k) = 2 ^ 31 + 2 ^ 16)
      ∧ (s.mapPlaced k (s.reg (Reg.UPD_MAP k)) = true → s.firstBad k (s.reg (Reg.UPD_MAP k)) = none → (t.upd k).mapOk = some (s.reg (Reg.UPD_MAP k))
          ∧ t.reg (Reg.UPD_BAD_ENTRY k) = 0
          ∧ ∀ n ∈ s.mapSlots (s.reg (Reg.UPD_MAP k)), (2 * k.val + 1, n) ∈ t.pins)
      ∧ ∀ i c, s.mapPlaced k (s.reg (Reg.UPD_MAP k)) = true → s.firstBad k (s.reg (Reg.UPD_MAP k)) = some (i, c) → (t.upd k).mapOk = none
          ∧ t.fld (Reg.UPD_BAD_ENTRY k) 31 31 = 1 ∧ t.fld (Reg.UPD_BAD_ENTRY k) 18 16 = c
          ∧ t.fld (Reg.UPD_BAD_ENTRY k) 15 0 = i)
  ∧ (∀ (k : Fin 48) (p : UpdPass) (l : List UpdPass) (s : State), s.updWorks k = true → s.unfenced (.upd k) = true →
      (s.upd k).running = false → (s.upd k).recovering = false → s.shardFree (s.upd k).wpn = true → (s.upd k).todo = true →
      (s.upd k).due = p :: l → 0 < mapCount (s.liveMap k) → MapReadable s k → passRuns p (s.mapEntry (s.liveMap k) 0) 0 = true →
      0 < (s.mapEntry (s.liveMap k) 0).blocks →
    Gives (.updatePassStart k) s fun t => t = { s with upds := t.upds } ∧ (∀ j, j ≠ k.val → t.upd j = s.upd j)
      ∧ t.curPass k = some p ∧ (t.upd k).entry = 0 ∧ (t.upd k).block = 0 ∧ (t.upd k).due = (s.upd k).due)
  ∧ (∀ (n : Fin 32768) (idx : BitVec 16) (f : Flight) (ks : List Nat) (s : State), f.accepted = false →
      ks = enginesNamed (fieldAt f.bytes 0x10 1) → ks ≠ [] → (∀ k ∈ ks, s.serving (updUnit k) = true) →
    ∀ q ∈ [(Instr.derive n idx, 2, UpdPass.derive_ n idx.toNat (fieldAt f.bytes 0x14 2) (fieldAt f.bytes 0x18 2)),
        (.sweep n idx, 3, .sweep n idx.toNat)], s.flightOf n idx.toNat 5 q.2.1 = some f →
      Gives q.1 s fun t => t = { s with rings := t.rings, upds := t.upds, updOpen := t.updOpen } ∧ KeepsOtherRings s t n
        ∧ Accepted t n idx.toNat f.bytes ∧ (∃ o, t.updOpen = s.updOpen ++ [o] ∧ o.ring = n.val ∧ o.idx = idx.toNat ∧ o.left = ks)
        ∧ ∀ k < 48, t.upd k = if k ∈ ks then { s.upd k with later := (s.upd k).later ++ [q.2.2] } else s.upd k)
  ∧ (∀ (n : Fin 32768) (idx : BitVec 16) (f : Flight) (cl : Nat) (s : State), s.flightOf n idx.toNat 5 1 = some f →
      f.accepted = false → s.outerTurn n idx.toNat = true → s.roundClosed = some cl → fieldAt f.bytes 0x10 4 ≤ cl →
      fieldAt f.bytes 0x20 8 = s.fld Reg.UPD_SHARD 47 0 →
      (fieldAt f.bytes 0x20 8 = 0 ∨ bitOf (fieldAt f.bytes 0x14 4) 2 = true ∨ bitOf (fieldAt f.bytes 0x14 4) 1 = true ∨
        (s.windowed (s.ringWset n) (fieldAt f.bytes 0x18 8)
            (fieldAt f.bytes 0x20 8 * (if bitOf (fieldAt f.bytes 0x14 4) 0 then 4 else 2)) false = true
          ∧ fieldAt f.bytes 0x18 8 / 2 ^ 48 = s.devnum ∧ populated (fieldAt f.bytes 0x18 8 % 2 ^ 48)
            (fieldAt f.bytes 0x20 8 * (if bitOf (fieldAt f.bytes 0x14 4) 0 then 4 else 2)) = true)) →
    Gives (.outerStep n idx) s fun t => KeepsOtherRings s t n ∧ KeepsMem s t
      ∧ (s.roundStale (fieldAt f.bytes 0x10 4) = true → Ended t n idx.toNat f.bytes 8 0 ∧ t.updQueue = s.updQueue
          ∧ Counts s t Reg.UPD_OUTER_STALE 1 ∧ KeepsPages s t [pgUPDC])
      ∧ (s.roundStale (fieldAt f.bytes 0x10 4) = false → Accepted t n idx.toNat f.bytes
          ∧ t = { s with rings := t.rings, updQueue := t.updQueue, updOpen := t.updOpen }
          ∧ ∃ p, t.updQueue = s.updQueue ++ [p] ∧ passOf p = some (n.val, idx.toNat)))

/-- What the passes write (R225 to R231, R236, R240, R241). A step update of a touched block writes its journal entry, moments,
master, working copies and tag, in that order, with the values of R228 to R230, a FACTORED entry behind its sums and factors; an
outer application and a null step write their journal entry, master, anchors, copies and tag; a re-derivation writes the working
copies alone. Where every write is allowed, all of them are in memory at the end, every byte outside them is as it was, and what
saturated is counted; no other engine changes unless a check that is due finds a deviation. Where the entry, the outer step or the
snapshot names register space, the block runs on what the registers read, and its writes there are made as it ends, with PF0's rights
(R428); that an engine's reads take no effect there is the model's choice (assumption 36). -/
def Obligations.PassesWriteTheirBlock : Prop :=
  (∀ (k : Fin 48) (j : Nat) (e : TensorEntry) (gs : List Word) (nf : Nat) (s s0 s1 s2 : State) (n : BlockStep)
      (ws : List (Nat × List Byte)), s.curPass k = some .step → e = s.curEntry k → j = (s.upd k).block → s.blockRegs k = [] →
      s.readTrouble k (maskRange e j ++ [(e.tagOf j, 8)]) = none → s.journalPhase (s.journalNext k) = 0 →
      s.entryTrouble k e = none → s0 = s.entryBegin k e → s0.passedOver e j = false →
      s0.loadNat (e.tagOf j) 4 ≠ (s.upd k).wpn % 2 ^ 32 →
      s0.readTrouble k (if e.dense then [(e.touch + j / 8, 1)] else []) = none → s0.gradLost k e j = false →
      s0.blockTouched e j (s.upd k).wpn = true →
      s0.readTrouble k (s0.liveReads k e j) = none → unscale (s.upd k).exp (s0.blockGrads e j (s.upd k).wpn) = (gs, nf) →
      s1 = (if (s.variant e.variant).rule = 3 then
        s0.factorAdd e (s.variant e.variant).step.toNat (e.places (e.first + j)) gs else s0) →
      s1.journalPhase (s1.journalNext k) = 0 → s1.readTrouble k (e.stepReads s.compat j) = none →
      s2 = s1.count (Reg.UPD_NF_GRAD k) nf → n = s2.stepBlock k e j gs →
      ws = s2.stepWrites k e j n (s2.copiesOf e s.compat j n.xs).1 →
      (∀ w ∈ ws, s.updMay k w.1 w.2.length true = true ∧ PlainAt s w.1 w.2.length) →
    Gives (.stepUpdateBlock k) s fun t => WritesDone s1 t ws ∧ Counts s t (Reg.UPD_BLOCKS k) 1
      ∧ Counts s t (Reg.UPD_NF_GRAD k) nf ∧ Counts s t (Reg.UPD_MOMENT_SAT k) n.msat ∧ Counts s t (Reg.UPD_MASTER_SAT k) n.xsat
      ∧ ((s.variant e.variant).rule ≠ 3 → s1 = s)
      ∧ (s.checkDue ((s.upd k).pos + j) (s.upd k).wpn = false → MapReadable s k → ∀ i, i ≠ k.val → t.upd i = s.upd i))
  ∧ (∀ (k : Fin 48) (kind r j : Nat) (o : Option OuterSrc) (e : TensorEntry) (s : State) (m a : List Byte) (sat : Nat)
      (ws : List (Nat × List Byte)) (i : Instr),
      ((∃ ring idx fp32 host src, s.curPass k = some (.outer ring idx r fp32 host src)
          ∧ o = some ⟨fp32, host, s.ringDie ring, src⟩ ∧ kind = 2 ∧ i = .outerApplicationBlock k)
        ∨ ((∃ d, s.curPass k = some (.null r d)) ∧ o = none ∧ kind = 3 ∧ i = .nullStepBlock k)) →
      e = s.curEntry k → j = (s.upd k).block → s.blockRegs k = [] → s.readTrouble k (maskRange e j ++ [(e.tagOf j, 8)]) = none →
      s.passedOver e j = false → s.outerRecorded k r (s.loadNat (e.tagOf j + 4) 4) = false → s.journalPhase (s.journalNext k) = 0 →
      s.outerGone o (e.shard + 256 * j) = false → s.readTrouble k (s.outerReads e j r) = none →
      s.outerBlock e j r o = (m, a, sat) →
      ws = [(s.journalNext k, journalBytes r kind (s.upd k).entry (e.first + j) 0 0 s.compat []), (e.masterOf s.compat j, m),
          phaseWrite (s.journalNext k) 3, (e.anchorOf j, a), phaseWrite (s.journalNext k) 4]
        ++ (s.copiesOf e s.compat j (decodeMasters s.compat m)).1
        ++ [(e.tagOf j + 4, leBytes 4 r), phaseWrite (s.journalNext k) 0] →
      (∀ w ∈ ws, s.updMay k w.1 w.2.length true = true ∧ PlainAt s w.1 w.2.length) →
    Gives i s fun t => WritesDone s t ws ∧ Counts s t (Reg.UPD_BLOCKS k) 1 ∧ Counts s t (Reg.UPD_MASTER_SAT k) sat
      ∧ (s.checkDue ((s.upd k).pos + j) (s.upd k).wpn = false → MapReadable s k → ∀ x, x ≠ k.val → t.upd x = s.upd x))
  ∧ (∀ (k : Fin 48) (ring idx first count j : Nat) (e : TensorEntry) (s : State) (ws : List (Nat × List Byte)),
      s.curPass k = some (.derive_ ring idx first count) → e = s.curEntry k → j = (s.upd k).block → s.blockRegs k = [] →
      s.readTrouble k ((e.masterOf s.compat j, masterSize s.compat) :: e.mateReads s.compat j) = none →
      ws = (s.copiesOf e s.compat j (s.masters e s.compat j)).1 →
      (∀ w ∈ ws, s.updMay k w.1 w.2.length true = true ∧ PlainAt s w.1 w.2.length) →
    Gives (.reDerivationBlock k) s fun t => WritesDone s t ws ∧ Counts s t (Reg.UPD_BLOCKS k) 1
      ∧ (MapReadable s k → ∀ i, i ≠ k.val → t.upd i = s.upd i))
  ∧ (∀ (k : Fin 48) (s : State), s.blockRegs k ≠ [] →
      (s.curPass k = some .step → Gives (.stepUpdateBlock k) s fun t => t = ((s.showRegs k (s.blockRegs k)).stepOne k).takeRegs k)
      ∧ (∀ ring idx r fp32 host src, s.curPass k = some (.outer ring idx r fp32 host src) → Gives (.outerApplicationBlock k) s fun t =>
          t = ((s.showRegs k (s.blockRegs k)).outerOne k 2 r (some ⟨fp32, host, s.ringDie ring, src⟩)).takeRegs k)
      ∧ (∀ r d, s.curPass k = some (.null r d) → Gives (.nullStepBlock k) s fun t =>
          t = ((s.showRegs k (s.blockRegs k)).outerOne k 3 r none).takeRegs k)
      ∧ ∀ ring idx first count, s.curPass k = some (.derive_ ring idx first count) → Gives (.reDerivationBlock k) s fun t =>
          t = ((s.showRegs k (s.blockRegs k)).deriveOne k).takeRegs k)

/-- What the passes leave alone (R225, R229, R230, R234). A step update passes over a frozen block, one of a FACTORED entry with no
factor region among them, and counts it; so does an outer application or a null step, and a pass that resumes passes over a block
whose tag records its round or a later one of those due with it; a step update does so over one that has its step, and it counts one
its step does not touch. No byte of memory changes, but for the factor set that a FACTORED entry's first block sets up, and no engine
but this one. A resumed step update whose gradient source carries the next step's tag is an uncorrectable state error, and the job
halts. -/
def Obligations.PassesPassOverBlocks : Prop :=
  (∀ (k : Fin 48) (e : TensorEntry) (j : Nat) (s s0 : State), s.curPass k = some .step → e = s.curEntry k → j = (s.upd k).block →
      s.blockRegs k = [] → MapReadable s k →
      s.readTrouble k (maskRange e j ++ [(e.tagOf j, 8)]) = none → s.journalPhase (s.journalNext k) = 0 →
      s.entryTrouble k e = none → s0 = s.entryBegin k e →
      (s0.passedOver e j = true →
        Gives (.stepUpdateBlock k) s fun t => KeepsMem s0 t ∧ Counts s t (Reg.UPD_FROZEN k) 1
          ∧ t.reg (Reg.UPD_BLOCKS k) = s.reg (Reg.UPD_BLOCKS k) ∧ (∀ i, i ≠ k.val → t.upd i = s.upd i)
          ∧ ((s.variant e.variant).rule ≠ 3 ∨ e.fact = false ∨ j ≠ 0 → KeepsMem s t))
      ∧ (s0.passedOver e j = false → (s.variant e.variant).rule ≠ 3 →
          s.loadNat (e.tagOf j) 4 = (s.upd k).wpn % 2 ^ 32 →
        Gives (.stepUpdateBlock k) s fun t => KeepsMem s t ∧ t.reg (Reg.UPD_BLOCKS k) = s.reg (Reg.UPD_BLOCKS k)
          ∧ t.reg (Reg.UPD_UNTOUCHED k) = s.reg (Reg.UPD_UNTOUCHED k) ∧ ∀ i, i ≠ k.val → t.upd i = s.upd i)
      ∧ (s0.passedOver e j = false → s0.loadNat (e.tagOf j) 4 ≠ (s.upd k).wpn % 2 ^ 32 →
          s0.readTrouble k (if e.dense then [(e.touch + j / 8, 1)] else []) = none →
          (s0.gradLost k e j = true → Gives (.stepUpdateBlock k) s fun t => KeepsMem s0 t ∧ t.flag Reg.FLT_JOB 31 = true
            ∧ t.reg (Reg.UPD_BLOCKS k) = s.reg (Reg.UPD_BLOCKS k))
          ∧ (s0.blockTouched e j (s.upd k).wpn = false → s0.gradLost k e j = false →
              Gives (.stepUpdateBlock k) s fun t => KeepsMem s0 t ∧ Counts s t (Reg.UPD_UNTOUCHED k) 1
                ∧ t.reg (Reg.UPD_BLOCKS k) = s.reg (Reg.UPD_BLOCKS k) ∧ ∀ i, i ≠ k.val → t.upd i = s.upd i)))
  ∧ (∀ (k : Fin 48) (r : Nat) (i : Instr) (s : State),
      ((∃ ring idx fp32 host src, s.curPass k = some (.outer ring idx r fp32 host src) ∧ i = .outerApplicationBlock k)
        ∨ ((∃ d, s.curPass k = some (.null r d)) ∧ i = .nullStepBlock k)) → s.blockRegs k = [] → MapReadable s k →
      s.readTrouble k (maskRange (s.curEntry k) (s.upd k).block ++ [((s.curEntry k).tagOf (s.upd k).block, 8)]) = none →
      (s.passedOver (s.curEntry k) (s.upd k).block = true ∨
        s.outerRecorded k r (s.loadNat ((s.curEntry k).tagOf (s.upd k).block + 4) 4) = true) →
    Gives i s fun t => KeepsMem s t ∧ t.reg (Reg.UPD_BLOCKS k) = s.reg (Reg.UPD_BLOCKS k)
      ∧ (s.passedOver (s.curEntry k) (s.upd k).block = true → Counts s t (Reg.UPD_FROZEN k) 1)
      ∧ ∀ j, j ≠ k.val → t.upd j = s.upd j)

/-- Checks and recovery (R198, R233 to R235, R237, R245). A swept block is counted as checked, and one whose working copies are not
what its master gives raises the deviation event and halts the job; roll-forward of an engine whose journal holds no entry past
its first phase clears those entries, one with a single later entry does that entry's remaining writes, and the interrupted
passes are due again; a frozen engine is released READY. No other byte of memory changes. The mode of the journal is that of its
first entry, and a roll-forward is held to no window: both are the model's reading (assumptions 27 and 64). A map that names register
space is rolled forward on what the registers read (R428). -/
def Obligations.SweepsAndRecoveryKeepMemory : Prop :=
  (∀ (k : Fin 48) (p : UpdPass) (l : List UpdPass) (e : TensorEntry) (j : Nat) (s : State), (s.upd k).running = true →
      s.updWorks k = true → (s.upd k).sweeping = true → (s.upd k).due = p :: l → e = s.curEntry k → j = (s.upd k).block → s.blockRegs k = [] →
      s.readTrouble k ((e.masterOf s.compat j, masterSize s.compat) :: e.mateReads s.compat j) = none →
      s.readTrouble k ((s.copiesOf e s.compat j (s.masters e s.compat j)).1.map fun w => (w.1, w.2.length)) = none →
    Gives (.sweepBlock k) s fun t => KeepsMem s t ∧ Counts s t (Reg.UPD_DEV_CHECKED k) 1
      ∧ ((∃ w ∈ (s.copiesOf e s.compat j (s.masters e s.compat j)).1, s.load w.1 w.2.length ≠ w.2) →
          t.flag (pgUPD k + Hdr.EVT_STATUS) 8 = true ∧ Counts s t (Reg.UPD_DEV_MISMATCH k) 1
            ∧ t.flag Reg.FLT_JOB 31 = true))
  ∧ (∀ (k : Fin 48) (s : State), (s.upd k).recovering = true → s.wardPowered 5 = true → s.mapRegs k = [] →
      ((∀ i < s.journalLen k, s.journalPhase (s.ringAt k (s.journalMode k) i) ≤ 1
          ∧ (s.journalPhase (s.ringAt k (s.journalMode k) i) = 1 → s.bareTrouble (s.redoReads k (s.ringAt k (s.journalMode k) i)
              (s.load (s.ringAt k (s.journalMode k) i) (journalSize (s.journalMode k)))) = none)) →
        PlainAt s (s.ringAt k (s.journalMode k) 0) (journalSize (s.journalMode k) * s.journalLen k) →
        Gives (.rollForward k) s fun t => (t.upd k).recovering = false ∧ (t.upd k).held = [] ∧ (t.upd k).due = (s.upd k).held
          ∧ (t.upd k).todo = !(s.upd k).held.isEmpty ∧ (t.upd k).resumed = !(s.upd k).held.isEmpty
          ∧ (∀ i < s.journalLen k, t.journalPhase (s.ringAt k (s.journalMode k) i) = 0) ∧ (∀ j, j ≠ k.val → t.upd j = s.upd j)
          ∧ (∀ a, (∀ i < s.journalLen k, a ≠ s.ringAt k (s.journalMode k) i + 5) → t.load a 1 = s.load a 1)
          ∧ KeepsPages s t [pgUPD k, pgSLT])
      ∧ (∀ (i a : Nat) (d : List Byte) (ws : List (Nat × List Byte)), i < s.journalLen k → a = s.ringAt k (s.journalMode k) i →
          d = s.load a (journalSize (s.journalMode k)) → 2 ≤ s.journalPhase a → fieldAt d 5 1 = s.journalPhase a →
          (∀ x < s.journalLen k, x ≠ i → s.journalPhase (s.ringAt k (s.journalMode k) x) = 0) →
          s.redoTrouble k a d = none → ws = (s.redoWrites k a d).1 → (∀ w ∈ ws, PlainAt s w.1 w.2.length) →
          (∀ x < s.journalLen k, ∀ w ∈ ws, x ≠ i →
            overlaps w.1 w.2.length (s.ringAt k (s.journalMode k) x + 5) 1 = false) →
          (∀ w ∈ ws, overlaps w.1 w.2.length (s.ringAt k (s.journalMode k) 0 + 0xE) 1 = false) →
        Gives (.rollForward k) s fun t => WritesDone s t ws ∧ (t.upd k).recovering = false ∧ Counts s t (Reg.UPD_ROLLFWD k) 1
          ∧ (t.upd k).due = (s.upd k).held ∧ (∀ j, j ≠ k.val → t.upd j = s.upd j)))
  ∧ (∀ (k : Fin 48) (s : State), (s.upd k).recovering = true → s.wardPowered 5 = true → s.mapRegs k ≠ [] →
    Gives (.rollForward k) s fun t => (t.upd k).recovering = false ∧ (t.upd k).held = []
      ∧ t.mem = (((s.showRegs k (s.mapRegs k)).rollForward k).takeRegs k).mem)
  ∧ (∀ (who : Requester) (k : Fin 48) (s : State), MayCommand s who (pgUPD k) → (s.unit (.upd k)).frozen = true →
      (s.unit (.upd k)).phase = .normal →
    Gives (.engineUnfreeze who k) s fun t => (t.unit (.upd k)).frozen = false ∧ (t.unit (.upd k)).code = 1
      ∧ (t.unit (.upd k)).prev = (s.unit (.upd k)).code ∧ t.flag (pgUPD k + Hdr.EVT_STATUS) 1 = true
      ∧ (∀ u, u ≠ .upd k → t.unit u = s.unit u) ∧ KeepsMem s t ∧ KeepsPages s t [pgUPD k])

/-- Variant slots. STAGE with room adds the parameter registers as a staged write of the selected variant, or replaces the one
staged before, and STATUS reads 1; READ shows the selected variant in the parameter registers. -/
def Obligations.VariantsAreStagedAndRead : Prop :=
  (∀ (who : Requester) (s : State), MayCommand s who pgUPDC → s.varStaged.length < 256 →
    Gives (.updVarStage who) s fun t => t = { s with regs := t.regs, varStaged := t.varStaged }
      ∧ KeepsRegs s t [Reg.UPD_VAR_CMD] ∧ t.fld Reg.UPD_VAR_CMD 29 28 = 1
      ∧ (s.fld Reg.UPD_VAR_SEL 7 0, s.varRegs) ∈ t.varStaged
      ∧ ∀ p, p.1 ≠ s.fld Reg.UPD_VAR_SEL 7 0 → (p ∈ t.varStaged ↔ p ∈ s.varStaged))
  ∧ (∀ (who : Requester) (s : State), MayCommand s who pgUPDC →
    Gives (.updVarRead who) s fun t => t = { s with regs := t.regs }
      ∧ t.varRegs = s.variant (s.fld Reg.UPD_VAR_SEL 7 0)
      ∧ KeepsRegs s t [Reg.UPD_RULE_CTRL, Reg.UPD_VAR_LR, Reg.UPD_VAR_BETA1, Reg.UPD_VAR_BETA2, Reg.UPD_VAR_EPS,
          Reg.UPD_VAR_WD, Reg.UPD_VAR_STEP])

/-- The slow tier (R54, R246, R359). Its controller answers a read of installed memory that the devices read, a burst corrected
among them, with the bytes, and a write by storing them; a read of a burst that the devices cannot correct completes
UNCORRECTABLE, is noted, and the burst stays so, one with a byte that nothing has written among them (R427); a write that covers such
a burst whole makes it sound, and one that covers a part of it leaves the burst as it was and completes UNCORRECTABLE; a controller that is fenced refuses and counts it, and an access beyond the
capacity is answered VIOLATION and counted. -/
def Obligations.SlowTierAnswers : Prop :=
  ∀ (who : Requester) (off : BitVec 48) (n : Nat) (bs : List Byte) (err : DramErr) (s : State), inSlowWindow off.toNat = true →
      s.wardPowered 5 = true → bs.length = n → 0 < n →
    (s.serving .slowTier = true → populated off.toNat n = true → s.badBursts = [] →
      (∀ q : Nat, ∀ e ∈ [(DramErr.clean, 0), (.corrected q, q)],
        (s.uncorrectable off.toNat n = false →
          Gives (.slowTierAccess who off (.read n) e.1) s fun t => KeepsMem s t
            ∧ t.out.getLast? = some (.reply who 0 (s.load off.toNat n)) ∧ KeepsPages s t [pgSLT]
            ∧ (e.2 ≠ 0 → Counts s t Reg.SLT_CORRECTED e.2))
        ∧ (Gives (.slowTierAccess who off (.write bs) e.1) s fun t => t.load off.toNat n = bs
            ∧ KeepsMemBut s t off.toNat n ∧ t.out.getLast? = some (.reply who 0 []) ∧ KeepsPages s t [pgSLT]
            ∧ (e.2 ≠ 0 → Counts s t Reg.SLT_CORRECTED e.2)))
      ∧ (∀ b : BitVec 48, b.toNat / 64 * 64 < off.toNat + n → off.toNat < b.toNat / 64 * 64 + 64 →
          (Gives (.slowTierAccess who off (.read n) (.uncorrectable b)) s fun t => KeepsMem s t
            ∧ (∃ x y, t.out = s.out ++ x ++ [.reply who 9 []] ++ y) ∧ Counts s t Reg.SLT_UNCORRECTABLE 1
            ∧ t.reg Reg.SLT_ERR_ADDR = b.toNat / 64 * 64 ∧ t.badBursts = [b.toNat / 64 * 64])
          ∧ (Gives (.slowTierAccess who off (.write bs) (.uncorrectable b)) s fun t => KeepsMemBut s t off.toNat n
            ∧ (off.toNat ≤ b.toNat / 64 * 64 → b.toNat / 64 * 64 + 64 ≤ off.toNat + n → t.load off.toNat n = bs ∧ t.badBursts = []
                ∧ t.out.getLast? = some (.reply who 0 []))
            ∧ (b.toNat / 64 * 64 < off.toNat ∨ off.toNat + n < b.toNat / 64 * 64 + 64 → t.badBursts = [b.toNat / 64 * 64]
                ∧ (∀ a, b.toNat / 64 * 64 ≤ a → a < b.toNat / 64 * 64 + 64 → t.load a 1 = s.load a 1)
                ∧ (∃ x y, t.out = s.out ++ x ++ [.reply who 9 []] ++ y) ∧ Counts s t Reg.SLT_UNCORRECTABLE 1))))
    ∧ (s.serving .slowTier = true → populated off.toNat n = true →
        ∀ b, s.badBurst off.toNat n = some b → s.badBursts = [] ∨ s.badBursts = [b] →
        Gives (.slowTierAccess who off (.read n) .clean) s fun t => KeepsMem s t
          ∧ (∃ x y, t.out = s.out ++ x ++ [.reply who 9 []] ++ y) ∧ Counts s t Reg.SLT_UNCORRECTABLE 1
          ∧ t.reg Reg.SLT_ERR_ADDR = b ∧ t.badBursts = [b])
    ∧ (s.serving .slowTier = false → ∀ op ∈ [MemOp.read n, .write bs],
        Gives (.slowTierAccess who off op err) s fun t => KeepsMem s t ∧ t.out.getLast? = some (.reply who 1 [])
          ∧ Counts s t Reg.FLT_REFUSED 1 ∧ KeepsPages s t [pgFLT])
    ∧ (s.serving .slowTier = true → populated off.toNat n = false → ∀ op ∈ [MemOp.read n, .write bs],
        Gives (.slowTierAccess who off op err) s fun t => KeepsMem s t
          ∧ (∃ x y, t.out = s.out ++ x ++ [.reply who 4 []] ++ y) ∧ Counts s t Reg.SLT_BEYOND 1)

/-- Event words (R198, R323, R381, R390 to R392). A write of ones to EVT_STATUS clears those bits, but for an event that stands, a write of EVT_ENABLE takes the word, EVT_FORCE sets the bits
the page can set; what announces an enabled event may follow. CTRL.UNFREEZE releases a frozen unit to READY. No other
register of any page changes, and nothing but registers and messages. A change of STATE that no tick has noted yet is noted before
EVT_STATUS or EVT_ENABLE is written (`StateNoted`; the model's choice: assumption 26). -/
def Obligations.EventWordsOfAPage : Prop :=
  ∀ (who : Requester) (page : BitVec 28) (p : Nat) (k : PageKind) (s : State), MayHeader s who page p k →
    StateNoted s (s.notePage p) p
    ∧ (∀ (v : Word) (e : State), e = s.notePage p →
      (Gives (.evtStatusClear who page v) s fun t => Announces e t ∧ KeepsRegs e t ((p + Hdr.EVT_STATUS) :: irqRegs)
        ∧ ∀ n < 32, (n = 0 → p ≠ pageBase Reg.RC_IRQ_DROPPED) →
          t.flag (p + Hdr.EVT_STATUS) n = ((e.flag (p + Hdr.EVT_STATUS) n && !v.getLsbD n) || (s.standing p).testBit n))
      ∧ (Gives (.evtEnableWrite who page v) s fun t => Announces e t ∧ KeepsRegs e t ((p + Hdr.EVT_ENABLE) :: irqRegs)
        ∧ t.fld (p + Hdr.EVT_ENABLE) 31 0 = v.toNat)
      ∧ (Gives (.evtForce who page v) s fun t => Announces s t ∧ KeepsRegs s t ((p + Hdr.EVT_STATUS) :: irqRegs)
        ∧ ∀ n < 32, (n = 0 → p ≠ pageBase Reg.RC_IRQ_DROPPED) →
          t.flag (p + Hdr.EVT_STATUS) n = (s.flag (p + Hdr.EVT_STATUS) n || (v.getLsbD n && k.events.testBit n))))
    ∧ ∀ u, asPF0 who = true → unitOfPage p = some u → (s.unit u).frozen = true → (s.unit u).phase = .normal →
      Gives (.unfreeze who page) s fun t => (t.unit u).frozen = false ∧ (t.unit u).code = 1
        ∧ (∀ w, w ≠ u → t.unit w = s.unit w) ∧ KeepsMem s t ∧ KeepsPages s t (unitPages u)

/-- Snapshots and counters (R387 to R389). TAKE copies the 16 counters of the bank into the snapshot words with the time and the flags and
advances the snapshot count; TAKE with CLEAR also clears those counters; all ones written to a counter clears it and its
flag. Nothing but registers changes. -/
def Obligations.SnapshotsAndCounterClears : Prop :=
  (∀ (who : Requester) (page : BitVec 28) (p : Nat) (k : PageKind) (bank : BitVec 2) (s : State), MayHeader s who page p k →
    ∀ c ∈ [(Instr.snapTake who page bank, false), (.snapTakeClear who page bank, true)],
      Gives c.1 s fun t => t = { s with regs := t.regs }
        ∧ (∀ i < 16, ∀ d, satAt k.regs (16 * bank.toNat + i) = some d → t.reg (p + Hdr.SNAPn i) = s.reg (s.regKey (p + d.off))
            ∧ t.reg (s.regKey (p + d.off)) = if c.2 then 0 else s.reg (s.regKey (p + d.off)))
        ∧ (∀ i < 16, satAt k.regs (16 * bank.toNat + i) = none → t.reg (p + Hdr.SNAPn i) = 0)
        ∧ t.reg (p + Hdr.SNAP_TIME) = s.now % 2 ^ 64 ∧ t.fld (p + Hdr.SNAP_CTRL) 25 24 = bank.toNat
        ∧ t.fld (p + Hdr.SNAP_CTRL) 15 0 = (s.fld (p + Hdr.SNAP_CTRL) 15 0 + 1) % 2 ^ 16
        ∧ t.reg (p + Hdr.SNAP_OVF) = s.overflowFlags p)
  ∧ (∀ (who : Requester) (addr : BitVec 28) (a n : Nat) (v : DWord) (s : State), s.pathFrozen who = false →
      s.busAddr who addr.toNat = some a → (satWidth a).isSome = true → regBase a = some (a, n) → n = 4 ∨ n = 8 →
      s.mayWrite who (pageBase a) = true → s.wardPowered (a / 0x1000000) = true → v.toNat % 2 ^ (8 * n) = 2 ^ (8 * n) - 1 →
    Gives (.counterClear who addr n v) s fun t => t = { s with regs := t.regs } ∧ t.reg (s.regKey a) = 0)

/-- Pending values (R105, R222, R385, R386, R395). Without a job APPLY_NOW makes the pending values of a page live. A map that its
engine has not validated yet is validated first; a good one becomes live with its pins, a bad one is recorded. Rail offsets take
effect. During a job nothing happens. DISCARD makes every pending value of a page the live one again. Bits that are no pending value
stay. Two points are the model's choice: WPC_LEG waits for the end of a leg even here (R25 let win over R386: assumption 24), and
which participants must be ready, and what value may never become live, is as assumption 23 has it. -/
def Obligations.PendingValuesApplyOrGo : Prop :=
  ∀ (who : Requester) (page : BitVec 28) (p : Nat) (k : PageKind) (s : State), MayHeader s who page p k →
    (s.wp.job = false → p ≠ pgCALU 1 → (∀ e : Fin 48, p ≠ pgUPD e) →
      Gives (.applyNow who page) s fun t =>
        (∀ r ∈ s.wpRegs, r.page = p →
          Nat.land (t.reg r.live) r.mask = Nat.land (s.reg (if r.reg ≠ Reg.WPC_LEG ∧ s.wpAllowed r = true
            ∧ (∀ q ∈ r.who, s.readyFor q r = true) then r.reg else r.live)) r.mask
          ∧ t.reg r.live - Nat.land (t.reg r.live) r.mask = s.reg r.live - Nat.land (s.reg r.live) r.mask)
        ∧ KeepsRegs s t ((s.wpRegs.filter fun r => decide (r.page = p)).map WpReg.live)
        ∧ t = { s with regs := t.regs, chiplets := t.chiplets } ∧ (p ≠ pgWPC → ∀ c < 64, t.chip c = s.chip c))
    ∧ (∀ (e : Fin 48) (w : Nat) (good : Bool), s.wp.job = false → p = pgUPD e → w = s.reg (Reg.UPD_MAP e) →
        good = (s.mapReady e || (s.updWorks e && s.mapPlaced e w && (s.firstBad e w).isNone)) →
      Gives (.applyNow who page) s fun t => t = { s with regs := t.regs, pins := t.pins, upds := t.upds }
        ∧ KeepsRegs s t [Reg.UPD_MAP_LIVE e, Reg.UPD_BAD_ENTRY e] ∧ (∀ x, x ≠ e.val → t.upd x = s.upd x)
        ∧ t.liveMap e = (if good then w else s.liveMap e)
        ∧ (good = true → w ≠ s.liveMap e →
            (∀ n, (2 * e.val, n) ∈ t.pins ↔ if s.mapReady e then (2 * e.val + 1, n) ∈ s.pins else n ∈ s.mapSlots w)
              ∧ ∀ n, (2 * e.val + 1, n) ∉ t.pins)
        ∧ (good = false → ∀ n, (2 * e.val, n) ∈ t.pins ↔ (2 * e.val, n) ∈ s.pins)
        ∧ (s.mapReady e = false → s.updWorks e = true →
            t.reg (Reg.UPD_BAD_ENTRY e) = if s.mapPlaced e w then
                match s.firstBad e w with
                | some b => 2 ^ 31 + b.2 * 2 ^ 16 + b.1
                | none => 0
              else 2 ^ 31 + 2 ^ 16))
    ∧ (s.wp.job = false → p = pgCALU 1 →
      Gives (.applyNow who page) s fun t => KeepsPages s t [pgCALU 1] ∧ KeepsMem s t ∧ ∀ i < 15, t.calWaits 1 i = false)
    ∧ (s.wp.job = true → Gives (.applyNow who page) s fun t => t = s)
    ∧ (p ≠ pgCALU 1 → Gives (.discard who page) s fun t => t = { s with regs := t.regs, pins := t.pins, upds := t.upds }
        ∧ (∀ r ∈ s.wpRegs, r.page = p → Nat.land (t.reg r.reg) r.mask = Nat.land (s.reg r.live) r.mask
            ∧ t.reg r.reg - Nat.land (t.reg r.reg) r.mask = s.reg r.reg - Nat.land (s.reg r.reg) r.mask)
        ∧ (∀ a, a ∉ (s.wpRegs.filter fun r => decide (r.page = p)).map WpReg.reg →
            (∀ e : Fin 48, p = pgUPD e → a ≠ Reg.UPD_BAD_ENTRY e) → t.reg a = s.reg a)
        ∧ ((∀ e : Fin 48, p ≠ pgUPD e) → t = { s with regs := t.regs })
        ∧ ∀ e : Fin 48, p = pgUPD e → (t.upd e).mapOk = none ∧ t.reg (Reg.UPD_BAD_ENTRY e) = 0
            ∧ (∀ n, (2 * e.val + 1, n) ∉ t.pins) ∧ ∀ x, x ≠ e.val → t.upd x = s.upd x)
    ∧ (p = pgCALU 1 → Gives (.discard who page) s fun t => t = { s with regs := t.regs }
        ∧ ∀ i < 15, t.fld (Reg.CALU_TRIM 1 i) 7 0 = Map.get (fun _ => 0) s.calTaken (calKey 1 i) % 256
          ∨ s.calWaits 1 i = false)

/-- Register writes (R47, R56, R65, R67, R379, R384). A whole aligned write of a register without behaviour of its own gives its RW fields the bits written and
leaves its other fields and every other register; one that is narrow, misaligned or not its requester's is dropped, and
counted at the die of the function or ring it came from; that a width of none of the sizes of R379 is treated so, and where the
drops of other requesters count, is the model's choice (assumptions 36, 60). The device number is taken while no ring is ACTIVE and rejected, with a count, otherwise. -/
def Obligations.RegisterWritesTakeTheirFields : Prop :=
  (∀ (who : Requester) (addr : BitVec 28) (a i n : Nat) (d : RegDesc) (k : PageKind) (v : DWord) (s : State),
      s.pathFrozen who = false → s.busAddr who addr.toNat = some a → pageOf a = some (k, i) → 0x100 ≤ a % 0x1000 →
      k = .th ∨ k = .fp ∨ k = .rc ∨ k = .win ∨ k = .engc → findDesc k.regs (a % 0x1000) = some (d, n) →
      a % 0x1000 = d.off + n * d.stride → d.satField = none → (∀ f ∈ d.fields, f.acc = .rw ∨ f.acc = .ro) →
      s.mayWrite who (pageBase a) = true → s.wardPowered (a / 0x1000000) = true →
    Gives (.registerWrite who addr d.bytes v) s fun t => t = { s with regs := t.regs } ∧ KeepsRegs s t [a]
      ∧ ∀ f ∈ d.fields, t.fld a f.hi f.lo = if f.acc = .rw then bitsOf v.toNat f.hi f.lo else s.fld a f.hi f.lo)
  ∧ (∀ (f : Func) (addr : BitVec 28) (a width : Nat) (v : DWord) (s : State), s.pathFrozen (.func f) = false →
      s.busAddr (.func f) addr.toNat = some a → (width ≠ 4 ∧ width ≠ 8) ∨ a % width ≠ 0 ∨ pageOf a = none ∨ s.mayWrite (.func f) (pageBase a) = false →
    Gives (.registerWrite (.func f) addr width v) s fun t => Announces s t ∧ Counts s t (Reg.HOST_BAR0_DROPPED f.die) 1
      ∧ KeepsPages s t [pgHOSTF f.die])
  ∧ (∀ (n : Fin 32768) (d : Fin 2) (addr : BitVec 28) (width : Nat) (v : DWord) (s : State), s.pathFrozen (.ring n) = false →
      d.val = s.fld (Reg.RG_ASSIGN (n / 64)) 12 12 →
      (width ≠ 4 ∧ width ≠ 8) ∨ addr.toNat % width ≠ 0 ∨ pageOf addr.toNat = none →
    Gives (.registerWrite (.ring n) addr width v) s fun t => Announces s t ∧ Counts s t (Reg.HOST_BAR0_DROPPED d) 1
      ∧ KeepsPages s t [pgHOSTF d])
  ∧ (∀ (who : Requester) (v : Word) (s : State), MayCommand s who pgID →
    Gives (.modDevnumWrite who v) s fun t => Announces s t
      ∧ (s.anyRingActive = false → t.reg Reg.MOD_DEVNUM = v.toNat % 0x10000 ∧ t.reg Reg.MOD_DEVNUM_LIVE = v.toNat % 0x10000
          ∧ KeepsRegs s t [Reg.MOD_DEVNUM, Reg.MOD_DEVNUM_LIVE])
      ∧ (s.anyRingActive = true → t.reg Reg.MOD_DEVNUM = s.reg Reg.MOD_DEVNUM ∧ t.devnum = s.devnum
          ∧ Counts s t Reg.ID_DEVNUM_REJECT 1))
  ∧ (∀ (who : Requester) (s : State), MayCommand s who pgREP →
    Gives (.repSoftClear who) s fun t => t = { s with softClear := true })

/-- BAR4 (R42, R55, R57, R198, R359, R427, R428). An access of a physical function within its BAR4 to plain memory reads the bytes or
writes them, and a read is answered with them; up to 8 bytes of register space are served as the one access of BAR0. A read of bytes
that are not sound, one that a fenced unit refuses, and a frozen function's are answered Completer Abort. Other memory keeps its bytes.
R57 gives Completer Abort for an unpopulated offset and R198 for a frozen function; for unsound bytes and a refusal it is the model's
choice (assumption 38). -/
def Obligations.Bar4ReachesMemory : Prop :=
  ∀ (f : Func) (off : BitVec 36) (n a : Nat) (bs : List Byte) (s : State), f.idx.val < 3 → 0 < n → bs.length = n →
      a = s.bar4Base f + off.toNat →
    (s.funcFrozen f = false → s.pathFrozen (.func f) = false → PlainAt s a n →
      (s.rangeServes (.func f) a n = true →
        (Gives (.bar4Access f off (.read n)) s fun t => KeepsMem s t ∧ KeepsPages s t [pgSLT]
          ∧ t.out.getLast? = some (if s.uncorrectable a n then .barData f completerAbort [] else .barData f 0 (s.load a n)))
        ∧ (Gives (.bar4Access f off (.write bs)) s fun t => t.load a n = bs ∧ KeepsMemBut s t a n ∧ KeepsPages s t [pgSLT]))
      ∧ (s.rangeServes (.func f) a n = false →
        (Gives (.bar4Access f off (.read n)) s fun t => KeepsMem s t ∧ KeepsPages s t [pgFLT] ∧ Counts s t Reg.FLT_REFUSED 1
          ∧ t.out.getLast? = some (.barData f completerAbort []))
        ∧ (Gives (.bar4Access f off (.write bs)) s fun t => KeepsMem s t ∧ KeepsPages s t [pgFLT]
          ∧ Counts s t Reg.FLT_REFUSED 1)))
    ∧ (s.funcFrozen f = false → s.pathFrozen (.func f) = false → placeOf a = .regs → populated a n = true →
        s.rangeServes (.func f) a n = true → n ≤ 8 →
      (Gives (.bar4Access f off (.read n)) s fun t => ∀ r, r = s.readSpace (.func f) (a - regSpace) n →
        t = { r.1 with out := r.1.out ++ [.barData f 0 r.2] })
      ∧ (Gives (.bar4Access f off (.write bs)) s fun t => t = s.writeSpace (.func f) (a - regSpace) n (leNat bs)))
    ∧ (s.funcFrozen f = true →
      (Gives (.bar4Access f off (.read n)) s fun t => t = { s with out := s.out ++ [.barData f completerAbort []] })
      ∧ (Gives (.bar4Access f off (.write bs)) s fun t => t = s))

/-- Scale slots and census (R104, R105, R112 to R114, R126, R150, R175, R182). A report joins the census of its source and slot; STAGE puts a slot write on the list
or replaces the one staged before in its place; where a pinned slot refuses it (RESULT 3) or the list holds 256 other slots' writes
(RESULT 2) it is counted and the list stays; LOAD stages a loss scale; the table base moves to a place in the bank
SRAM of base die 0 while no ring is ACTIVE; requests to swap add up; clearing a chiplet's skip log empties it. -/
def Obligations.ScaleCommandsStageAndReport : Prop :=
  (∀ (src : CensusSource) (slot : Fin 16384) (r : CensusRep) (s : State), slot ≠ 0 →
    Gives (.censusReport src slot r) s fun t => t = { s with census := t.census, regs := t.regs }
      ∧ KeepsRegs s t [Reg.SC_STEP_NF]
      ∧ Map.find t.census (sourceNum src * 16384 + slot.val) =
          some (match Map.find s.census (sourceNum src * 16384 + slot.val) with
            | some o => CensusRep.merge o r
            | none => CensusRep.capped r)
      ∧ (∀ k, k ≠ sourceNum src * 16384 + slot.val → Map.find t.census k = Map.find s.census k)
      ∧ (r.nonfinite ≠ 0 → s.sourceServes (sourceNum src) = false → bitOf (s.slotCfg slot) 19 = true →
          t.flag Reg.SC_STEP_NF 0 = true))
  ∧ (∀ (who : Requester) (clearHist : Bool) (slot : Nat) (w : Staged) (s : State), MayCommand s who pgSC →
      slot = s.fld Reg.SC_SLOT_SEL 13 0 →
      w = ⟨slot, BitVec.ofNat 32 (s.reg Reg.SC_SLOT_T), BitVec.ofNat 32 (s.reg Reg.SC_SLOT_CFG), clearHist⟩ →
    ((s.pinned slot && pinRefuses w.cfg.toNat) = false → (s.staged.any (fun o => o.slot == slot) || s.staged.length < 256) = true →
      Gives (.scSlotStage who clearHist) s fun t => t = { s with regs := t.regs, staged := t.staged }
        ∧ KeepsRegs s t [Reg.SC_SLOT_CMD] ∧ t.fld Reg.SC_SLOT_CMD 29 28 = 1
        ∧ t.staged = if s.staged.any (fun o => o.slot == slot) then s.staged.map (fun (o : Staged) => if o.slot = slot then w else o)
            else s.staged ++ [w])
    ∧ (s.pinned slot = true → pinRefuses w.cfg.toNat = true →
      Gives (.scSlotStage who clearHist) s fun t => Announces s t ∧ KeepsPages s t [pgSC] ∧ Counts s t Reg.SC_STAGE_PINNED 1
        ∧ t.fld Reg.SC_SLOT_CMD 29 28 = 3)
    ∧ ((s.pinned slot && pinRefuses w.cfg.toNat) = false → s.staged.any (fun o => o.slot == slot) = false → 256 ≤ s.staged.length →
      Gives (.scSlotStage who clearHist) s fun t => Announces s t ∧ KeepsPages s t [pgSC] ∧ Counts s t Reg.SC_STAGE_FULL 1
        ∧ t.fld Reg.SC_SLOT_CMD 29 28 = 2))
  ∧ (∀ (who : Requester) (s : State), MayCommand s who pgSC →
    Gives (.scLsLoad who) s fun t => t = { s with lsStaged := some (BitVec.ofNat 8 (s.fld Reg.SC_LS_SET 7 0)) })
  ∧ (∀ (who : Requester) (v : DWord) (s : State), MayCommand s who pgSC →
    Gives (.scTableBaseWrite who v) s fun t => Announces s t
      ∧ (s.anyRingActive = false → inBank0 (v.toNat / 0x200000 * 0x200000) 0x200000 = true →
          t.reg Reg.SC_TABLE_BASE = v.toNat / 0x200000 * 0x200000 ∧ KeepsRegs s t [Reg.SC_TABLE_BASE])
      ∧ (s.anyRingActive = true → t.reg Reg.SC_TABLE_BASE = s.reg Reg.SC_TABLE_BASE ∧ Counts s t Reg.SC_BASE_REJECT 1))
  ∧ (∀ (who : Requester) (mask : DWord) (s : State), MayCommand s who pgRT →
    Gives (.rtSwapRequest who mask) s fun t => t = { s with regs := t.regs } ∧ KeepsRegs s t [Reg.RT_SWAP_REQ]
      ∧ ∀ c < 64, t.flag Reg.RT_SWAP_REQ c = (s.flag Reg.RT_SWAP_REQ c || mask.getLsbD c))
  ∧ (∀ (who : Requester) (c : Fin 64) (s : State), MayCommand s who (pgSEQ c) →
    Gives (.seqLogClear who c) s fun t => t = { s with regs := t.regs } ∧ t.fld (Reg.SEQ_LOG_CTRL c) 4 0 = 0
      ∧ (∀ n < 16, t.reg (Reg.SEQ_LOG c n) = 0)
      ∧ ∀ a, a ≠ Reg.SEQ_LOG_CTRL c → (∀ n < 16, a ≠ Reg.SEQ_LOG c n) → t.reg a = s.reg a)
  ∧ (∀ (who : Requester) (c : Fin 64) (array : BitVec 6) (s : State), MayCommand s who (pgENG c) →
    Gives (.engRetireRequest who c array) s fun t => t = { s with regs := t.regs, chiplets := t.chiplets }
      ∧ KeepsRegs s t [Reg.ENG_RETIRE c] ∧ t.fld (Reg.ENG_RETIRE c) 5 0 = array.toNat ∧ t.fld (Reg.ENG_RETIRE c) 30 29 = 1
      ∧ t.chip c = { s.chip c with retireReq := some array.toNat } ∧ OtherChips s t c)

/-- Arbitration (R206 to R208). On a free port the request that R207 chooses gets the grant, and every other request raised in
the cycle has one loss more or is urgent; while a grant is in force its owner keeps it and every request loses. A grant ends
when its owner drops its request or has had its beats; a loser whose backoff ends raises its request again. A grant is counted
for its port. R214 gives BURST as 1 to 256, 0 acting as 1; that 257 to 511 act as 256 is the model's choice (assumption 66). -/
def Obligations.ArbitersGrantAndBackOff : Prop :=
  (∀ (die : Fin 4) (arb : Fin 232) (cycle p : Nat) (raises : List PortRaise) (x : Arb) (s : State), s.dieLive die = true →
      x = raises.foldl (fun (y : Arb) r => y.raise r.port cycle r.chan) (s.arb die arb) → x.owner = none → x.choose = some p →
      Map.rising x.ports = true →
    Gives (.arbiterGrant die arb cycle raises) s fun t => KeepsMem s t ∧ KeepsPages s t [pgARB die]
      ∧ (t.arb die arb).owner = some (p, cycle) ∧ (t.arb die arb).last = p ∧ ((t.arb die arb).port p).raised = false
      ∧ ((t.arb die arb).port p).losses = 0
      ∧ t.reg (banked (Reg.ARB_GRANTS die) (arb.val * 64 + p)) =
          min (s.reg (banked (Reg.ARB_GRANTS die) (arb.val * 64 + p)) + 1) (2 ^ (satWidth (Reg.ARB_GRANTS die)).getD 32 - 1)
      ∧ (∀ q ∈ x.raisedPorts, q ≠ p → (x.port q).urgentAt = none →
          ((t.arb die arb).port q).losses = (x.port q).losses + 1)
      ∧ ∀ d a, d < 4 → a < 232 → (d ≠ die.val ∨ a ≠ arb.val) → t.arb d a = s.arb d a)
  ∧ (∀ (die : Fin 4) (arb : Fin 232) (cycle : Nat) (raises : List PortRaise) (x : Arb) (o : Nat × Nat) (s : State),
      s.dieLive die = true → x = raises.foldl (fun (y : Arb) r => y.raise r.port cycle r.chan) (s.arb die arb) →
      x.owner = some o → Map.rising x.ports = true →
    Gives (.arbiterGrant die arb cycle raises) s fun t => t = { s with arbs := t.arbs } ∧ (t.arb die arb).owner = some o
      ∧ ∀ q ∈ x.raisedPorts, (x.port q).urgentAt = none → ((t.arb die arb).port q).losses = (x.port q).losses + 1)
  ∧ (∀ (die : Fin 4) (arb : Fin 232) (cycle p c0 : Nat) (wants : Bool) (s : State), (s.arb die arb).owner = some (p, c0) →
      wants = false ∨ c0 + max 1 (min 256 (s.fld (Reg.ARB_CFG die) 24 16)) ≤ cycle →
    Gives (.burstEnd die arb cycle wants) s fun t => t = { s with arbs := t.arbs } ∧ (t.arb die arb).owner = none
      ∧ (wants = true → ((t.arb die arb).port p).raised = true) ∧ ∀ q, q ≠ p → (t.arb die arb).port q = (s.arb die arb).port q)
  ∧ (∀ (die : Fin 4) (arb : Fin 232) (port : Fin 64) (cycle : Nat) (s : State),
      ((s.arb die arb).port port).backoffAt = some cycle → (s.arb die arb).owner = none →
    Gives (.backoffExpiry die arb port cycle) s fun t => t = { s with arbs := t.arbs }
      ∧ ((t.arb die arb).port port).raised = true ∧ ((t.arb die arb).port port).backoffAt = none
      ∧ ∀ q, q ≠ port.val → (t.arb die arb).port q = (s.arb die arb).port q)

/-- The link layer of an UP link (R248 to R250). A DATA flit is numbered, kept and sent with its CRC; a CONTROL flit returns
the credits owed; the flit expected next is accepted, and one that is not sound or not expected is answered by a NAK, once; an
acknowledgement drops what it covers from the replay buffer; a NAK, and 100 µs without an acknowledgement, resend from the
flit named or the oldest one, and REPLAY_LIMIT resends in a row retrain the link; a CONTROL flit that comes brings credits and
the identity record; codewords that the FEC corrects are counted. The bytes of a CONTROL payload and the zero payload of a
NAK, which no rule lays out, are the model's choice (assumption 35). -/
def Obligations.FlitsAreNumberedAndReplayed : Prop :=
  ∀ (l : Fin 6) (ack : Nat) (s : State), s.linkState l = 2 → s.linkWorks l = true → ack = ((s.link l).rxExp + 4095) % 4096 →
    (∀ payload : List Byte, payload.length = 312 →
      ((s.link l).replay.length < 1024 → Gives (.flitSend l 1 payload) s fun t => t = { s with links := t.links, out := t.out }
        ∧ t.out = s.out ++ [.flit l 1 (s.link l).txSeq ack payload (flitCrc 1 (s.link l).txSeq ack payload)]
        ∧ (t.link l).replay = (s.link l).replay ++ [((s.link l).txSeq, payload)]
        ∧ (t.link l).txSeq = ((s.link l).txSeq + 1) % 4096 ∧ ∀ m, m ≠ l.val → t.link m = s.link m)
      ∧ (1024 ≤ (s.link l).replay.length → Gives (.flitSend l 1 payload) s fun t => t = s)
      ∧ (Gives (.flitSend l 2 payload) s fun t => t = { s with out := t.out }
        ∧ t.out = s.out ++ [.flit l 2 (s.link l).rxExp ack payload (flitCrc 2 (s.link l).rxExp ack payload)])
      ∧ (Gives (.flitSend l 3 payload) s fun t => t = { s with links := t.links, out := t.out, freeCount := t.freeCount }
        ∧ (∃ seq body, body = (List.range 312).map (Config.controlByte (s.link l).returns ⟨BitVec.ofNat 16 s.devnum, false⟩)
            ∧ t.out = s.out ++ [.flit l 3 seq ack body (flitCrc 3 seq ack body)])
        ∧ (t.link l).owed = [] ∧ ∀ m, m ≠ l.val → t.link m = s.link m)
      ∧ (Gives (.flitSend l 0 payload) s fun t => t = { s with out := t.out, freeCount := t.freeCount }
        ∧ ∃ seq, t.out = s.out ++ [.flit l 0 seq ack payload (flitCrc 0 seq ack payload)]))
    ∧ (∀ (f : Flit) (fec : Fec), f.typ = 1 →
        (flitSound f = true → fecGood fec = true → f.seq.toNat = (s.link l).rxExp →
          Gives (.dataFlit l f fec) s fun t => (t.link l).rxExp = ((s.link l).rxExp + 1) % 4096 ∧ (t.link l).nak = false
            ∧ (∀ m, m ≠ l.val → t.link m = s.link m) ∧ KeepsMem s t ∧ KeepsPages s t [pgLINK l]
            ∧ (s.relaying l = true → Counts s t (Reg.TOR_RELAY_FLITS l) 1)
            ∧ (∀ q, fec = .corrected q → Counts s t (Reg.TOR_FEC_CORRECTED l) q)
            ∧ (s.relaying l = false → fec = .clean → t = { s with links := t.links, out := t.out }))
        ∧ ((flitSound f && fecGood fec) = false ∨ f.seq.toNat ≠ (s.link l).rxExp →
          Gives (.dataFlit l f fec) s fun t => (t.link l).rxExp = (s.link l).rxExp ∧ (t.link l).nak = true ∧ KeepsMem s t
            ∧ KeepsPages s t [pgLINK l] ∧ (flitSound f = false → Counts s t (Reg.TOR_CRC_ERR l) 1)
            ∧ (∀ m, m ≠ l.val → t.link m = s.link m)
            ∧ ((s.link l).nak = false → t.out.getLast? = some (.flit l 2 (s.link l).rxExp ack (List.replicate 312 0)
                (flitCrc 2 (s.link l).rxExp ack (List.replicate 312 0))))))
    ∧ (∀ (f : Flit) (fec : Fec) (i : Nat), flitSound f = true → fecGood fec = true → f.typ = 0 →
        ((s.link l).replay.findIdx? fun q => q.1 == f.ack.toNat) = some i →
        Gives (.idleFlit l ⟨f, fec⟩) s fun t => (∀ m, m ≠ l.val → t.link m = s.link m) ∧ KeepsMem s t ∧ KeepsPages s t [pgLINK l]
          ∧ (∃ more, (t.link l).replay = (s.link l).replay.drop (i + 1) ++ more ∧ ((s.link l).outq = [] → more = []))
          ∧ (fec = .clean → t = { s with links := t.links, out := t.out }))
    ∧ (∀ (i seq : Nat) (c : Instr), ((s.link l).replay.findIdx? fun q => q.1 == seq) = some i →
        ((∃ f fec, c = .nakFlit l ⟨f, fec⟩ ∧ f.typ = 2 ∧ flitSound f = true ∧ fecGood fec = true ∧ f.seq.toNat = seq
            ∧ ∀ q ∈ (s.link l).replay, q.1 ≠ f.ack.toNat)
          ∨ (c = .ackTimeout l ∧ i = 0 ∧ (s.link l).ackSince + 100000 ≤ s.now)) →
        Gives c s fun t => (∃ more, (t.link l).replay = (s.link l).replay ++ more ∧ ((s.link l).outq = [] → more = []))
          ∧ KeepsMem s t ∧ KeepsPages s t [pgLINK l]
          ∧ (∃ o r, t.out = o ++ (((s.link l).replay.drop i).map fun q =>
              Output.flit l 1 q.1 ack q.2 (flitCrc 1 q.1 ack q.2)) ++ r)
          ∧ t.linkState l = if (if (s.link l).replayAt = seq then (s.link l).replays + 1 else 1) < s.replayLimit l then 2 else 3)
    ∧ (∀ f : Flit, f.typ = 3 → flitSound f = true → (s.link l).txq = [] →
        Gives (.controlFlit l f 0 0) s fun t =>
          t = { s with links := t.links, regs := t.regs, probeSeen := t.probeSeen, out := t.out }
          ∧ KeepsRegs s t [Reg.TOR_LINK_STATE l] ∧ t.fld (Reg.TOR_LINK_STATE l) 31 16 = (flitIdent f).devnum.toNat
          ∧ t.flag (Reg.TOR_LINK_STATE l) 13 = (flitIdent f).relayed ∧ l.val ∈ t.probeSeen
          ∧ (∀ vc < 8, (t.link l).credit vc = (s.link l).credit vc + Config.controlCredit f.payload vc)
          ∧ (s.relaying l = true →
              t.out.getLast? = some (.ident (if l.val % 2 = 0 then l + 1 else l - 1) { flitIdent f with relayed := true })))

/-- The states of a link (R250, R251, R269): a signal trains a link that is DOWN; a training that locks with 16 sound lanes brings it UP with an
empty link layer and tells the peer the lanes mapped, another one fails it; a retraining does so with what is unacknowledged kept, retrains again, or, at
RETRAIN_LIMIT, fails the link and halts the job; RETRAIN, loss of lock and the commands of the link's page move it as their
names say; a lane over its threshold is marked. -/
def Obligations.LinksTrainAndRetrain : Prop :=
  (∀ (l : Fin 6) (s : State), s.linkWorks l = true → s.linkState l = 0 → (s.link l).tripped = false →
    Gives (.peerSignalDetect l) s fun t => t = { s with regs := t.regs } ∧ KeepsRegs s t [Reg.TOR_LINK_STATE l] ∧ t.linkState l = 1)
  ∧ (∀ (l : Fin 6) (r : Training) (s : State), s.linkWorks l = true → s.linkState l = 1 →
    Gives (.trainComplete l r) s fun t => KeepsMem s t ∧ (∀ m, m ≠ l.val → t.link m = s.link m)
      ∧ t.fld (Reg.TOR_LINK_STATE l) 15 14 = cableCode r.cableMem
      ∧ (s.trains l r = true → t.linkState l = 2 ∧ (t.link l).rxExp = 0 ∧ (t.link l).credits = []
          ∧ (t.link l).owed = (List.range 8).map (fun vc => (vc, Config.vcBuffer l vc))
          ∧ ((s.link l).outq = [] → (t.link l).txSeq = 0 ∧ (t.link l).replay = [])
          ∧ ∃ x y, t.out = s.out ++ x ++ [.lanes l ((s.soundLanes l r).take 16)] ++ y)
      ∧ (s.trains l r = false → t.linkState l = 4 ∧ t.link l = s.link l))
  ∧ (∀ (l : Fin 6) (r : Training) (s : State), s.linkWorks l = true → s.linkState l = 3 →
    Gives (.retrainComplete l r) s fun t => KeepsMem s t
      ∧ t.fld (Reg.TOR_LINK_STATE l) 15 14 = cableCode r.cableMem
      ∧ (s.trains l r = true → t.linkState l = 2 ∧ (t.link l).fails = 0
          ∧ (∃ more, (t.link l).replay = (s.link l).replay ++ more ∧ ((s.link l).outq = [] → (s.link l).txq = [] → more = []))
          ∧ ∃ x y, t.out = s.out ++ x ++ [.lanes l ((s.soundLanes l r).take 16)] ++ y)
      ∧ (s.trains l r = false → (s.link l).fails + 1 < s.retrainLimit l → t.linkState l = 3 ∧ (t.link l).fails = (s.link l).fails + 1
          ∧ Counts s t (Reg.TOR_RETRAINS l) 1)
      ∧ (s.trains l r = false → s.retrainLimit l ≤ (s.link l).fails + 1 → t.linkState l = 4 ∧ t.wp.job = false
          ∧ t.flag Reg.FLT_JOB 31 = true))
  ∧ (∀ (who : Requester) (l : Fin 6) (s : State), MayCommand s who (pgLINK l) →
      (s.linkState l = 2 → Gives (.retrain who l) s fun t => t.linkState l = 3 ∧ Counts s t (Reg.TOR_RETRAINS l) 1
        ∧ KeepsPages s t [pgLINK l] ∧ KeepsMem s t)
      ∧ (s.linkState l = 4 → Gives (.retrain who l) s fun t => t.linkState l = 1 ∧ t = { s with regs := t.regs }
        ∧ KeepsRegs s t [Reg.TOR_LINK_STATE l])
      ∧ (Gives (.linkDisable who l) s fun t => t.linkState l = 5 ∧ t.flag (Reg.TOR_LINK_CTRL l) 30 = true
        ∧ t = { s with regs := t.regs } ∧ KeepsRegs s t [Reg.TOR_LINK_STATE l, Reg.TOR_LINK_CTRL l])
      ∧ (Gives (.linkEnable who l) s fun t => t.linkState l = (if s.linkState l = 5 then 0 else s.linkState l)
        ∧ t.flag (Reg.TOR_LINK_CTRL l) 30 = false ∧ t = { s with regs := t.regs }
        ∧ KeepsRegs s t [Reg.TOR_LINK_STATE l, Reg.TOR_LINK_CTRL l]))
  ∧ (∀ (l : Fin 6) (s : State), s.linkWorks l = true → s.linkState l = 2 →
      (∀ lane, Gives (.laneLockLoss l lane) s fun t => t.linkState l = 3 ∧ Counts s t (Reg.TOR_RETRAINS l) 1
        ∧ KeepsPages s t [pgLINK l] ∧ KeepsMem s t)
      ∧ ∀ symbols : List Nat,
        Gives (.laneMarginCheck l symbols) s fun t => t = { s with regs := t.regs } ∧ KeepsRegs s t [Reg.TOR_LINK_LANES l]
          ∧ ∀ i < 17, t.flag (Reg.TOR_LINK_LANES l) i = (s.flag (Reg.TOR_LINK_LANES l) i
              || decide (s.reg (Reg.TOR_LANE_THRESH l) < (symbols[i]?).getD 0)))

/-- Cables, relay and probes (R264, R265, R267, R355, R374, R406). CBL_PWR is on only while a cable is present and the limiter
has not tripped; a trip takes the link DOWN. The pairs of dies of the axes written, those whose base die is fenced (R48), and
all three after 1 ms without heartbeat, relay; a pair that enters relay drops the module's own packets that no flit has
carried yet. A probe asks for identity records on every UP link and its result marks every link that is not UP or whose record
is not that of its logical neighbour. The links of an axis of extent 1 have no logical neighbour and are left out of the
result: the model's choice (assumption 48). -/
def Obligations.CablesRelayAndProbes : Prop :=
  (∀ (l : Fin 6) (present : Bool) (s : State),
    Gives (.cablePresence l present) s fun t => t = { s with links := t.links } ∧ (t.link l).present = present
      ∧ (t.link l).tripped = ((s.link l).tripped && present)
      ∧ (t.link l).cablePower = (present && s.wardPowered 6 && !(s.link l).tripped) ∧ ∀ m, m ≠ l.val → t.link m = s.link m)
  ∧ (∀ (l : Fin 6) (s : State), (s.link l).cablePower = true →
    Gives (.cblPwrTrip l) s fun t => t = { s with links := t.links, regs := t.regs } ∧ KeepsRegs s t [Reg.TOR_LINK_STATE l]
      ∧ t.linkState l = 0 ∧ (t.link l).cablePower = false ∧ (t.link l).tripped = true)
  ∧ (∀ (who : Requester) (v : Word) (s : State), MayCommand s who pgPOD →
    Gives (.relayWrite who v) s fun t => KeepsMem s t ∧ t.fld Reg.TOR_RELAY 2 0 = v.toNat % 8
      ∧ t.flag Reg.TOR_RELAY 8 = v.getLsbD 8 ∧ t.flag Reg.TOR_RELAY 9 = false
      ∧ (∀ a < 3, t.relaying (2 * a) = (v.getLsbD a || s.relayForced a))
      ∧ ∀ a < 3, ∀ l, l = 2 * a ∨ l = 2 * a + 1 → s.relaying (2 * a) = false → t.relaying (2 * a) = true →
          t.flag (Reg.TOR_LINK_STATE l) 4 = true ∧ (t.link l).replay = (s.link l).replay
            ∧ (t.link l).txq = (s.link l).txq.filter (fun q => decide (q.1.src.toNat ≠ s.devnum))
            ∧ (t.link l).outq = (s.link l).outq.filter fun r => !r.own || r.begun)
  ∧ (∀ s : State, s.flag Reg.TOR_RELAY 8 = true → s.flag Reg.TOR_RELAY 9 = false → s.wardPowered 6 = true →
      s.heartbeatWatched = true →
    Gives .autoRelay s fun t => KeepsMem s t ∧ t.flag Reg.TOR_RELAY 9 = true ∧ ∀ a < 3, t.relaying (2 * a) = true)
  ∧ (∀ (who : Requester) (s : State), MayCommand s who pgPOD →
    Gives (.torProbe who) s fun t => t = { s with regs := t.regs, out := t.out, probeSeen := t.probeSeen }
      ∧ KeepsRegs s t [Reg.TOR_PROBE] ∧ t.fld Reg.TOR_PROBE 30 29 = 1 ∧ t.probeSeen = []
      ∧ t.out = s.out ++ ((List.range 6).filter fun l => decide (s.linkState l = 2)).map fun l =>
          .ident l ⟨BitVec.ofNat 16 s.devnum, false⟩)
  ∧ (∀ s : State, s.fld Reg.TOR_PROBE 30 29 = 1 →
      (∀ l < 6, 1 < s.extent (l / 2) → s.linkState l = 2 → l ∈ s.probeSeen) →
    Gives .probeResult s fun t => Announces s t
      ∧ (t.fld Reg.TOR_PROBE 30 29 = 2 ↔ ∀ l < 6, 1 < s.extent (l / 2) →
          s.linkState l = 2 ∧ s.fld (Reg.TOR_LINK_STATE l) 31 16 = s.neighbour l)
      ∧ (t.fld Reg.TOR_PROBE 30 29 = 2 ∨ t.fld Reg.TOR_PROBE 30 29 = 3)
      ∧ ∀ l < 6, (t.flag Reg.TOR_PROBE l = true ↔ 1 < s.extent (l / 2) ∧
          (s.linkState l ≠ 2 ∨ s.fld (Reg.TOR_LINK_STATE l) 31 16 ≠ s.neighbour l)))

/-- Packets and the pod's registers (R249, R254 to R257, R264, R270, R429). A packet that has passed its destination is
counted as misrouted, one for this module acts here, any other leaves by the link that dimension order gives, and on a
relaying die by the opposite one, in DATA flits and against a credit for each packet of up to 256 bytes; a relaying die
discards and counts what is for its own module, and what would turn to its axis; a message of a peer with another slice fails
the entry here, and an answer without data takes this to the peer (the model's form of R257: assumption 45); the buffers of
packets that are done with are owed to the peer. TOR_GEOM, TOR_SLICE and TOR_COLL_BASE take what is written while no ring is
ACTIVE; while one is, the write is dropped and counted. While a DEFICIT bit is set a write of TOR_SLICE with VALID is ignored:
R64 has the module refuse to enter a job slice, and this form of it is the model's choice (assumption 57). -/
def Obligations.PacketsAreRoutedAndSlicesSet : Prop :=
  (∀ (l : Fin 6) (p : TorusPacket) (s : State), s.linkState l = 2 → s.linkWorks l = true →
      (s.relaying l = true → p.dest.toNat = s.devnum → Gives (.torusPacketArrive l p) s fun t => KeepsMem s t
        ∧ Counts s t (Reg.TOR_RELAY_DISCARD l) (packetCount p) ∧ KeepsPages s t [pgLINK l]
        ∧ Owes s t l (packetVc p (l.val / 2)) (packetCount p))
      ∧ (s.relaying l = false → p.dest.toNat ≠ s.devnum → s.beyond p (l.val / 2) = true →
        Gives (.torusPacketArrive l p) s fun t => KeepsMem s t ∧ Counts s t (Reg.TOR_MISROUTE l) (packetCount p)
          ∧ KeepsPages s t [pgLINK l] ∧ Owes s t l (packetVc p (l.val / 2)) (packetCount p))
      ∧ (∀ (e : Fin 1024), s.relaying l = false → p.dest.toNat = s.devnum → s.collAlive = true → p.msg = .barrier e →
        s.collInUse e = true → (s.coll e).failed = false → (s.coll e).done = false → s.samePeer p = true →
        Gives (.torusPacketArrive l p) s fun t => t = { s with colls := t.colls, links := t.links }
          ∧ (t.coll e).barrier = (s.coll e).barrier ++ [p.src.toNat] ∧ Owes s t l (packetVc p (l.val / 2)) 1)
      ∧ (∀ (e : Fin 1024), s.relaying l = false → p.dest.toNat = s.devnum → s.collAlive = true → p.msg = .barrier e →
        s.collInUse e = true → (s.coll e).failed = false → s.samePeer p = false →
        Gives (.torusPacketArrive l p) s fun t => (t.coll e).failed = true ∧ t.flag Reg.FLT_JOB 31 = true
          ∧ (p.chan ≠ .request → Owes s t l (packetVc p (l.val / 2)) 1)
          ∧ ∀ a k, p.chan = .request → nextAxis s.ownIndex (p.src.toNat % 1024) = some a →
              k = 2 * a + boolNat (s.direction a (coordOf s.ownIndex a) (coordOf (p.src.toNat % 1024) a)) → s.relaying k = false →
              LinkReady s k 1 →
              ∃ q x, t.out = x ++ [.packet k q] ∧ q.msg = .fetchData e [] ∧ q.dest = p.src ∧ q.chan = .response
                ∧ q.slice = BitVec.ofNat 32 (s.reg Reg.TOR_SLICE))
      ∧ (∀ a, s.relaying l = false → p.dest.toNat ≠ s.devnum → s.beyond p (l.val / 2) = false →
        nextAxis s.ownIndex (p.dest.toNat % 1024) = some a → s.relaying (2 * a + boolNat (p.dir.getLsbD a)) = true →
        Gives (.torusPacketArrive l p) s fun t => KeepsMem s t
          ∧ Counts s t (Reg.TOR_RELAY_DISCARD (2 * a + boolNat (p.dir.getLsbD a))) (packetCount p)
          ∧ KeepsPages s t [pgLINK (2 * a + boolNat (p.dir.getLsbD a))] ∧ Owes s t l (packetVc p (l.val / 2)) (packetCount p))
      ∧ ∀ a k, (s.relaying l = true ∧ p.src.toNat ≠ s.devnum ∧ k = oppositeLink l ∧ a = l.val / 2)
          ∨ (s.relaying l = false ∧ s.beyond p (l.val / 2) = false ∧ nextAxis s.ownIndex (p.dest.toNat % 1024) = some a
            ∧ k = 2 * a + boolNat (p.dir.getLsbD a) ∧ s.relaying k = false) →
        p.dest.toNat ≠ s.devnum → LinkReady s k (packetCount p) →
        Gives (.torusPacketArrive l p) s fun t => t = { s with links := t.links, out := t.out }
          ∧ Owes s t l (packetVc p (l.val / 2)) (packetCount p)
          ∧ ∃ q x, t.out = s.out ++ x ++ [.packet k q] ∧ q.msg = p.msg ∧ q.src = p.src ∧ q.dest = p.dest ∧ q.dir = p.dir
            ∧ (∀ o ∈ x, ∃ seq ack body crc, o = .flit k 1 seq ack body crc) ∧ x ≠ []
            ∧ (t.link k).credit (packetVc q a) + packetCount p = (s.link k).credit (packetVc q a)
            ∧ (s.relaying l = true → q = p))
  ∧ (∀ (who : Requester) (s : State), MayCommand s who pgPOD →
      (∀ v : Word, (Gives (.torSliceWrite who true v) s fun t => Announces s t
          ∧ (s.anyRingActive = false → t.reg Reg.TOR_GEOM = v.toNat &&& 0xF77 ∧ KeepsRegs s t [Reg.TOR_GEOM])
          ∧ (s.anyRingActive = true → Counts s t Reg.TOR_SLICE_VIOL 1 ∧ t.reg Reg.TOR_GEOM = s.reg Reg.TOR_GEOM))
        ∧ (Gives (.torSliceWrite who false v) s fun t => Announces s t
          ∧ (s.anyRingActive = false → s.fld Reg.REP_STATUS 3 0 = 0 ∨ v.getLsbD 31 = false →
              t.reg Reg.TOR_SLICE = v.toNat &&& 0x8F770F77 ∧ KeepsRegs s t [Reg.TOR_SLICE])
          ∧ (s.anyRingActive = false → s.fld Reg.REP_STATUS 3 0 ≠ 0 → v.getLsbD 31 = true → t = s)
          ∧ (s.anyRingActive = true → Counts s t Reg.TOR_SLICE_VIOL 1 ∧ t.reg Reg.TOR_SLICE = s.reg Reg.TOR_SLICE)))
      ∧ ∀ v : DWord, Gives (.torCollBaseWrite who v) s fun t => Announces s t
          ∧ (s.anyRingActive = false → inBank0 (v.toNat / 65536 * 65536) (64 * collCount v.toNat) = true →
              t.reg Reg.TOR_COLL_BASE = v.toNat / 65536 * 65536 + v.toNat % 2048 ∧ KeepsRegs s t [Reg.TOR_COLL_BASE])
          ∧ (s.anyRingActive = true → Counts s t Reg.TOR_SLICE_VIOL 1 ∧ t.reg Reg.TOR_COLL_BASE = s.reg Reg.TOR_COLL_BASE))

/-- Collectives start (R168, R257, R259 to R262). An idle entry in use whose gate is open, in a valid slice, starts now: a reduction once a tile of it is
present; a FETCH of this module's own data is held here; the root of a broadcast writes its data at DST; the word of a
FLAG_OR over lines of one member is written at DST; a PERMUTE without extents has sent all it sends. A chain end that reaches
the unit, behind every earlier one of its chiplet (R44), lands in the injection buffer, and a void is recorded without a write. -/
def Obligations.CollectivesStart : Prop :=
  (∀ (i e k : Nat) (j : Inject) (s : State), s.injects[i]? = some j → s.collWorks = true → e = j.slot / 2 ^ 32 →
      k = j.slot % 2 ^ 32 → s.collInUse e = true → (∀ p ∈ (s.coll e).present, p.1 ≠ k) →
    ((∃ v ∈ s.injects.take i, v.chiplet = j.chiplet) → Gives (.injection i) s fun t => t = s)
    ∧ ((∀ v ∈ s.injects.take i, v.chiplet ≠ j.chiplet) → (j.data = none → Gives (.injection i) s fun t => t = { s with injects := s.injects.eraseIdx i, colls := t.colls }
      ∧ (t.coll e).present = (s.coll e).present ++ [(k, true)])
      ∧ ∀ l, j.data = some l → l.length = 1024 → MayColl s (collSrc (s.collBytes e) + 4096 * k) 4096 true →
      Gives (.injection i) s fun t => t.injects = s.injects.eraseIdx i
        ∧ (t.coll e).present = (s.coll e).present ++ [(k, false)]
        ∧ t.load (collSrc (s.collBytes e) + 4096 * k) 4096 = laneBytes l
        ∧ KeepsMemBut s t (collSrc (s.collBytes e) + 4096 * k) 4096))
  ∧ (∀ (e : Fin 1024) (b : List Byte) (s : State), b = s.collBytes e → s.collWorks = true → s.collInUse e = true →
      s.serving .coll = true → (s.coll e).idle = true → s.inSlice s.devnum = true →
    (collOp b = 1 → (s.coll e).present ≠ [] ∨ (s.coll e).recv ≠ [] → 0 < collTiles b → fieldAt b 0x0C 1 ≤ 1 →
      Gives (.reduceScatter e) s fun t => t = { s with colls := t.colls } ∧ (t.coll e).started = some s.now
        ∧ (t.coll e).present = (s.coll e).present)
    ∧ (s.collGate b = true →
      (collOp b = 2 → collRemote b / 2 ^ 48 = s.devnum → s.windowOk s.collSet (collRemote b) (4096 * collTiles b) false = true →
        Gives (.fetch e) s fun t => t = { s with colls := t.colls, fetches := t.fetches } ∧ (t.coll e).started = some s.now
          ∧ t.fetches = s.fetches ++ [⟨e, s.devnum, collRemote b % 2 ^ 48, collTiles b, collCtr b 0x0E, fieldAt b 0x28 4, s.now⟩])
      ∧ (collOp b = 2 → collRemote b / 2 ^ 48 ≠ s.devnum → s.inSlice (collRemote b / 2 ^ 48) = true →
        s.windowOk s.collSet (collRemote b) (4096 * collTiles b) false = true →
        Gives (.fetch e) s fun t => (t.coll e).started = some s.now ∧ t.fetches = s.fetches ∧ KeepsMem s t)
      ∧ (collOp b = 3 → collRemote b % 65536 = s.devnum → 0 < collTiles b → MayColl s (collSrc b) (4096 * collTiles b) false →
        MayColl s (collDst b) (4096 * collTiles b) true →
        Gives (.broadcast e) s fun t => (t.coll e).done = true
          ∧ t.load (collDst b) (4096 * collTiles b) = s.load (collSrc b) (4096 * collTiles b)
          ∧ KeepsMemBut s t (collDst b) (4096 * collTiles b))
      ∧ (collOp b = 4 → (∀ a ∈ collAxes b, s.lineLen b a = 1) → MayColl s (collSrc b) 8 false → MayColl s (collDst b) 8 true →
        Gives (.flagOr e) s fun t => (t.coll e).done = true ∧ t.load (collDst b) 8 = s.load (collSrc b) 8
          ∧ KeepsMemBut s t (collDst b) 8)
      ∧ (collOp b = 5 → collTiles b = 0 →
        Gives (.permute e) s fun t => (t.coll e).started = some s.now ∧ (t.coll e).sent = true ∧ KeepsMem s t)))

/-- Collectives go on (R168, R259 to R263). A tile whose parts are all here is dealt with once: its sum goes on along the
line, or is written at DST, or to an accumulation region for DKIND 1, when this member keeps its shard at the last stage, a
void one nowhere in memory; the entry's last signal is sent behind the region writes it has still to hear of (R45); a FETCH
held for this module is served once its gate is open, and its entry is done; a PERMUTE that every member has ended copies what
was received and is idle; an entry that has waited for TOR_COLL_TIMEOUT fails, is recorded, and halts the job. That a void
tile that is kept counts in TOR_VOID_FWD is the model's reading (assumption 46); that TOR_COLL_TIMEOUT acts as held to 1 to
60,000, the range R270 gives, is its choice (assumption 66). -/
def Obligations.CollectivesFinish : Prop :=
  (∀ (e : Fin 1024) (axis : Fin 3) (shard n : Nat) (b : List Byte) (own v : Option (List Word)) (nx : TileNext) (s : State),
      b = s.collBytes e → s.collWorks = true → s.collInUse e = true → collOp b = 1 → (s.coll e).open_ = true →
      axis.val ∈ collAxes b → s.holdsShard b shard axis = true → n < collTiles b → (axis.val, shard, n) ∉ (s.coll e).tasks →
      (s.ownTile e b axis shard n).2 = some own →
      tileSum (collOver b axis && s.spansAxis axis) (s.lineLen b axis) (s.shardCoord b shard axis) (s.linePos b axis) n own
        ((s.coll e).received axis shard n false) ((s.coll e).received axis shard n true) = some (v, nx) →
    (∀ pos minus high, nx = .on pos minus high → Gives (.collectiveTile e axis shard n) s fun t => KeepsMem s t
      ∧ (t.coll e).tasks = (s.coll e).tasks ++ [(axis.val, shard, n)])
    ∧ (nx = .stay → (collAxes b).getLast? = some axis.val → shard = s.ownShard →
      (∀ w, fieldAt b 0x0C 1 = 0 → v = some w → w.length = 1024 → MayColl s (collDst b + 4096 * n) 4096 true →
        Gives (.collectiveTile e axis shard n) s fun t => t.load (collDst b + 4096 * n) 4096 = laneBytes w
          ∧ KeepsMemBut s t (collDst b + 4096 * n) 4096 ∧ (t.coll e).tasks = (s.coll e).tasks ++ [(axis.val, shard, n)])
      ∧ (fieldAt b 0x0C 1 = 0 → v = none →
        Gives (.collectiveTile e axis shard n) s fun t => KeepsMem s t ∧ Counts s t Reg.TOR_VOID_FWD 1
          ∧ (t.coll e).tasks = (s.coll e).tasks ++ [(axis.val, shard, n)])
      ∧ ∀ r, r = fieldAt b 0x0D 1 → fieldAt b 0x0C 1 = 1 →
        s.windowOk s.collSet (s.globalOf (s.blockAt (r / 32 % 4) (r % 32) (collDst b + n))) 4096 true = true →
        Gives (.collectiveTile e axis shard n) s fun t => KeepsMem s t
          ∧ t.accNet = s.accNet ++ [⟨r / 32 % 4, r % 32, collDst b + n, s.reg Reg.WPC_WAYPOINT % 2 ^ 48, fieldAt b 6 2, v, .coll, 0, 0⟩]
          ∧ (t.coll e).tasks = (s.coll e).tasks ++ [(axis.val, shard, n)]
          ∧ (s.collTasks b ≤ (s.coll e).tasks.length + 1 → (t.coll e).done = true
              ∧ t.sigNet = s.sigNet ++ [⟨collCtr b 2, .add (fieldAt b 4 2), none, t.accNet.filter fun w => w.writer == .coll⟩])))
  ∧ (∀ (i : Nat) (h : HeldFetch) (s : State), s.fetches[i]? = some h → s.collWorks = true →
      h.value ≤ (s.sig h.gate).toNat → h.dev ≠ s.devnum → (h.tiles ≠ 0 → MayColl s h.src (4096 * h.tiles) false) →
    Gives (.fetchServe i) s fun t => t.fetches = s.fetches.eraseIdx i ∧ KeepsMem s t ∧ t.colls = s.colls
      ∧ t.reg (pgPOD + Hdr.PROGRESS) = (s.reg (pgPOD + Hdr.PROGRESS) + h.tiles) % 2 ^ 32)
  ∧ (∀ (i : Nat) (h : HeldFetch) (b : List Byte) (s : State), s.fetches[i]? = some h → s.collWorks = true →
      h.value ≤ (s.sig h.gate).toNat → h.dev = s.devnum → b = s.collBytes h.entry → collOp b = 2 →
      (s.coll h.entry).open_ = true → h.tiles = collTiles b → 0 < h.tiles → MayColl s h.src (4096 * h.tiles) false →
      MayColl s (collDst b) (4096 * h.tiles) true →
    Gives (.fetchServe i) s fun t => t.fetches = s.fetches.eraseIdx i ∧ (t.coll h.entry).done = true
      ∧ t.load (collDst b) (4096 * h.tiles) = s.load h.src (4096 * h.tiles) ∧ KeepsMemBut s t (collDst b) (4096 * h.tiles))
  ∧ (∀ (e : Fin 1024) (b : List Byte) (stage dst len : Nat) (s : State), b = s.collBytes e → s.collWorks = true →
      s.collInUse e = true → collOp b = 5 → (s.coll e).open_ = true → (s.coll e).sent = true →
      (∀ d ∈ s.otherMembers, d ∈ (s.coll e).barrier) → (s.coll e).receipts = [(stage, dst, len)] → 0 < len →
      MayColl s (collRemote b + stage) len false → MayColl s dst len true →
    Gives (.permuteCopyPhase e) s fun t => t.coll e = {} ∧ t.load dst len = s.load (collRemote b + stage) len
      ∧ KeepsMemBut s t dst len)
  ∧ (∀ (e : Fin 1024) (t0 : Nat) (s : State), s.wardPowered 6 = true → (s.coll e).open_ = true →
      (s.coll e).started = some t0 → t0 + min 60000 (max 1 (s.reg Reg.TOR_COLL_TIMEOUT)) * 1000000 ≤ s.now →
    Gives (.collectiveTimeout e) s fun t => (t.coll e).failed = true ∧ Counts s t Reg.TOR_COLL_FAIL 1
      ∧ t.flag (pgPOD + Hdr.EVT_STATUS) 8 = true ∧ t.wp.job = false ∧ t.flag Reg.FLT_JOB 31 = true ∧ KeepsMem s t
      ∧ (s.flag Reg.TOR_COLL_STATUS 31 = false → t.flag Reg.TOR_COLL_STATUS 31 = true ∧ t.fld Reg.TOR_COLL_STATUS 30 28 = 1
          ∧ t.fld Reg.TOR_COLL_STATUS 9 0 = e.val))

/-- Packets of a partner (R291). One that passes the receive checks lets the partner be heard, and UP (R296); a PROBE is
answered with its TIME, a PROBE_REPLY does no more; a FEEDBACK gives a round-trip time (R299); a NACK queues the packets to
re-send, lowest index first, or is counted when the stream is gone (R293); a SNAP_REQ waits when the anchor copy fits and is
ignored where not (R309); a data or parity packet joins its group, which K′ packets recover, one that is there already is
counted as a duplicate, and one that finds RXQ full during a handoff is an erasure (R304). A frame with a bad check sequence
is only counted (R312). Memory keeps every byte. The payload fields of control frames in network byte order, and answers that
leave by the partner's own port, are the model's reading (assumption 49). -/
def Obligations.PacketsOfAPartnerAct : Prop :=
  (∀ (p : Fin 2) (f : Frame) (s : State), f.badFcs = true → s.portWorks p = true →
    ∀ c ∈ [(Instr.dataPacket p f, 1), (.parityPacket p f, 2), (.nack p f, 3), (.feedback p f, 4), (.probe p f, 5),
        (.probeReply p f, 6), (.snapReq p f, 7)], f.typ.toNat = c.2 →
      Gives c.1 s fun t => Announces s t ∧ KeepsPages s t [pgFP p] ∧ Counts s t (Reg.FP_RX_FCS p) 1)
  ∧ ∀ (p : Fin 2) (q : Nat) (f : Frame) (d : List Byte) (s : State),
    d = frameText (s.keySlot (s.epochSlot p f.epoch.toNat)).key f →
    (FrameTaken s p f 6 q → Gives (.probeReply p f) s fun t => (t.partner q).heard = s.now ∧ t.ptrState q = 1 ∧ KeepsMem s t
      ∧ ∀ r, r ≠ q → t.partner r = s.partner r)
    ∧ (FrameTaken s p f 5 q → Gives (.probe p f) s fun t => (t.partner q).heard = s.now ∧ t.ptrState q = 1 ∧ KeepsMem s t
      ∧ Queued s t q (blankFrame 6 (beBytes 4 f.time.toNat ++ List.replicate 12 0)) ∧ ∀ r, r ≠ q → t.partner r = s.partner r)
    ∧ (FrameTaken s p f 4 q → 16 ≤ d.length → Gives (.feedback p f) s fun t => (t.partner q).heard = s.now ∧ KeepsMem s t
      ∧ t.fld (ptrStatus q) 31 16 = min 0xFFFF ((s.now / 1000 + 2 ^ 32 - payloadField d 0 4) % 2 ^ 32 / 10)
      ∧ (s.now, (s.now / 1000 + 2 ^ 32 - payloadField d 0 4) % 2 ^ 32) ∈ (t.partner q).rtts
      ∧ ∀ r, r ≠ q → t.partner r = s.partner r)
    ∧ (∀ (n a k : Nat), FrameTaken s p f 3 q → 32 ≤ d.length → n = payloadField d 0 2 →
        (a, k) = groupSpan (s.txFrames n) (payloadField d 4 4) →
      Gives (.nack p f) s fun t => (t.partner q).heard = s.now ∧ KeepsMem s t
        ∧ (s.txFrames n = [] → Counts s t Reg.XCH_NACK_GONE 1 ∧ (t.partner q).resend = (s.partner q).resend)
        ∧ (∀ g, (s.txFrames n)[a]? = some g → (t.partner q).resend = (s.partner q).resend
            ++ (((List.range k).filter fun i => !bitOf (payloadField d 8 16) i).take
              (g.k.toNat - ((List.range k).filter fun i => bitOf (payloadField d 8 16) i).length)).map fun i => (n, a + i))
        ∧ ((s.txFrames n)[a]? = none → (t.partner q).resend = (s.partner q).resend)
        ∧ ∀ r, r ≠ q → t.partner r = s.partner r)
    ∧ (FrameTaken s p f 7 q → Gives (.snapReq p f) s fun t => (t.partner q).heard = s.now ∧ KeepsMem s t
      ∧ (s.anchorCopyFits = true → (t.partner q).snapReq = true)
      ∧ (s.anchorCopyFits = false → (t.partner q).snapReq = (s.partner q).snapReq) ∧ ∀ r, r ≠ q → t.partner r = s.partner r)
    ∧ (∀ (c : Instr) (x : RxStream) (g : RxGroup),
      ((c = .dataPacket p f ∧ FrameTaken s p f 1 q) ∨ (c = .parityPacket p f ∧ FrameTaken s p f 2 q)) →
      packetSane f = true → (f.snap = false ∨ s.wantsSnapshot q f.stream.toNat = true) →
      s.rx.find? (fun x => x.takes q f) = some x →
      g = (Map.find x.grp f.group.toNat).getD { k := f.k.toNat, m := f.m.toNat } → g.lost = false → g.k = f.k.toNat →
      Gives c s fun t => (t.partner q).heard = s.now ∧ KeepsMem s t ∧ (s.rxqFull = true → t.rx = s.rx)
        ∧ (s.rxqFull = false → f.index.toNat ∈ g.got → Counts s t Reg.XCH_DUP 1 ∧ t.rx = s.rx)
        ∧ (s.rxqFull = false → f.index.toNat ∉ g.got → g.data.isSome = true → Counts s t (Reg.FP_RX_DISCARD p) 1 ∧ t.rx = s.rx)
        ∧ (s.rxqFull = false → f.index.toNat ∉ g.got → g.data = none →
            ∃ y ∈ t.rx, y.takes q f = true ∧ y.count = x.count + 1 ∧ ∃ h, Map.find y.grp f.group.toNat = some h
              ∧ (g.held.length + 1 < g.k →
                  h = { g with held := g.held ++ [(f.index.toNat, d)], got := g.got ++ [f.index.toNat] })
              ∧ (g.k ≤ g.held.length + 1 → h.held = []
                  ∧ h.data = some (recoverGroup g.k (g.held ++ [(f.index.toNat, d)])).flatten)))

/-- Pacing and partners. A partner's pacer sends, in its turn on the port, a packet it is to send again (R293) or else the next
packet of its stream or of the first one formed that it is still to be sent, once that is wholly encrypted (R272), and waits for its
bits at the rate (R298, R299), the port's line being taken for 20 bytes more a frame (R5); once per base interval the
rate is set by R299; DOWN_MS of silence take a partner DOWN (R296); VALID makes a partner afresh, DOWN, with a PROBE on its way
(R297); each PROBE_MS brings another; a stream that all its partners have been sent leaves the re-send buffer after HOLD_S
(R294); a formed stream is coded once for all its partners and queued to them (R295, R324), or finds no room and goes. -/
def Obligations.PacersAndPartners : Prop :=
  (∀ (p : Fin 256) (n i : Nat) (f : Frame) (s : State), s.ptrUp p = true → s.portRuns (s.ptrPort p) = true →
      (s.partner p).nextSend ≤ s.now → (s.cipher (s.ptrPort p)).lineFree ≤ s.now * 1000 → s.portTurn p = true →
      (s.txFrames n)[i]? = some f → s.isCoded n = true → s.mayTransmit (s.ptrPort p) f = true → 0 < (s.partner p).rate →
    (∀ l, (s.partner p).resend = (n, i) :: l → Gives (.pacerSend p) s fun t =>
      (∃ x y, t.out = s.out ++ x ++ [.frame (s.ptrPort p) f] ++ y) ∧ KeepsMem s t ∧ (t.partner p).resend = l
        ∧ (t.cipher (s.ptrPort p)).lineFree = max (s.cipher (s.ptrPort p)).lineFree (s.now * 1000)
            + (s.frameBits (s.ptrPort p) f + 160) * 1000 / 1600
        ∧ Counts s t (Reg.FP_RESENT (s.ptrPort p)) 1 ∧ (t.partner p).cur = (s.partner p).cur
        ∧ (t.partner p).nextSend = s.now + s.frameBits (s.ptrPort p) f * 1000000000 / (s.partner p).rate
        ∧ ∀ r, r ≠ p.val → t.partner r = s.partner r)
    ∧ ((s.partner p).resend = [] →
        ((s.partner p).cur = some (n, i) ∨ ((s.partner p).cur = none ∧ s.startable p = some n ∧ i = 0)) →
      Gives (.pacerSend p) s fun t => t.out.getLast? = some (.frame (s.ptrPort p) f) ∧ KeepsMem s t
        ∧ (t.partner p).nextSend = s.now + s.frameBits (s.ptrPort p) f * 1000000000 / (s.partner p).rate
        ∧ (t.partner p).cur = (if i + 1 < (s.txFrames n).length then some (n, i + 1) else none)
        ∧ (t.cipher (s.ptrPort p)).lineFree = max (s.cipher (s.ptrPort p)).lineFree (s.now * 1000)
            + (s.frameBits (s.ptrPort p) f + 160) * 1000 / 1600
        ∧ (t.cipher (s.ptrPort p)).lastServed = p.val ∧ ∀ r, r ≠ p.val → t.partner r = s.partner r))
  ∧ (∀ (p n : Nat) (s : State), s.startable p = some n → ∃ l x r, s.tx = l ++ x :: r ∧ x.num = n ∧ x.ready = true
      ∧ p ∈ x.targets ∧ p ∉ x.sent ∧ ∀ y ∈ l, p ∈ y.targets → p ∉ y.sent → s.mayStart (s.ptrPort p) y.frames = false)
  ∧ (∀ (p : Fin 256) (b q : Nat) (s : State), s.ptrUp p = true → (s.partner p).base s.now = some b → (s.partner p).qmin = some q →
      (s.partner p).interval + b * 1000 ≤ s.now →
    Gives (.pacerRateUpdate p) s fun t => t = { s with regs := t.regs, partners := t.partners } ∧ KeepsRegs s t [ptrStatus p]
      ∧ (t.partner p).rate = s.nextRate p q ∧ (t.partner p).interval = s.now ∧ (t.partner p).qmin = none
      ∧ t.fld (ptrStatus p) 15 0 = min 0xFFFF (s.nextRate p q / 10000000) ∧ ∀ r, r ≠ p.val → t.partner r = s.partner r)
  ∧ (∀ (p : Fin 256) (s : State), s.ptrUp p = true → (s.partner p).heard + s.downTime ≤ s.now → s.wardPowered 7 = true →
    Gives (.partnerDown p) s fun t => t.ptrState p = 2 ∧ t.ptrUp p = false ∧ (t.partner p).cur = none
      ∧ (t.partner p).resend = [] ∧ Counts s t Reg.XCH_PARTNER_DOWN 1 ∧ KeepsMem s t ∧ KeepsPages s t [pgXCH]
      ∧ ∀ r, r ≠ p.val → t.partner r = s.partner r)
  ∧ (∀ (who : Requester) (p : Fin 256) (s : State), MayCommand s who pgXCH → s.ptrValid p = false →
    Gives (.partnerValid who p) s fun t => t.ptrValid p = true ∧ t.ptrState p = 2 ∧ (t.partner p).queue = []
      ∧ (t.partner p).rate = s.rateStart p ∧ (t.partner p).probed = some s.now ∧ KeepsMem s t
      ∧ Queued s t p (blankFrame 5 (List.replicate 16 0)) ∧ ∀ r, r ≠ p.val → t.partner r = s.partner r)
  ∧ (∀ (p : Fin 2) (s : State), s.portWorks p = true →
    Gives (.probeTimer p) s fun t => KeepsMem s t ∧ ∀ q ∈ s.validPartners, s.ptrPort q = p.val →
      (match (s.partner q).probed with
        | some t0 => t0 + s.probeTime ≤ s.now
        | none => True) → (t.partner q).probed = some s.now
          ∧ (s.canSeal p = true → s.frameCount p + 256 < 2 ^ 63 → ∃ g, TxUnit.control q g ∈ (t.cipher p).txWait ∧ g.typ = 5))
  ∧ (∀ (stream : BitVec 16) (x : TxStream) (s : State), s.txOf stream.toNat = some x → (∀ q ∈ x.targets, q ∈ x.sent) →
      x.lastSent + s.holdTime ≤ s.now →
    Gives (.resendRelease stream) s fun t => t = { s with tx := t.tx } ∧ ∀ y, y ∈ t.tx ↔ y ∈ s.tx ∧ y.num ≠ x.num)
  ∧ (∀ (p : Fin 2) (stream : BitVec 16) (x : TxStream) (ps : List Frame) (s : State), s.txOf stream.toNat = some x →
      x.frames = [] → s.targetsOn x p ≠ [] → s.wardPowered 7 = true → s.serving (.farPort p) = true → s.clockRuns 7 = true →
      s.canSeal p = true → ps = streamPackets x s.groupK s.groupM →
    (framesSize ps + s.resendUsed ≤ s.regionSize 2 → s.frameCount p + ps.length < 2 ^ 63 →
      Gives (.streamEncode p stream) s fun t => KeepsMem s t ∧ t.frameCount p = s.frameCount p + ps.length
        ∧ (∃ y, t.txOf stream.toNat = some y ∧ y.frames.length = ps.length ∧ y.bytes = x.bytes ∧ y.targets = x.targets
            ∧ ∀ g ∈ y.frames, g.clear = s.sendsClear)
        ∧ (t.cipher p).txWait = (s.cipher p).txWait ++ List.replicate ps.length (.stream x.num)
        ∧ ∀ q ∈ x.targets, x.num ∈ (t.partner q).queue)
    ∧ (s.regionSize 2 < s.resendUsed + framesSize ps →
      Gives (.streamEncode p stream) s fun t => KeepsMem s t ∧ Counts s t Reg.XCH_RESEND_FULL 1
        ∧ (∀ y ∈ t.tx, y.num ≠ x.num) ∧ t.ciphers = s.ciphers))

/-- Timers of the receive side and ports. A stream that waits for packets asks a partner that is UP for every open group
again, and after NACK_LIMIT requests those groups are lost (R292, R296); a millisecond of packets is answered by a FEEDBACK
(R299); a waiting SNAP_FETCH asks again each PROBE_MS (R310); a port's link is up as the Ethernet reports, and a cable of more
than 5 W keeps it down (R408). That rounds of NACKs count on without a NACK for a partner that is not reached, and that it
gets no FEEDBACK, is the model's reading (assumption 49). -/
def Obligations.ReceiveTimersAndPorts : Prop :=
  (∀ (p : Fin 256) (stream : BitVec 16) (x : RxStream) (s : State),
      s.rx.find? (fun x => x.who == some p.val && x.num == stream.toNat) = some x →
    (x.openGroups ≠ [] → x.nackAt + s.nackTime ≤ s.now → s.wardPowered 7 = true →
      Gives (.nackTimeout p stream) s fun t => KeepsMem s t
        ∧ (x.nacks < s.nackLimit → { x with nacks := x.nacks + 1, nackAt := s.now } ∈ t.rx
            ∧ (s.reaches p = true → Counts s t Reg.XCH_NACKS_SENT x.openGroups.length
              ∧ (s.frameCount (s.ptrPort p) + x.openGroups.length < 2 ^ 63 → ∀ k ∈ x.openGroups,
                  ∃ g, TxUnit.control p g ∈ (t.cipher (s.ptrPort p)).txWait ∧ g.typ = 3))
            ∧ (s.reaches p = false → t = { s with rx := t.rx }))
        ∧ (s.nackLimit ≤ x.nacks → Counts s t Reg.XCH_GROUPS_LOST x.openGroups.length
            ∧ ∃ y ∈ t.rx, y.who = x.who ∧ y.num = x.num ∧ y.openGroups = []))
    ∧ (0 < x.unfed → x.fedAt + 1000000 ≤ s.now →
      Gives (.feedbackTimer p stream) s fun t => KeepsMem s t ∧ { x with unfed := 0, fedAt := s.now } ∈ t.rx
        ∧ (s.reaches p = true → ∃ g, (t.cipher (s.ptrPort p)).txWait = (s.cipher (s.ptrPort p)).txWait ++ [.control p g]
            ∧ g.typ = 4)
        ∧ (s.reaches p = false → t = { s with rx := t.rx })))
  ∧ (∀ (f : SnapFetch) (s : State), s.snapFetch = some f → f.stream = none → s.ptrUp f.partner = true →
      (match f.asked with
        | some t0 => t0 + s.probeTime ≤ s.now
        | none => True) →
    Gives .snapReqTimer s fun t => t.snapFetch = some { f with asked := some s.now } ∧ KeepsMem s t
      ∧ Queued s t f.partner (blankFrame 7 (List.replicate 16 0)))
  ∧ (∀ (p : Fin 2) (up : Bool) (s : State), s.wardPowered 7 = true → (up = true → p.val ∉ s.pads.lowPower) →
    Gives (.farPortLinkChange p up) s fun t => t.flag (Reg.FP_CTRL p) 31 = up ∧ KeepsMem s t)
  ∧ (∀ (p : Fin 2) (over5W : Bool) (s : State),
    Gives (.osfpCableInsert p over5W) s fun t => t = { s with regs := t.regs, pads := t.pads } ∧ KeepsRegs s t [Reg.FP_CTRL p]
      ∧ (p.val ∈ t.pads.lowPower ↔ over5W = true) ∧ (over5W = true → t.flag (Reg.FP_CTRL p) 31 = false)
      ∧ ∀ q, q ≠ p.val → (q ∈ t.pads.lowPower ↔ q ∈ s.pads.lowPower))

/-- Rounds, spans and snapshots. Once the update passes of its waypoint are done, the first pass gives every section of an
engine's segment its statistics (R224, R275); the second writes the residual, the fix snapshot's codes and scales and, where a request
waits, the anchor copy of every section of the engine and no other memory (R278, R279, R309), and adds the engine to those that have
passed; the last one's closes delta formation with the round stream, zeroes the snapshot codes of the gaps (R273, R302) and takes up the
round that opened next (that it waits till then is the model's reading of R24: assumption 51); a due span and due snapshots form their stream (R307, R309); a HANDOFF waits for the close, and the
handoff in progress ends it with accumulator and report in host memory and the accumulator zeroed (R304); a SNAP_FETCH is accepted
and waits; a whole sound snapshot gives every parameter its anchor, master and residual, changes no other memory, and completes the
fetch with its wire round (R310). -/
def Obligations.RoundsFormTheirStreams : Prop :=
  (∀ (k : Fin 32) (s : State), s.shardReady = true → s.codecWorks k = true → k.val ∉ s.delta.pass1 → s.segment k ≠ [] →
      s.sectTrouble ((s.segment k).flatMap fun i => s.sectReads (s.sect i)) = none →
    Gives (.deltaFirstPass k) s fun t => Announces s { t with delta := s.delta, sectT := s.sectT }
      ∧ KeepsPages s t [pgSLT] ∧ t.delta.pass1 = s.delta.pass1 ++ [k.val]
      ∧ ∀ i ∈ s.segment k, Map.find t.delta.stats i =
          some (sectStat (firstPass ((s.sectDeltas (s.sect i)).map fun q => usableDelta q.2)) (s.sect i).params s.keepShift))
  ∧ (∀ (k : Fin 32) (r w : Nat) (ws : List (Nat × List Byte)) (s s0 : State), s.deltaOpen = some (r, w) → s.shardReady = true → s.codecWorks k = true →
      k.val ∈ s.delta.pass1 → k.val ∉ s.delta.pass2 → s0 = s.latchSnaps →
      s.sectTrouble ((s.segment k).flatMap fun i => s.sectReads (s.sect i)) = none →
      (∀ i ∈ s.segment k, ∀ x ∈ s0.sectWrites r (s0.sect i), x.2 ≠ 0 → populated x.1 x.2 = true) →
      ws = (s.segmentFirsts (s.segment k)).flatMap (fun p => s0.passWrites k r w p.2 p.1) → s0.PassApart k r w →
    Gives (.deltaSecondPass k) s fun t =>
      ((∃ j ∈ s.codecsDue, j ≠ k.val ∧ j ∉ s.delta.pass2) → t.delta.pass2 = s.delta.pass2 ++ [k.val] ∧ t.tx = s.tx
          ∧ t.deltaOpen = some (r, w) ∧ t.deltaNext = s.deltaNext ∧ WritesDone s t ws)
      ∧ (s.codecsDue ≠ [] → (∀ j ∈ s.codecsDue, j = k.val ∨ j ∈ s.delta.pass2) →
          t.deltaOpen = (s.deltaNext.head?.map fun e => (e.1, e.2.1)) ∧ t.deltaNext = s.deltaNext.drop 1
          ∧ t.streamNum = (s.streamNum + 1) % 2 ^ 16
          ∧ (∃ x, t.tx = s.tx ++ [x] ∧ x.num = s.streamNum ∧ x.kind = .round ∧ x.first = s.wireRound r ∧ x.last = s.wireRound r)
          ∧ (s.SectionsStay (s.gapWrites r) → WritesDone s t (ws ++ s.gapWrites r))))
  ∧ (∀ (first : Word) (l : List Nat) (s : State), s.spanDue.find? (fun e => e.1 == first.toNat) = some (first.toNat, l) →
      s.wardPowered 7 = true →
    Gives (.spanStreamForm first) s fun t => t.streamNum = (s.streamNum + 1) % 2 ^ 16 ∧ KeepsMem s t
      ∧ Counts s t Reg.XCH_SPANS_SENT 1 ∧ KeepsPages s t (pgXCH :: (List.range 32).map pgCODEC)
      ∧ (∀ e ∈ t.spanDue, e.1 ≠ first.toNat)
      ∧ ∃ x, t.tx = s.tx ++ [x] ∧ x.num = s.streamNum ∧ x.kind = .span ∧ x.first = first.toNat
          ∧ x.last = s.lastFormed ∧ x.targets = l)
  ∧ (∀ (r : Nat) (ps : List Nat) (s : State), s.snapDue = some (r, ps) → s.wardPowered 7 = true →
    Gives .snapshotStreamForm s fun t => t.snapDue = none ∧ t.streamNum = (s.streamNum + 1) % 2 ^ 16 ∧ KeepsMem s t
      ∧ Counts s t Reg.XCH_SNAP_SERVED ps.length ∧ KeepsPages s t [pgXCH]
      ∧ ∃ x, t.tx = s.tx ++ [x] ∧ x.num = s.streamNum ∧ x.kind = .snapshot ∧ x.first = r ∧ x.last = r ∧ x.targets = ps)
  ∧ (∀ (n : Fin 32768) (idx : BitVec 16) (f : Flight) (s : State),
      (s.flightOf n idx.toNat 3 1 = some f →
        (f.accepted = false → (∀ h, s.handing = some h → ¬(h.ring = n.val ∧ h.idx = idx.toNat)) →
          Gives (.handoff n idx) s fun t => Accepted t n idx.toNat f.bytes
            ∧ t = { s with rings := t.rings, handoffs := s.handoffs ++ [(n.val, idx.toNat)] } ∧ KeepsOtherRings s t n)
        ∧ (∀ h len, s.handing = some h → h.ring = n.val → h.idx = idx.toNat → f.status = none →
            s.flightAt n idx.toNat = some f → len = 4 * s.fld Reg.UPD_SHARD 47 0 → len ≤ s.regionSize 0 →
          Gives (.handoff n idx) s fun t => Ended t n idx.toNat f.bytes 0 h.last ∧ KeepsOtherRings s t n ∧ t.handing = none
            ∧ t.reports = [] ∧ t.ownAdded = 0 ∧ t.covered = h.last + 1
            ∧ (len = 0 ∨ PlainAt s (s.regionAddr 0) len → t.load (s.regionAddr 0) len = List.replicate len 0)
            ∧ KeepsMemBut s t (s.regionAddr 0) len ∧ (∀ x ∈ t.rx, x.added = false)
            ∧ ((s.ring n).discard = false →
                t.hostLoad (s.ringDie n) (fieldAt f.bytes 0x18 8) 8256 = s.roundReport h.last
                ∧ (fieldAt f.bytes 0x10 8 + len ≤ fieldAt f.bytes 0x18 8 ∨ fieldAt f.bytes 0x18 8 + 8256 ≤ fieldAt f.bytes 0x10 8 →
                    t.hostLoad (s.ringDie n) (fieldAt f.bytes 0x10 8) len = s.load (s.regionAddr 0) len))
            ∧ ((s.ring n).discard = true → t.hostMem = s.hostMem)))
      ∧ (s.flightOf n idx.toNat 3 2 = some f → f.accepted = false → s.wp.job = false → s.snapFetch = none →
        Gives (.snapFetch n idx) s fun t => Accepted t n idx.toNat f.bytes ∧ KeepsOtherRings s t n
          ∧ t = { s with rings := t.rings, snapFetch := t.snapFetch }
          ∧ ∃ g, t.snapFetch = some g ∧ g.ring = n.val ∧ g.idx = idx.toNat ∧ g.partner = fieldAt f.bytes 0x10 1
              ∧ g.stream = none ∧ g.asked = none))
  ∧ (∀ (f : SnapFetch) (g : Flight) (x : RxStream) (bs : List Byte) (l : List (Nat × Nat)) (ws : List (Nat × List Byte)) (s : State),
      s.snapFetch = some f → f.ring < 32768 → g ∈ (s.ring f.ring).flights → g.idx = f.idx → g.status = none →
      s.rx.find? (fun x => x.who == some f.partner && x.kind == .snapshot && some x.num == f.stream) = some x →
      x.whole = some bs → s.snapshotAnchors bs = some l → ws = l.flatMap s.anchorWrites → s.SectionsStay ws →
    Gives .snapshotLoad s fun t => t.snapFetch = none ∧ Ended t f.ring f.idx g.bytes 0 x.last ∧ { x with done := true } ∈ t.rx
      ∧ WritesDone s t ws)

/-- Codec engines. The next chunk of a receive stream is taken once: at the end of its chunks the stream is done, a chunk a
lost group touches or whose end is missing is discarded and counted (R286), and a sound DATA chunk is weighted and added,
which changes memory only in the accumulator, or dropped where its weight is 0 (R301). COMPRESS and EXPAND of plain memory
write what they make of their input at DST and complete DONE with its length, or with status 3 and a data-path fault where a
chunk fails or DST_MAX is passed (R287, R288). An EXPAND past DST_MAX ending with status 3, every DST_MAX overrun being a
data-path fault, the end on a cut chunk and COMPRESS of unsound bytes are the model's reading (assumption 40). -/
def Obligations.CodecsAddCompressAndExpand : Prop :=
  (∀ (k : Fin 32) (i : Nat) (x : RxStream) (s : State), s.rx[i]? = some x → x.done = false → x.kind ≠ .snapshot →
      s.codecWorks k = true → s.handing = none →
    (x.nextChunk = .over → Gives (.chunkAdd k i) s fun t => t = { s with rx := t.rx }
      ∧ (x.who ≠ none → { x with done := true } ∈ t.rx) ∧ (x.who = none → ∀ y ∈ t.rx, y.who = none → y.num ≠ x.num))
    ∧ (∀ n, x.nextChunk = .touched n → Gives (.chunkAdd k i) s fun t => KeepsMem s t ∧ Counts s t Reg.XCH_CHUNKS_LOST 1
      ∧ { x with off := n } ∈ t.rx ∧ KeepsPages s t [pgXCH])
    ∧ (x.nextChunk = .noHeader → Gives (.chunkAdd k i) s fun t => KeepsMem s t ∧ Counts s t Reg.XCH_CHUNKS_LOST 1
      ∧ (x.who ≠ none → { x with done := true } ∈ t.rx) ∧ KeepsPages s t [pgXCH])
    ∧ (x.nextChunk = .cut → Gives (.chunkAdd k i) s fun t => KeepsMem s t ∧ Counts s t Reg.XCH_CHUNKS_LOST 1
      ∧ Counts s t (Reg.CODEC_SIZE_FAULT k) 1 ∧ (x.who ≠ none → { x with done := true } ∈ t.rx)
      ∧ KeepsPages s t [pgXCH, pgCODEC k])
    ∧ (∀ c n, x.nextChunk = .chunk c n → s.takesSection k c.table = true →
      Gives (.chunkAdd k i) s fun t => (∃ y ∈ t.rx, y.who = x.who ∧ y.num = x.num ∧ y.off = n)
        ∧ (c.kind ≠ 2 → KeepsMem s t)
        ∧ (c.kind = 2 → s.chunkRecords x c = none → KeepsMem s t ∧ Counts s t Reg.XCH_CHUNKS_LOST 1)
        ∧ (∀ sc rs, s.chunkRecords x c = some (sc, rs) →
            (isZero32 (s.chunkWeight x.first x.last) = true → KeepsMem s t ∧ Counts s t Reg.XCH_STALE_DROPPED 1)
            ∧ (isZero32 (s.chunkWeight x.first x.last) = false → Counts s t (Reg.CODEC_CHUNKS_ADDED k) 1
                ∧ ∀ a, t.load a 1 = (rs.foldl (fun u r => u.addRecord (s.chunkWeight x.first x.last) sc r) s).load a 1))
        ∧ ∀ a, (a < s.regionAddr 0 ∨ s.regionAddr 0 + s.regionSize 0 ≤ a) → t.load a 1 = s.load a 1))
  ∧ (∀ (n : Fin 32768) (idx : BitVec 16) (k : Fin 32) (f : Flight) (src : List Byte) (o : CodecOut) (s : State),
      f.accepted = false → f.status = none → s.stepForbidden n f.bytes = false → s.codecWorks k = true →
      s.wouldRefuse (.ring n) (cdcSrc f.bytes) (max 1 (cdcLen f.bytes)) = false →
      DescHere s n (cdcSrc f.bytes, cdcLen f.bytes) false → src = s.load (cdcSrc f.bytes % 2 ^ 48) (cdcLen f.bytes) →
      s.waitsRemote (.flight n idx.toNat) = false →
      (∀ w ∈ placed (cdcDst f.bytes) o.pieces, DescHere s n (w.1, w.2.length) true) →
    ∀ c ∈ [(Instr.compress n idx k, 1, s.compressOut f.bytes src), (.expand n idx k, 2, expandOut f.bytes src)],
      s.flightOf n idx.toNat 2 c.2.1 = some f → o = c.2.2 →
      Gives c.1 s fun t =>
        Ended t n idx.toNat f.bytes (if o.size ∨ o.crc ∨ o.past then 3 else 0) o.total
          ∧ t.load (cdcDst f.bytes % 2 ^ 48) o.total = o.pieces.flatten
          ∧ KeepsMemBut s t (cdcDst f.bytes % 2 ^ 48) o.total
          ∧ (o.size = true ∨ o.crc = true ∨ o.past = true → t.flag Reg.FLT_JOB 31 = true)
          ∧ (o.size = false → o.crc = false → o.past = false → KeepsOtherRings s t n))

/-- Cipher descriptors. ENCRYPT and DECRYPT of a slot that serves the ring's function wait in the engine's queue, one unit for
each 8 KiB (R316, R320). A free core takes the first waiting unit in the order of R315: receive, transmit, descriptor, but a
descriptor first while fewer cores than CPH_HOST_MIN serve one; it is free again when it is done, and a control packet it
sealed goes out to a partner that is UP (a PROBE to any), under an epoch or state that allows it, and one held back by HOLD_S
is counted (R296, R330), a stream's frame may be sent. The last unit of a descriptor over plain memory writes the text of its
mode at DST and completes it with its length; with a tag that does not match it completes with status 7 and is counted (R321).
That its DETAIL is LEN, without tag or chaining block, is the model's choice (assumption 39). -/
def Obligations.CipherDescriptorsAndCores : Prop :=
  (∀ (n : Fin 32768) (idx : BitVec 16) (f : Flight) (p : Nat) (s : State), p = cphSlot f.bytes / 1024 → f.accepted = false →
      s.cphViolation n f.bytes = none → s.serving (.farPort (Fin.ofNat 2 p)) = true → s.wardPowered 7 = true →
      s.cphRefused n f.bytes = false → (s.cipher p).jobs.length < 4096 → 0 < cphLen f.bytes →
    ∀ c ∈ [(Instr.encrypt n idx, 1), (.decrypt n idx, 2)], s.flightOf n idx.toNat 4 c.2 = some f →
      Gives c.1 s fun t => t = { s with rings := t.rings, ciphers := t.ciphers } ∧ Accepted t n idx.toNat f.bytes
        ∧ KeepsOtherRings s t n
        ∧ (t.cipher p).jobs = (s.cipher p).jobs ++ [⟨n, idx.toNat, cphSlot f.bytes, (cphLen f.bytes + 8191) / 8192,
            (cphLen f.bytes + 8191) / 8192, false⟩])
  ∧ (∀ (p : Fin 2) (core : Fin 10) (s : State), s.wardPowered 7 = true → (s.cipher p).core core = none →
    Gives (.cipherCoreDispatch p core) s fun t => t = { s with ciphers := t.ciphers }
      ∧ (((∀ j ∈ (s.cipher p).jobs, j.waiting = 0) ∨ s.hostMin p ≤ (s.cipher p).serving) →
          (0 < (s.cipher p).rxWait → (t.cipher p).core core = some .receive
            ∧ (t.cipher p).rxWait = (s.cipher p).rxWait - 1)
          ∧ (∀ u l, (s.cipher p).rxWait = 0 → (s.cipher p).txWait = u :: l →
            (t.cipher p).core core = some (.transmit u) ∧ (t.cipher p).txWait = l))
      ∧ (∀ j, (s.cipher p).jobs.find? (fun j => decide (0 < j.waiting)) = some j →
          ((s.cipher p).rxWait = 0 ∧ (s.cipher p).txWait = [] ∨ (s.cipher p).serving < s.hostMin p) →
          (t.cipher p).core core = some (.descriptor j.ring j.idx)
            ∧ (t.cipher p).rxWait = (s.cipher p).rxWait ∧ (t.cipher p).txWait = (s.cipher p).txWait))
  ∧ (∀ (p : Fin 2) (core : Fin 10) (w : CoreWork) (s : State), (s.cipher p).core core = some w →
      (∀ r i, w ≠ .descriptor r i) →
    Gives (.cipherUnitDone p core) s fun t => (t.cipher p).core core = none ∧ KeepsMem s t
      ∧ (∀ c, c ≠ core.val → (t.cipher p).core c = (s.cipher p).core c)
      ∧ (w = .receive → t.tx = s.tx)
      ∧ (∀ n x, w = .transmit (.stream n) → x ∈ s.tx → x.num = n → { x with coded := x.coded + 1 } ∈ t.tx)
      ∧ (∀ q f, w = .transmit (.control q f) → s.portWorks p = true → s.ptrValid q = true →
          (f.typ = 5 ∨ s.ptrUp q = true →
            (s.mayTransmit p f = true → t.out.getLast? = some (.frame p f))
            ∧ (s.mayTransmit p f = false → (∃ y, t.out = s.out ++ y ∧ ∀ k g, Output.frame k g ∉ y)
              ∧ (s.expired p f = true → Counts s t (Reg.CPH_EXPIRED_TX p) 1)
              ∧ (s.expired p f = false → t.reg (Reg.CPH_EXPIRED_TX p) = s.reg (Reg.CPH_EXPIRED_TX p))))
          ∧ (f.typ ≠ 5 → s.ptrUp q = false → ∃ y, t.out = s.out ++ y ∧ ∀ k g, Output.frame k g ∉ y)))
  ∧ (∀ (p : Fin 2) (core : Fin 10) (n : Fin 32768) (idx : Nat) (f : Flight) (src par aad : List Byte) (o : CipherOut) (s : State),
      (s.cipher p).core core = some (.descriptor n idx) → p.val = cphSlot f.bytes / 1024 → s.ghost n idx = none →
      ((s.ring n).flights.find? fun f => decide (f.idx = idx) && f.status.isNone) = some f →
      (∃ j ∈ (s.cipher p).jobs, j.ring = n.val ∧ j.idx = idx ∧ j.open_ = 1) → 0 < cphLen f.bytes →
      (cphMode f.bytes = 1 → cphLen f.bytes % 16 = 0) →
      (∀ r ∈ cphReads f.bytes, DescHere s n r false) → (∀ r ∈ cphWrites f.bytes, DescHere s n r true) →
      s.waitsRemote (.flight n idx) = false → src = s.load (cphSrc f.bytes % 2 ^ 48) (cphLen f.bytes) →
      par = s.load (cphIv f.bytes % 2 ^ 48) 32 →
      aad = (if cphMode f.bytes = 4 then s.load (cphAad f.bytes % 2 ^ 48) (cphAadLen f.bytes) else []) →
      o = s.cipherOut f.bytes (s.keySlot (cphSlot f.bytes)).key src par aad →
    Gives (.cipherUnitDone p core) s fun t => KeepsOtherRings s t n
      ∧ (o.tagOk = true → Ended t n idx f.bytes 0 (cphLen f.bytes)
          ∧ ((cphSrc f.bytes = cphDst f.bytes
                ∨ overlaps (cphSrc f.bytes) (cphLen f.bytes) (cphDst f.bytes) (cphLen f.bytes) = false) →
              overlaps (cphDst f.bytes) (cphLen f.bytes) (cphIv f.bytes) 32 = false →
              t.load (cphDst f.bytes % 2 ^ 48) (cphLen f.bytes) = o.text))
      ∧ (o.tagOk = false → (∃ x, Ended t n idx f.bytes 7 x) ∧ Counts s t (Reg.CPH_DESC_AUTH_FAIL p) 1)
      ∧ ∀ a, (∀ w ∈ cphWrites f.bytes, a < w.1 % 2 ^ 48 ∨ w.1 % 2 ^ 48 + w.2 ≤ a) → t.load a 1 = s.load a 1)

/-- Keys, epochs and states. LOAD puts a sound wrapped key into a free slot and reads 1 as its result, a slot in use is BUSY,
one that is not sound is counted (R318); ERASE empties a slot that nothing holds (R319); INSTALL gives a WIRE slot that has
not served the role NEXT (R328); SWITCH makes the epoch that is NEXT on both dies CURRENT and the one before PREVIOUS where it
was CURRENT (R323, R329); T_grace after a switch the PREVIOUS entries end with their keys (R331), and from HOLD_S on none of
their frames is left to re-send (R330). The exchange state is written until NORMAL locks it (R333). The refusal of an INSTALL
of a slot that is no WIRE slot, and which NEXT epoch the first SWITCH takes, are the model's reading (assumption 53). -/
def Obligations.KeysEpochsAndStates : Prop :=
  (∀ (who : Requester) (n : Nat) (s : State), MayCommand s who pgCPH → n = s.fld Reg.CPH_KEY_SEL 10 0 →
      (Gives (.keyLoad who) s fun t => (∀ i < 5, t.reg (Reg.CPH_KEY_WRAP i) = 0) ∧ KeepsMem s t
        ∧ (∀ m, m ≠ n → t.keySlot m = s.keySlot m)
        ∧ (∀ k, unwrapKey (beBytes 32 Config.deviceKey.toNat) s.wrappedKey = some k →
            s.fld Reg.CPH_KEY_SEL 17 16 = 1 ∨ s.fld Reg.CPH_KEY_SEL 17 16 = 2 →
            (s.slotRoles n = [] → s.slotInFlight n = false →
              t.keySlot n = ⟨s.fld Reg.CPH_KEY_SEL 17 16, s.fld Reg.CPH_KEY_SEL 31 24, k, false⟩
                ∧ t.fld Reg.CPH_KEY_CMD 29 27 = 1)
            ∧ (s.slotRoles n ≠ [] ∨ s.slotInFlight n = true → t.keySlot n = s.keySlot n ∧ t.fld Reg.CPH_KEY_CMD 29 27 = 4))
        ∧ (unwrapKey (beBytes 32 Config.deviceKey.toNat) s.wrappedKey = none → t.keySlot n = s.keySlot n
            ∧ t.fld Reg.CPH_KEY_CMD 29 27 = 3 ∧ Counts s t Reg.CPH_UNWRAP_FAIL 1))
      ∧ (Gives (.keyErase who) s fun t => t = { s with regs := t.regs, keys := t.keys }
          ∧ (∀ m, m ≠ n → t.keySlot m = s.keySlot m)
          ∧ (((s.keySlot n).use = 1 → s.slotInFlight n = false) →
              ((s.keySlot n).use = 2 → ∀ r ∈ s.slotRoles n, r ≠ 2 ∧ r ≠ 3) →
              t.keySlot n = {} ∧ t.fld Reg.CPH_KEY_CMD 29 27 = 2)
          ∧ ((s.keySlot n).use = 1 → s.slotInFlight n = true → t.keys = s.keys ∧ t.fld Reg.CPH_KEY_CMD 29 27 = 4)
          ∧ ((s.keySlot n).use = 2 → (2 ∈ s.slotRoles n ∨ 3 ∈ s.slotRoles n) →
              t.keys = s.keys ∧ t.fld Reg.CPH_KEY_CMD 29 27 = 4)))
  ∧ (∀ (who : Requester) (p : Fin 2) (e : Fin 4) (n : Nat) (s : State), MayCommand s who (pgCPHD p) →
      n = p.val * 1024 + s.fld (Reg.CPH_EPOCH_SLOT p e) 9 0 →
    Gives (.epochInstall who p e) s fun t => KeepsMem s t
      ∧ ((∀ c, s.currentEpoch = some c → e.val = (c + 1) % 4) → s.role p e = 0 → (s.keySlot n).served = false →
          (s.keySlot n).use = 2 → t.role p e = 1 ∧ t.epochSlot p e = n ∧ (t.keySlot n).served = true
            ∧ (t.keySlot n).key = (s.keySlot n).key)
      ∧ ((∃ c, s.currentEpoch = some c ∧ e.val ≠ (c + 1) % 4) ∨ s.role p e ≠ 0 ∨ (s.keySlot n).served = true
          ∨ (s.keySlot n).use ≠ 2 → t.role p e = s.role p e ∧ t.keys = s.keys ∧ Counts s t (Reg.CPH_INSTALL_REFUSED p) 1))
  ∧ (∀ (who : Requester) (s : State), MayCommand s who pgCPH →
    Gives (.epochSwitch who) s fun t => KeepsMem s t ∧ t.keys = s.keys
      ∧ (∀ e, s.nextEpoch = some e → (∀ d < 2, ∀ i < 4, s.role d i ≠ 3) → (∀ d < 2, t.role d e = 2)
          ∧ t.currentEpoch = some e ∧ (∀ d < 2, t.frameCount d = 0) ∧ t.fld Reg.CPH_EPOCH 30 29 = 1
          ∧ (∀ d < 2, t.flag (pgCPHD d + Hdr.EVT_STATUS) 8 = false)
          ∧ ∀ c, s.currentEpoch = some c → (∀ d < 2, s.role d c = 2 → t.role d c = 3) ∧ t.prevSince = some s.now
              ∧ t.prevGrace = s.graceSet)
      ∧ (s.nextEpoch = none ∨ (∃ d < 2, ∃ i < 4, s.role d i = 3) → t.fld Reg.CPH_EPOCH 30 29 = 2
          ∧ Counts s t Reg.CPH_SWITCH_REFUSED 1 ∧ t.currentEpoch = s.currentEpoch ∧ ∀ d, t.frameCount d = s.frameCount d))
  ∧ (∀ (t0 : Nat) (s : State), s.prevSince = some t0 → t0 + s.graceTime ≤ s.now → s.wardPowered 7 = true →
    Gives .graceEnd s fun t => t = { s with regs := t.regs, keys := t.keys, prevSince := none }
      ∧ (∀ d < 2, ∀ e < 4, t.role d e = if s.role d e = 3 then 0 else s.role d e)
      ∧ ∀ d < 2, ∀ e < 4, s.role d e = 3 → t.keySlot (s.epochSlot d e) = {})
  ∧ (∀ s : State, s.holdPassed = true → s.wardPowered 7 = true →
    Gives .previousHoldEnd s fun t => KeepsMem s t ∧ ∀ p ∈ s.validPartners, ∀ e ∈ (t.partner p).resend,
      ∀ f, (s.txFrames e.1)[e.2]? = some f → s.mayTransmit (s.ptrPort p) f = true)
  ∧ (∀ (who : Requester) (v : BitVec 2) (s : State), MayCommand s who pgCPH →
    Gives (.xstateWrite who v) s fun t => Announces s t
      ∧ (s.flag Reg.CPH_XSTATE 31 = false → t.fld Reg.CPH_XSTATE 1 0 = v.toNat ∧ KeepsRegs s t [Reg.CPH_XSTATE]
          ∧ (t.flag Reg.CPH_XSTATE 31 = true ↔ v = 3))
      ∧ (s.flag Reg.CPH_XSTATE 31 = true → t.reg Reg.CPH_XSTATE = s.reg Reg.CPH_XSTATE ∧ Counts s t Reg.CPH_XSTATE_REJECT 1))

/-- Power states, clocks and temperatures. A request is taken, refused or already true as R339 says, and a transition ends in
its state, READY or ACTIVE as the fast clocks run (R338, R341, R342); a high WAKE_IN acts as R344 and R345 say, when it comes
and where it is held when WATCH or DORMANT is entered (R419); a loss of power leaves DORMANT with register space empty and
host memory as it was (R340, R353, R416). A clock starts with the spread that stands then, locks, fails and stops in its ward
alone (R346 to R348). Power and temperature samples are held, and each loop moves its own limit by one step, but not while the
binnacle restarts (R349 to R353, R374). That the wake event is raised for a high level whatever WAKE_READY says (R345 states
it for 0), and that CLK_STARTS counts at lock, are the model's reading (assumptions 58 and 54). -/
def Obligations.PowerStatesClocksAndTemperatures : Prop :=
  (∀ (who : Requester) (s : State), MayCommand s who pgPWR → s.pwr.change = .none →
      (s.power = 1 → Gives (.powerRequestDormant who) s fun t => t.power = 0 ∧ t.rings = [] ∧ t.keys = [] ∧ t.chiplets = []
        ∧ t.hostMem = s.hostMem ∧ t.softRegion = s.softRegion ∧ (∀ a, a ≠ Reg.PWR_STATE → t.reg a = (regReset a).toNat)
        ∧ t.pwr.change = if s.pwr.wake = true ∧ s.pwr.mainOk = true ∧ s.pwr.standbyOk = true ∧ s.pwr.tripLatch = false
            then .booting else .none)
      ∧ (2 ≤ s.power → Gives (.powerRequestDormant who) s fun t => t = { s with regs := t.regs }
        ∧ KeepsRegs s t [Reg.PWR_CTRL] ∧ t.fld Reg.PWR_CTRL 30 29 = 3)
      ∧ (s.power = 1 ∨ 2 ≤ s.power ∧ s.watchBarred = true → Gives (.powerRequestWatch who) s fun t =>
          t = { s with regs := t.regs } ∧ KeepsRegs s t [Reg.PWR_CTRL]
            ∧ t.fld Reg.PWR_CTRL 30 29 = if s.power = 1 then 2 else 3)
      ∧ (2 ≤ s.power → s.watchBarred = false → Gives (.powerRequestWatch who) s fun t =>
          t.pwr.change = .entering ∧ t.pwr.good = false ∧ t.fld Reg.PWR_CTRL 30 29 = 1 ∧ t.clocks = s.clocks
            ∧ t.fld Reg.TOR_RELAY 2 0 = 7 ∧ t.power = s.power ∧ ∀ u, unitWard u ∈ watchWards → (t.unit u).phase ≠ .normal)
      ∧ Gives (.powerRequestReady who) s fun t => t = { s with regs := t.regs, pwr := t.pwr }
          ∧ KeepsRegs s t [Reg.PWR_CTRL] ∧ t.fld Reg.PWR_CTRL 30 29 = (if 2 ≤ s.power then 2 else 1)
          ∧ t.pwr = { s.pwr with change := if 2 ≤ s.power then .none else .leaving })
  ∧ (∀ s : State, s.pwr.waiting = none →
      (s.pwr.change = .entering → s.watchDrained = true → Gives .watchEntryComplete s fun t =>
        t.power = 1 ∧ t.chiplets = [] ∧ t.rings = [] ∧ t.keys = [] ∧ (∀ w ∈ watchWards, t.clockRuns w = false)
          ∧ (∀ e ∈ s.mem, inDram e.1 = true → e ∈ t.mem)
          ∧ t.pwr.change = (if s.pwr.wake = true ∧ s.flag Reg.PWR_CTRL 8 = true then .leaving else .none)
          ∧ (s.pwr.wake = true → t.flag (pgPWR + Hdr.EVT_STATUS) 9 = true)
          ∧ (s.pwr.wake = false → t.fld Reg.PWR_CTRL 30 29 = 2))
      ∧ ∀ l, s.pwr.change = .leaving → Gives (.readySequenceComplete l) s fun t =>
        t.power = (if (List.range 9).any fun w => decide (1 ≤ w) && s.clockRuns w then 3 else 2)
          ∧ t.pwr.good = true ∧ t.pwr.goodAt = s.now ∧ t.pwr.change = .none ∧ t.fld Reg.PWR_CTRL 30 29 = 2
          ∧ t.pwr.untrained = [0, 1] ∧ t.rings = [] ∧ t.chiplets = [] ∧ t.fld Reg.TOR_RELAY 2 0 = s.fld Reg.TOR_RELAY 2 0)
  ∧ (∀ (k : Fin 128) (s : State),
      (Gives .mainInputLoss s fun t => t.power = 0 ∧ t.pwr.mainOk = false ∧ t.rings = [] ∧ t.hostMem = s.hostMem)
      ∧ (Gives .standbyLoss s fun t => t.power = 0 ∧ t.pwr.standbyOk = false ∧ t.pwr.tripLatch = false ∧ t.rings = [])
      ∧ (2 ≤ s.hotSamples k → Gives (.thermalTrip k) s fun t => t.power = 0 ∧ t.pwr.tripLatch = true ∧ t.pwr.tripped = true)
      ∧ (Gives .mainInputApply s fun t => t = { s with pwr := t.pwr } ∧ t.pwr.mainOk = true ∧ t.pwr.standbyOk = true
          ∧ t.pwr.tripLatch = s.pwr.tripLatch)
      ∧ (Gives .wakeInLow s fun t => t = { s with pwr := { s.pwr with wake := false, tripLatch := false } })
      ∧ (s.pwr.standbyOk = true → s.pwr.change = .none → Gives .wakeInHigh s fun t => t.pwr.wake = true
          ∧ (s.power = 0 → t = { s with pwr := t.pwr }
            ∧ t.pwr.change = if s.pwr.mainOk = true ∧ s.pwr.tripLatch = false then .booting else .none)
          ∧ (s.power = 1 → s.flag Reg.PWR_CTRL 8 = true → t.pwr.change = .leaving)
          ∧ (s.power = 1 → s.flag Reg.PWR_CTRL 8 = false → Announces s { t with pwr := s.pwr }
            ∧ t.pwr = { s.pwr with wake := true } ∧ t.flag (pgPWR + Hdr.EVT_STATUS) 9 = true ∧ KeepsPages s t [pgPWR])
          ∧ (2 ≤ s.power → t = { s with pwr := { s.pwr with wake := true } }))
      ∧ (∀ b, s.pwr.change = .booting → Gives (.binnacleBootComplete b) s fun t => t.power = 1
          ∧ t.pwr.change = (if s.pwr.wake = true ∧ s.flag Reg.PWR_CTRL 8 = true then .leaving else .none)
          ∧ (s.pwr.wake = true → t.flag (pgPWR + Hdr.EVT_STATUS) 9 = true) ∧ t.pads.smbAddr = b.smbAddr ∧ t.pads.clkMode = b.clkMode ∧ t.rings = s.rings
          ∧ t.flag Reg.TH_STATE 1 = s.pwr.tripped)
      ∧ (∀ l, Gives (.powerOnReset l) s fun t => t.power = 1 ∧ t.rings = [] ∧ t.keys = [] ∧ t.hostMem = s.hostMem
          ∧ t.pending = s.pending ∧ t.pwr.change = (if s.pwr.wake = true then .leaving else .none)
          ∧ (s.pwr.wake = true → t.flag (pgPWR + Hdr.EVT_STATUS) 9 = true)))
  ∧ (∀ (mv : BitVec 16) (s : State), 44000 ≤ mv.toNat → mv.toNat < 46000 →
    Gives (.mainUndervoltage mv) s fun t => t.pwr = { s.pwr with mainOk := false } ∧ t.power = s.power
      ∧ (s.power ≠ 0 → Announces s { t with pwr := s.pwr } ∧ Counts s t Reg.PWR_MAIN_UV 1 ∧ KeepsPages s t [pgPWR])
      ∧ (s.power = 0 → t = { s with pwr := t.pwr }))
  ∧ (∀ (w : Fin 9) (s : State),
      (s.clockReady w = true → Gives (.clockStart w) s fun t => t = { s with clocks := t.clocks }
        ∧ (t.clock w).starting = true ∧ (t.clock w).depth = min 10 (s.fld Reg.CLK_SPREAD 3 0)
        ∧ ∀ v, v ≠ w.val → t.clock v = s.clock v)
      ∧ ((s.clock w).starting = true → Gives (.pllLock w) s fun t => Announces s { t with clocks := s.clocks }
        ∧ KeepsPages s t [pgCLK, pgPWR] ∧ t.clockRuns w = true ∧ (∀ v, v ≠ w.val → t.clock v = s.clock v)
        ∧ (t.clock w).starting = false ∧ (t.clock w).idleSince = s.now ∧ Counts s t Reg.CLK_STARTS 1)
      ∧ ((s.clock w).starting = true → (s.clock w).fails = 0 → Gives (.pllLockFail w) s fun t =>
        t = { s with clocks := t.clocks } ∧ t.clock w = { s.clock w with fails := 1 })
      ∧ ((s.clock w).starting = true → (s.clock w).fails ≠ 0 → Gives (.pllLockFail w) s fun t =>
        (t.clock w).starting = false ∧ Counts s t Reg.CLK_LOCK_FAIL 1 ∧ ∀ u, unitWard u = w.val → (t.unit u).phase ≠ .normal)
      ∧ (s.clockRuns w = true → s.fld (Reg.CLK_WARD_CTRL w) 31 30 ≠ 1 → s.jobHolds w = false → s.wardBusy w = false →
          (s.clock w).idleSince + s.idleTime w ≤ s.now → Gives (.clockIdleStop w) s fun t =>
        t = { s with regs := t.regs, clocks := t.clocks } ∧ KeepsRegs s t [Reg.CLK_WARD_CTRL w, Reg.PWR_STATE]
          ∧ t.clockRuns w = false ∧ ∀ v < 9, v ≠ w.val → t.clockRuns v = s.clockRuns v))
  ∧ (∀ (mv ca : BitVec 16) (s : State), s.power ≠ 0 → Gives (.powerSample mv ca) s fun t =>
      t = { s with regs := t.regs, pwr := t.pwr } ∧ KeepsRegs s t [Reg.PWR_INPUT, Reg.PWR_AVG]
        ∧ t.reg Reg.PWR_INPUT = mv.toNat * 2 ^ 16 + ca.toNat ∧ t.pwr.samples.getLast? = some (s.now, mv.toNat * ca.toNat)
        ∧ t.pwr.limit = s.pwr.limit ∧ t.pwr.thermal = s.pwr.thermal)
  ∧ (∀ (m : Nat) (s : State), 2 ≤ s.power →
      m = meanOf ((s.pwr.samples.filter fun e => decide (s.now < e.1 + 100000)).map fun e => e.2) →
    Gives .fastLoop s fun t => Announces s { t with pwr := s.pwr }
      ∧ t.pwr = { s.pwr with held := t.pwr.held, heldAt := t.pwr.heldAt } ∧ KeepsPages s t [pgPWR]
      ∧ t.pwr.held = (if 300000000 < m then (if s.pwr.held = 0 ∨ s.pwr.heldAt + 100000 ≤ s.now then min 3 (s.pwr.held + 1)
          else s.pwr.held) else if m < 295000000 then 0 else s.pwr.held)
      ∧ (300000000 < m → s.pwr.held = 0 → Counts s t Reg.PWR_FAST_EVENTS 1))
  ∧ (∀ s : State, 2 ≤ s.power → s.fw.restart = none → s.pwr.samples ≠ [] → Gives .slowLoop s fun t =>
      Announces s { t with pwr := s.pwr }
        ∧ t.pwr = { s.pwr with limit := t.pwr.limit, close := t.pwr.close } ∧ KeepsPages s t [pgPWR, pgCLK]
        ∧ (s.powerTarget * 100000 < s.meanPower → t.pwr.limit = max 1100 (s.pwr.limit - 25)
          ∧ (1100 < s.pwr.limit → Counts s t Reg.PWR_SLOW_STEPS 1)
          ∧ (s.pwr.limit ≤ 1100 → t.reg Reg.PWR_SLOW_STEPS = s.reg Reg.PWR_SLOW_STEPS))
        ∧ (s.meanPower ≤ s.powerTarget * 100000 → s.pwr.close = false → s.pwr.limit < s.maxMhz → t.pwr.limit = s.pwr.limit + 25)
        ∧ (min s.maxMhz (min t.pwr.limit s.pwr.thermal) < s.fld Reg.CLK_FAST 15 0 →
            t.fld Reg.CLK_FAST 15 0 = s.fld Reg.CLK_FAST 15 0 - 25)
        ∧ (s.fld Reg.CLK_FAST 15 0 < min s.maxMhz (min t.pwr.limit s.pwr.thermal) →
            t.fld Reg.CLK_FAST 15 0 = s.fld Reg.CLK_FAST 15 0 + 25))
  ∧ (∀ s : State, s.fw.restart ≠ none → Gives .slowLoop s (fun t => t = s) ∧ Gives .thermalStep s fun t => t = s)
  ∧ (∀ (k : Fin 128) (raw : BitVec 16) (s0 s : State), s0.power ≠ 0 →
      s = (if s0.calWaits 0 k = true then s0.takeOffset 0 k else s0) →
    Gives (.thermalSample k raw) s0 fun t => t = { s with regs := t.regs, temps := t.temps } ∧ KeepsRegs s t [Reg.TH_MAX]
      ∧ t.tempOf k = max (-32768) (min 32767 (signed 16 raw.toNat + signed 16 (s.fld (Reg.CALU_TRIM 0 k) 31 16)))
      ∧ (1920 ≤ signed 16 raw.toNat + signed 16 (s.fld (Reg.CALF_TRIM 0 k) 31 16) → t.hotSamples k = s.hotSamples k + 1)
      ∧ (signed 16 raw.toNat + signed 16 (s.fld (Reg.CALF_TRIM 0 k) 31 16) < 1920 → t.hotSamples k = 0)
      ∧ (∀ j, j ≠ k.val → t.tempOf j = s.tempOf j) ∧ t.tempOf k ≤ t.tempOf (t.fld Reg.TH_MAX 31 16)
      ∧ signed 16 (t.fld Reg.TH_MAX 15 0) = t.tempOf (t.fld Reg.TH_MAX 31 16))
  ∧ (∀ s : State, s.power ≠ 0 → s.fw.restart = none → Gives .thermalStep s fun t =>
      Announces s { t with pwr := s.pwr }
        ∧ t.pwr = { s.pwr with thermal := t.pwr.thermal } ∧ KeepsPages s t [pageBase Reg.TH_STEPS, pgCLK]
        ∧ (t.flag Reg.TH_STATE 0 = true ↔ t.pwr.thermal < 2200)
        ∧ ((∃ i < 128, ((16 * s.thermalLimit.1 : Nat) : Int) ≤ s.tempOf i) → t.pwr.thermal = max 1100 (s.pwr.thermal - 25))
        ∧ ((∀ i < 128, s.tempOf i ≤ (16 * (s.thermalLimit.1 - s.thermalLimit.2) : Nat)) →
            t.pwr.thermal = min 2200 (s.pwr.thermal + 25)))

/-- Fences, resets and firmware. A fence or reset of a unit stops it and drains what it has accepted (R358, R359); the end of
a drain goes to a dump, to RESET or to QUARANTINED (R369, R371), the end of RESET to PROBATION (R357), and one that passes to
admission at the next waypoint, with those it was fenced with (R48, R360, R361). A ward reset stops every unit of its ward; a
warm reset stops every unit of its scope, and once they all stand in RESET it leaves no ring, no chiplet state, no key and no
job (R355, R363); PERST_N low fences its host die alone, which drains and goes to RESET like any unit (R355, R358), and its
link trains once it is released and PWR_GOOD has stood for 100 µs (R356, R420); a function reset touches the rings and vectors
of its function alone. Watchdogs sample and expire (R368). PLDM writes the image that the boot descriptor does not name, and
the last piece of a transfer has it checked; ACTIVATE restarts on it, and it becomes active where it runs within 1 s (R372 to
R375, R377). HALT stops the job (R365). That a second warm reset is the same one, what stands in the middle of a warm reset,
and that one in WATCH does nothing, are the model's reading (assumption 54); that an image comes piece by piece and its checks
with the last piece is its choice (assumption 56). -/
def Obligations.FencesResetsAndFirmware : Prop :=
  (∀ (who : Requester) (u : UnitId) (dump : Bool) (s : State), MayCommand s who (unitPage u) →
      (s.unfenced u = true →
        (Gives (.fence who u dump) s fun t => (t.unit u).phase = .draining ∧ (t.unit u).kind = .host ∧ (t.unit u).dumpDue = dump
          ∧ (t.unit u).fenceAt = s.now ∧ KeepsMemBut s t (s.regionAddr 0) (s.regionSize 0)
          ∧ ((∀ k, u ≠ .codec k) → KeepsMem s t))
        ∧ Gives (.unitReset who u) s fun t => (t.unit u).phase = .draining ∧ (t.unit u).kind = .unitReset
          ∧ (t.unit u).dumpDue = false ∧ (t.unit u).fenceAt = s.now ∧ KeepsMemBut s t (s.regionAddr 0) (s.regionSize 0)
          ∧ ((∀ k, u ≠ .codec k) → KeepsMem s t))
      ∧ ((s.unit u).phase = .quarantined →
        (Gives (.fence who u dump) s fun t => t = { s with regs := t.regs } ∧ KeepsRegs s t [unitPage u + Hdr.FENCE_CTRL])
        ∧ Gives (.unitReset who u) s fun t => t = s))
  ∧ (∀ (u : UnitId) (s : State), (s.unit u).phase = .draining → s.outstanding u = 0 → s.wardDue = [] → s.warmDue = none →
      ((s.unit u).dumpDue = true → s.dump = none → s.flag Reg.FLT_DUMP_CTRL 31 = true → Gives (.drainEnd u) s fun t =>
        (t.unit u).phase = .dumping ∧ (∃ d, t.dump = some d ∧ d.unit = u ∧ d.bytes = [] ∧ d.cause = (s.unit u).dumpCause
          ∧ d.time = (s.unit u).fenceAt) ∧ KeepsMem s t)
      ∧ ((s.unit u).dumpDue = false → (s.unit u).kind.fault = false → Gives (.drainEnd u) s fun t => (t.unit u).phase = .reset
        ∧ ∀ d, u = .hostDie d → ∀ i : Fin 63, t.funcFrozen ⟨d, i⟩ = false)
      ∧ ((s.unit u).dumpDue = false → (s.unit u).kind.fault = true → (s.escalate).2 ≤ (s.recentResets u).length + 1 →
        Gives (.drainEnd u) s fun t => (t.unit u).phase = .quarantined ∧ Counts s t Reg.FLT_QUARANTINES 1 ∧ KeepsMem s t)
      ∧ ((s.unit u).dumpDue = false → (s.unit u).kind.fault = true → (s.recentResets u).length + 1 < (s.escalate).2 →
        Gives (.drainEnd u) s fun t => (t.unit u).phase = .reset ∧ Counts s t Reg.FLT_FAULT_RESETS 1
          ∧ (t.unit u).history = s.recentResets u ++ [s.now]))
  ∧ (∀ (u : UnitId) (ds : List Defect) (s : State), (s.unit u).phase = .draining → s.outstanding u = 0 → s.wardDue = [] →
      s.warmDue = some ds → (s.unit u).dumpDue = false → (s.unit u).kind.fault = false → u ∈ warmUnits →
      (∀ v ∈ warmUnits, v ≠ u → (s.unit v).phase = .reset ∨ (s.unit v).phase = .quarantined) →
    Gives (.drainEnd u) s fun t => t.warmDue = none ∧ (∀ v ∈ warmUnits, (t.unit v).phase = .reset) ∧ t.rings = []
      ∧ t.chiplets = [] ∧ t.keys = [] ∧ t.wp.job = false ∧ t.hostMem = s.hostMem ∧ ∀ e ∈ s.mem, inDram e.1 = true → e ∈ t.mem)
  ∧ (∀ (u : UnitId) (s : State), (s.unit u).phase = .draining → (s.unit u).fenceAt + s.drainLimit (unitWard u) ≤ s.now →
      (s.unit u).dumpDue = false → (s.unit u).kind.fault = false → s.warmDue = none → Gives (.drainTimeout u) s fun t =>
    (t.unit u).phase = .reset ∧ ((t.unit u).timedOut = true ↔ 0 < s.outstanding u))
  ∧ (∀ (d : Fin 2) (s : State), (s.unit (.hostDie d)).phase ≠ .draining → Gives (.drainTimeout (.hostDie d)) s fun t =>
    KeepsMemBut s t (s.regionAddr 0) (4 * s.fld Reg.UPD_SHARD 47 0) ∧ (s.handing = none → KeepsMem s t)
      ∧ ∀ n, ∀ f ∈ (s.ring n).flights, (s.ring n).st = .draining → s.ringDie n = d.val → f.status = none →
      (s.ring n).drainAt + min 50000000 (s.drainLimit 8) ≤ s.now → Ended t n f.idx f.bytes 2 0)
  ∧ (∀ (u : UnitId) (s : State), (s.unit u).phase = .reset → s.pwr.change ≠ .entering → s.warmDue = none →
      s.wardDue.contains (unitWard u) = false → (s.unit u).waitsFor.all s.leftReset = true → Gives (.resetComplete u) s fun t =>
    KeepsMem s t ∧ t.rings = s.rings
      ∧ (noProbation u = false → (t.unit u).phase = .probation
          ∧ ∀ k, u = .upd k → (t.upd k).recovering = ((s.restoreUpd k).journalLive k || !(s.upd k).held.isEmpty))
      ∧ (noProbation u = true → (s.unit u).waitsFor = [] → (t.unit u).phase = .normal)
      ∧ (noProbation u = true → (s.unit u).waitsFor ≠ [] → s.wp.job = true → (t.unit u).phase = .waiting))
  ∧ (∀ (u : UnitId) (s : State), (s.unit u).phase = .probation → (∀ k, u = .upd k → (s.upd k).recovering = false) →
      (Gives (.probationComplete u true) s fun t => (s.wp.job = true → (t.unit u).phase = .waiting)
        ∧ (s.wp.job = false → (∀ v ∈ s.companions u, v = u ∨ (s.unit v).phase.settled = true) → (t.unit u).phase = .normal)
        ∧ (t.unit u).saved = [] ∧ (t.unit u).probEnd = s.now ∧ KeepsMem s t ∧ t.rings = s.rings)
      ∧ Gives (.probationComplete u false) s fun t => (t.unit u).phase = .draining ∧ (t.unit u).kind = .selfTest)
  ∧ (∀ s : State, s.power ≠ 0 → s.fw.restart = none → Gives .watchdogSample s fun t => t = { s with units := t.units }
      ∧ ∀ u, (s.watched u = true → (t.unit u).wdValue = s.progressOf u ∧ (t.unit u).wdSince =
          if (s.unit u).wdSince = none ∨ (s.unit u).wdValue ≠ s.progressOf u then some s.now else (s.unit u).wdSince)
        ∧ (s.watched u = false → (t.unit u).wdSince = none) ∧ (t.unit u).phase = (s.unit u).phase)
  ∧ (∀ (u : UnitId) (t0 : Nat) (s : State), (s.unit u).wdSince = some t0 → s.watched u = true → s.unitCode u = 2 →
      s.fw.restart = none → (s.unit u).wdValue = s.progressOf u → t0 + s.wdogWindow u ≤ s.now →
    Gives (.watchdogExpiry u) s fun t => (t.unit u).phase = .draining ∧ (t.unit u).kind = .watchdog
      ∧ (t.unit u).dumpDue = true ∧ (t.unit u).dumpCause = 1 ∧ Counts s t Reg.FLT_WDOG_EXPIRED 1)
  ∧ (∀ (who : Requester) (s : State), MayCommand s who pgFLT →
      (Gives (.halt who) s fun t => t.wp.job = false ∧ t.flag Reg.FLT_JOB 31 = true ∧ Counts s t Reg.FLT_JOB_FAULTS 1
        ∧ KeepsMem s t ∧ (s.flag Reg.FLT_JOB 31 = false → t.fld Reg.FLT_JOB 27 24 = 11))
      ∧ (∀ u, unitIdent u = s.fld Reg.FLT_UNIT_SEL 15 0 → (s.unit u).phase = .quarantined → Gives (.unquarantine who) s fun t =>
        (t.unit u).phase = .draining ∧ (t.unit u).kind = .unitReset ∧ (t.unit u).history = [])
      ∧ (∀ w : Fin 9, w.val ≠ 0 → s.warmDue = none → Gives (.wardReset who w) s fun t => w.val ∈ t.wardFence
        ∧ ∀ u, unitWard u = w.val → (t.unit u).phase ≠ .normal ∧ (t.unit u).phase ≠ .probation ∧ (t.unit u).phase ≠ .waiting)
      ∧ (∀ l, s.power < 2 → Gives (.moduleWarmReset who l) s fun t => t = s)
      ∧ ∀ l, 2 ≤ s.power → (s.warmDue ≠ none → Gives (.moduleWarmReset who l) s fun t => t = s)
        ∧ (s.warmDue = none → Gives (.moduleWarmReset who l) s fun t => t.wp.job = false
          ∧ ∀ u ∈ warmUnits, (t.unit u).phase ≠ .normal ∧ (t.unit u).phase ≠ .probation ∧ (t.unit u).phase ≠ .waiting))
  ∧ (∀ (d : Fin 2) (s : State),
      (Gives (.fundamentalReset d) s fun t => d.val ∈ t.perst ∧ (∀ e, e ≠ d.val → (e ∈ t.perst ↔ e ∈ s.perst))
        ∧ (s.pwr.good = false → t = { s with perst := t.perst })
        ∧ (s.pwr.good = true → (s.unit (.hostDie d)).phase = .normal → (t.unit (.hostDie d)).phase = .draining
            ∧ (t.unit (.hostDie d)).kind = .wider ∧ (t.unit (.hostDie d)).fenceAt = s.now ∧ KeepsMem s t)
        ∧ ((s.unit (.hostDie d)).phase = .reset ∨ (s.unit (.hostDie d)).phase = .quarantined → t = { s with perst := t.perst }))
      ∧ Gives (.perstRelease d) s fun t => d.val ∉ t.perst ∧ (∀ e, e ≠ d.val → (e ∈ t.perst ↔ e ∈ s.perst)) ∧ t.rings = s.rings
        ∧ KeepsMem s t
        ∧ (d.val ∈ t.pwr.untrained ↔ d.val ∈ s.pwr.untrained ∧ ¬(s.wardPowered 8 = true ∧ 2 ≤ s.power
            ∧ (s.pwr.good = true → s.pwr.goodAt + 100000 ≤ s.now))))
  ∧ (∀ (f : Func) (s : State), s.wardPowered 8 = true → Gives (.functionLevelReset f) s fun t =>
      t = { s with regs := t.regs, rings := t.rings, msixMasked := t.msixMasked, msixPending := t.msixPending }
        ∧ t.funcFrozen f = false ∧ (∀ n, s.ringOwner n ≠ some (f.die.val, f.idx.val) → t.ring n = s.ring n)
        ∧ ∀ k, k / 4096 ≠ funcKey f.die f.idx → (k ∈ t.msixMasked ↔ k ∈ s.msixMasked))
  ∧ (∀ (off : Nat) (data : List Byte) (last : Bool) (s : State), s.power ≠ 0 → s.fw.restart = none →
    Gives (.firmwareUpdateWrite s.fw.boot0.active off data last) s fun t => t = s)
  ∧ (∀ (b : Bool) (off : Nat) (data : List Byte) (last : Bool) (s : State), s.power ≠ 0 → s.fw.restart = none →
      b ≠ s.fw.boot0.active → off + data.length ≤ 24 * 2 ^ 20 →
    Gives (.firmwareUpdateWrite b off data last) s fun t => t = { s with fw := t.fw }
      ∧ t.fw.boot0.active = s.fw.boot0.active ∧ t.fw.boot1 = t.fw.boot0 ∧ t.fw.running = s.fw.running
      ∧ t.fw.boot0.ok b = (last && imagePasses b (t.fw.image b)) ∧ t.fw.boot0.ok (!b) = s.fw.boot0.ok (!b)
      ∧ (∀ d, Mem.read d (t.fw.image b) off data.length = data) ∧ t.fw.image (!b) = s.fw.image (!b))
  ∧ (∀ (who : Requester) (ok : Bool) (s : State), MayCommand s who pgFW → s.fw.restart = none →
      ok = s.fw.boot0.ok (!s.fw.boot0.active) → Gives (.firmwareActivate who) s fun t =>
      t = { s with regs := t.regs, fw := { s.fw with restart := t.fw.restart } } ∧ KeepsRegs s t [Reg.FW_CTRL]
        ∧ (ok = false → t.fld Reg.FW_CTRL 30 28 = 4 ∧ t.fw.restart = none)
        ∧ (ok = true → s.fencesRun = true → t.fld Reg.FW_CTRL 30 28 = 5 ∧ t.fw.restart = none)
        ∧ (ok = true → s.fencesRun = false → t.fld Reg.FW_CTRL 30 28 = 1 ∧ t.fw.restart = some s.now))
  ∧ (∀ (t0 : Nat) (s : State), s.fw.restart = some t0 →
      (s.now < t0 + 1000000000 → Gives .firmwareRunning s fun t => Announces s { t with fw := s.fw }
        ∧ t.fw.restart = none ∧ t.fw.running = (!s.fw.boot0.active) ∧ t.fw.fallback = false ∧ t.fw.boot1 = t.fw.boot0
        ∧ t.fw.boot0 = { s.fw.boot0 with active := !s.fw.boot0.active } ∧ t.fw.imageA = s.fw.imageA ∧ t.fw.imageB = s.fw.imageB
        ∧ KeepsPages s t [pgFW] ∧ t.fld Reg.FW_CTRL 30 28 = 3 ∧ Counts s t Reg.FW_ACTIVATIONS 1
        ∧ bitOf (t.view Reg.FW_STATE) 0 = (!s.fw.boot0.active))
      ∧ (t0 + 1000000000 ≤ s.now → (Gives .firmwareRunning s fun t => t = s)
        ∧ Gives .bootFallback s fun t =>
          t.fw = { s.fw with restart := none } ∧ Counts s t Reg.FW_BOOT_FAIL 1 ∧ KeepsMem s t ∧ t.rings = s.rings))

/-- The side path and the pins. A register message of the side path reads, writes or snapshots a page with PF0's rights, a bad
address or an unpowered page is answered by its status (R397), a request that meets a restart is answered NOT_READY (R374),
and nothing answers in DORMANT. A dump marks the words that do not answer, is held once read, is read word by word and is
released (R369, R370). A sensor answers and an event message leaves the log (R398), and TRST_N low selects BYPASS (R415). The
bytes of MCTP, sensor and PLDM answers, the code 3 of an unknown sensor and the order of the status checks are the model's
choice (assumption 19); that the TAP is released by its next instruction is its reading (assumption 20). -/
def Obligations.SidePathAndPinsAnswer : Prop :=
  (∀ (page id : Word) (off : BitVec 16) (w bank clear cmd : Byte) (v : DWord) (b last : Bool) (n : Nat) (data : List Byte)
      (addr : BitVec 28) (s : State),
    ∀ c ∈ [(Instr.firmwareUpdateWrite b n data last, [1]), (.registerWrite .side addr n v, [1]), (.firmwareActivate .side, [1]),
        (.vdmRead page off w, [1]), (.vdmWrite page off w v, [1]), (.vdmSnapshot page bank clear, [1]),
        (.mctpControl cmd, [cmd, 1]), (.pldmSensorRead (id.setWidth 16), [1])],
      (s.power = 0 → Gives c.1 s fun t => t = s)
      ∧ (s.power ≠ 0 → s.fw.restart ≠ none → Gives c.1 s fun t => t = { s with out := s.out ++ [.side c.2] }))
  ∧ (∀ (page : Word) (off : BitVec 16) (w : Byte) (v : DWord) (bank clear : Byte) (s : State), s.sideReady = true →
      (∀ st, s.vdmBad page.toNat off.toNat w.toNat = some st →
        (Gives (.vdmRead page off w) s fun t => t = { s with out := s.out ++ [.side [st]] })
        ∧ Gives (.vdmWrite page off w v) s fun t => t = { s with out := s.out ++ [.side [st]] })
      ∧ (s.vdmBad page.toNat off.toNat w.toNat = none →
        (Gives (.vdmRead page off w) s fun t =>
          t.out.getLast? = some (.side (0 :: s.seenBytes .side (page.toNat + off.toNat) w.toNat)) ∧ KeepsMem s t)
        ∧ Gives (.vdmWrite page off w v) s fun t => t.out.getLast? = some (.side [0]))
      ∧ (s.vdmBad page.toNat 0 4 = none → s.unanswered page.toNat 0x1000 = false → Gives (.vdmSnapshot page bank clear) s fun t =>
          t = { s with regs := t.regs, out := t.out } ∧ t.out.length = s.out.length + 1
            ∧ (∀ a, pageBase (a % 2 ^ 32) ≠ page.toNat → t.reg a = s.reg a)
            ∧ t.fld (page.toNat + Hdr.SNAP_CTRL) 15 0 = (s.fld (page.toNat + Hdr.SNAP_CTRL) 15 0 + 1) % 2 ^ 16))
  ∧ (∀ (cmd : Byte) (s : State), s.sideReady = true →
    Gives (.mctpControl cmd) s fun t => t = { s with out := s.out ++ [.side ([cmd, 0] ++ mctpBody cmd)] })
  ∧ (∀ (id : BitVec 16) (s : State), s.sideReady = true → Gives (.pldmSensorRead id) s fun t =>
      t = { s with out := t.out, freeCount := t.freeCount } ∧ (1 ≤ id.toNat → id.toNat ≤ 128 →
          t.out = s.out ++ [.side (0 :: leBytes 4 (unsigned 16 (s.tempOf (id.toNat - 1))))])
        ∧ (id.toNat = 130 → t.out = s.out ++ [.side (0 :: leBytes 4 (s.fld Reg.PWR_INPUT 31 16))])
        ∧ (id.toNat = 131 → t.out = s.out ++ [.side (0 :: leBytes 4 (s.fld Reg.PWR_INPUT 15 0))])
        ∧ (132 ≤ id.toNat → id.toNat ≤ 139 → ∃ v, t.out = s.out ++ [.side (0 :: leBytes 4 v)])
        ∧ (id.toNat = 0 ∨ (139 < id.toNat ∧ id.toNat ≠ 200 ∧ id.toNat ≠ 201) → t.out = s.out ++ [.side [3]])
        ∧ (id.toNat = 129 → t.out = s.out ++ [.side (0 :: leBytes 4 (s.fld Reg.PWR_AVG 11 0))])
        ∧ (id.toNat = 200 → t.out = s.out ++ [.side (0 :: leBytes 4 s.power)])
        ∧ (id.toNat = 201 → t.out = s.out ++ [.side (0 :: leBytes 4 (s.fld Reg.FLT_JOB 31 31))]))
  ∧ (∀ (i p b : Nat) (r : List (Nat × Nat × Nat)) (s : State), s.pldm = (i, p, b) :: r → s.sideReady = true →
    Gives .pldmEventDelivery s fun t =>
      t = { s with pldm := r, out := s.out ++ [.side (leBytes 4 i ++ leBytes 4 p ++ leBytes 4 b)] })
  ∧ (∀ (addr : BitVec 48) (d : Dump) (s : State), s.dump = some d → d.bytes = [] → s.dumpHas d addr.toNat = true →
      addr.toNat ∉ d.marks → Gives (.dumpWordTimeout addr) s fun t =>
    Announces s { t with dump := s.dump } ∧ t.dump = some { d with marks := d.marks ++ [addr.toNat] }
      ∧ KeepsPages s t [pgFLT] ∧ Counts s t Reg.FLT_DUMP_UNREADABLE 1)
  ∧ (∀ (u : UnitId) (d : Dump) (s : State), s.dump = some d → d.unit = u → d.bytes = [] → (s.unit u).phase = .dumping →
      (s.unit u).kind.fault = false → s.wardDue = [] → s.warmDue = none → Gives (.dumpComplete u) s fun t => (t.unit u).phase = .reset
        ∧ (t.unit u).dumpTaken = true ∧ t.dump = some { d with bytes := (s.dumpBytes d).1 } ∧ Counts s t Reg.FLT_DUMPS 1
        ∧ t.flag Reg.FLT_DUMP_STATUS 31 = true ∧ t.fld Reg.FLT_DUMP_STATUS 23 0 = (s.dumpBytes d).1.length)
  ∧ (∀ (who : Requester) (d : Dump) (s : State), MayCommand s who pgFLT → s.dump = some d → d.bytes ≠ [] →
      (Gives (.dumpRelease who) s fun t => t = { s with regs := t.regs, dump := none } ∧ KeepsRegs s t [Reg.FLT_DUMP_STATUS]
        ∧ t.reg Reg.FLT_DUMP_STATUS = 0)
      ∧ Gives (.dumpDataRead who) s fun t =>
        t.out = s.out ++ [.value who (BitVec.ofNat 64 (fieldAt d.bytes (s.fld Reg.FLT_DUMP_ADDR 22 0 / 4 * 4) 4))]
          ∧ t = { s with regs := t.regs, out := t.out } ∧ KeepsRegs s t [Reg.FLT_DUMP_ADDR]
          ∧ t.reg Reg.FLT_DUMP_ADDR = (s.fld Reg.FLT_DUMP_ADDR 22 0 / 4 * 4 + 4) % 2 ^ 23)
  ∧ (∀ (i : TapInstr) (s : State),
      (Gives .tapReset s fun t => t = { s with pads := { s.pads with tapReset := true, tap := .bypass } } ∧ t.tapInForce = .bypass)
      ∧ (s.power ≠ 0 → Gives (.tapInstruction i) s fun t => t = { s with pads := { s.pads with tapReset := false, tap := i } }
        ∧ (t.tapInForce = if drivesPins i = true ∧ s.anyRingActive = true then .bypass else i)))
end

