-- ==== Sys2Proof/Laws/Map.lean ====
section
/-! SUPPORT. Sparse tables: reading after a change, and the canonical form. -/

namespace Sys2Proof.Machine

variable {α : Type}

theorem Map.find_drop (m : Map α) (k j : Nat) : Map.find (Map.drop m k) j = if j = k then none else Map.find m j := by
  induction m with
  | nil => simp [Map.drop, Map.find]
  | cons e r ih =>
    by_cases he : e.1 = k
    · by_cases hj : j = k
      · subst hj
        simpa [Map.drop, he] using ih
      · have hne : ¬ k = j := fun h => hj h.symm
        simp [Map.drop, he, ih, hj, Map.find, hne]
    · by_cases hj : e.1 = j
      · have : j ≠ k := hj ▸ he
        simp [Map.drop, Map.find, hj, this]
      · simp [Map.drop, he, Map.find, hj, ih]

theorem Map.find_add (m : Map α) (k j : Nat) (v : α) (h : Map.find m k = none) :
    Map.find (Map.add m k v) j = if j = k then some v else Map.find m j := by
  induction m with
  | nil => simp [Map.add, Map.find, eq_comm]
  | cons e r ih =>
    have hk : e.1 ≠ k := by
      intro he
      simp [Map.find, he] at h
    have hr : Map.find r k = none := by simpa [Map.find, hk] using h
    by_cases hlt : k < e.1
    · simp [Map.add, hlt, Map.find, eq_comm]
    · by_cases hj : e.1 = j
      · subst hj
        simp [Map.add, hlt, Map.find, hk]
      · simp [Map.add, hlt, Map.find, hj, ih hr]

/-- Reading a table after a put. -/
theorem Map.get_put [DecidableEq α] (d : Nat → α) (m : Map α) (k j : Nat) (v : α) :
    Map.get d (Map.put d m k v) j = if j = k then v else Map.get d m j := by
  unfold Map.put Map.get
  by_cases hv : v = d k
  · by_cases hj : j = k
    · simp [hv, Map.find_drop, hj]
    · simp [hv, Map.find_drop, hj]
  · have h : Map.find (Map.drop m k) k = none := by simp [Map.find_drop]
    by_cases hj : j = k
    · simp [hv, Map.find_add _ _ _ _ h, hj]
    · simp [hv, Map.find_add _ _ _ _ h, Map.find_drop, hj]

@[simp] theorem Map.get_put_self [DecidableEq α] (d : Nat → α) (m : Map α) (k : Nat) (v : α) :
    Map.get d (Map.put d m k v) k = v := by simp [Map.get_put]

theorem Map.get_put_ne [DecidableEq α] (d : Nat → α) (m : Map α) {k j : Nat} (v : α) (h : j ≠ k) :
    Map.get d (Map.put d m k v) j = Map.get d m j := by simp [Map.get_put, h]

/-- Every key is above a bound. -/
theorem Map.rising_cons (e : Nat × α) (r : Map α) :
    Map.rising (e :: r) = true ↔ (∀ x ∈ r, e.1 < x.1) ∧ Map.rising r = true := by
  induction r generalizing e with
  | nil => simp [Map.rising]
  | cons a t ih =>
    simp only [Map.rising, Bool.and_eq_true, decide_eq_true_eq]
    constructor
    · rintro ⟨h, hr⟩
      refine ⟨?_, hr⟩
      intro x hx
      rcases List.mem_cons.mp hx with rfl | hx
      · exact h
      · exact Nat.lt_trans h (((ih a).mp hr).1 x hx)
    · rintro ⟨h, hr⟩
      exact ⟨h a List.mem_cons_self, hr⟩

theorem Map.mem_drop (m : Map α) (k : Nat) (x : Nat × α) : x ∈ Map.drop m k ↔ x ∈ m ∧ x.1 ≠ k := by
  induction m with
  | nil => simp [Map.drop]
  | cons e r ih =>
    by_cases he : e.1 = k
    · simp only [Map.drop, he, if_true, ih, List.mem_cons]
      constructor
      · rintro ⟨h, hk⟩; exact ⟨Or.inr h, hk⟩
      · rintro ⟨rfl | h, hk⟩
        · exact absurd he hk
        · exact ⟨h, hk⟩
    · simp only [Map.drop, he, if_false, List.mem_cons, ih]
      constructor
      · rintro (rfl | ⟨h, hk⟩)
        · exact ⟨Or.inl rfl, he⟩
        · exact ⟨Or.inr h, hk⟩
      · rintro ⟨rfl | h, hk⟩
        · exact Or.inl rfl
        · exact Or.inr ⟨h, hk⟩

theorem Map.rising_drop (m : Map α) (k : Nat) (h : Map.rising m = true) : Map.rising (Map.drop m k) = true := by
  induction m with
  | nil => rfl
  | cons e r ih =>
    have hr := (Map.rising_cons e r).mp h
    by_cases he : e.1 = k
    · simpa [Map.drop, he] using ih hr.2
    · simp only [Map.drop, he, if_false]
      refine (Map.rising_cons _ _).mpr ⟨fun x hx => hr.1 x ((Map.mem_drop r k x).mp hx).1, ih hr.2⟩

theorem Map.mem_add (m : Map α) (k : Nat) (v : α) (x : Nat × α) : x ∈ Map.add m k v ↔ x = (k, v) ∨ x ∈ m := by
  induction m with
  | nil => simp [Map.add]
  | cons e r ih =>
    by_cases h : k < e.1
    · simp [Map.add, h]
    · simp only [Map.add, h, if_false, List.mem_cons, ih]
      tauto

theorem Map.rising_add (m : Map α) (k : Nat) (v : α) (h : Map.rising m = true) (hk : ∀ x ∈ m, x.1 ≠ k) :
    Map.rising (Map.add m k v) = true := by
  induction m with
  | nil => rfl
  | cons e r ih =>
    have hr := (Map.rising_cons e r).mp h
    by_cases hlt : k < e.1
    · simp only [Map.add, hlt, if_true]
      refine (Map.rising_cons _ _).mpr ⟨?_, h⟩
      intro x hx
      rcases List.mem_cons.mp hx with rfl | hx
      · exact hlt
      · exact Nat.lt_trans hlt (hr.1 x hx)
    · simp only [Map.add, hlt, if_false]
      refine (Map.rising_cons _ _).mpr ⟨?_, ih hr.2 fun x hx => hk x (List.mem_cons_of_mem _ hx)⟩
      intro x hx
      rcases (Map.mem_add r k v x).mp hx with rfl | hx
      · have := hk e List.mem_cons_self
        simp only [ne_eq] at this
        show e.1 < k
        omega
      · exact hr.1 x hx

/-- A put keeps the canonical form. -/
theorem Map.wf_put [DecidableEq α] (d : Nat → α) (m : Map α) (k : Nat) (v : α) (h : Map.wf d m = true) :
    Map.wf d (Map.put d m k v) = true := by
  simp only [Map.wf, Bool.and_eq_true, Map.lean, List.all_eq_true, decide_eq_true_eq] at h ⊢
  have hdrop := Map.rising_drop m k h.1
  have hne : ∀ x ∈ Map.drop m k, x.1 ≠ k := fun x hx => ((Map.mem_drop m k x).mp hx).2
  unfold Map.put
  by_cases hv : v = d k
  · simp only [hv, if_true]
    exact ⟨hdrop, fun x hx => h.2 x ((Map.mem_drop m k x).mp hx).1⟩
  · simp only [hv, if_false]
    refine ⟨Map.rising_add _ _ _ hdrop hne, fun x hx => ?_⟩
    rcases (Map.mem_add _ _ _ x).mp hx with rfl | hx
    · exact hv
    · exact h.2 x ((Map.mem_drop m k x).mp hx).1

end Sys2Proof.Machine
end

