-- ==== Sys2Proof/Laws/Memory.lean ====
section
/-! SUPPORT. Memory: one byte read after a write, and the canonical form under every memory operation. -/

namespace Sys2Proof.Machine

/-! ### One byte -/

theorem Map.find_append {α : Type} (l r : Map α) (k : Nat) :
    Map.find (l ++ r) k = (Map.find l k).or (Map.find r k) := by
  induction l with
  | nil => simp [Map.find]
  | cons e t ih =>
    by_cases h : e.1 = k
    · simp [Map.find, h]
    · simp [Map.find, h, ih]

theorem Map.find_filter {α : Type} (p : Nat → Bool) (l : Map α) (k : Nat) :
    Map.find (l.filter fun e => p e.1) k = if p k then Map.find l k else none := by
  induction l with
  | nil => simp [Map.find]
  | cons e t ih =>
    by_cases hp : p e.1 = true
    · by_cases h : e.1 = k
      · subst h; simp [Map.find, hp]
      · simp [hp, Map.find, h, ih]
    · by_cases h : e.1 = k
      · subst h; simp [hp, ih]
      · simp [hp, Map.find, h, ih]

theorem find_numbered (a : Nat) (bs : List Byte) (k : Nat) :
    Map.find (numbered a bs) k = if a ≤ k then bs[k - a]? else none := by
  induction bs generalizing a with
  | nil => simp [numbered, Map.find]
  | cons b r ih =>
    by_cases h : a = k
    · subst h; simp [numbered, Map.find]
    · by_cases hlt : a ≤ k
      · have h1 : a + 1 ≤ k := by omega
        have h2 : k - a = (k - (a + 1)) + 1 := by omega
        simp [numbered, Map.find, h, ih, hlt, h1, h2]
      · have h1 : ¬ a + 1 ≤ k := by omega
        simp [numbered, Map.find, h, ih, hlt, h1]

/-- One byte of a memory. -/
theorem Mem.read_one (d : Nat → Byte) (m : List Host.Cell) (a : Nat) :
    Mem.read d m a 1 = [(Map.find m a).getD (d a)] := by
  have h1 : ∀ x : Nat, (decide (a ≤ x) && decide (x < a + 1)) = decide (x = a) := by
    intro x
    by_cases h : x = a
    · subst h; simp
    · simp only [h, decide_false]
      by_cases h2 : a ≤ x
      · have : ¬ x < a + 1 := by omega
        simp [this]
      · simp [h2]
  have h2 : Map.find (m.filter fun e => decide (e.1 = a)) a = Map.find m a := by
    have := Map.find_filter (fun x => decide (x = a)) m a
    simpa using this
  unfold Mem.read
  simp only [h1]
  rw [← h2]
  cases hl : m.filter fun e => decide (e.1 = a) with
  | nil => simp [fillBytes, Map.find]
  | cons e t =>
    have he : e ∈ m.filter fun e => decide (e.1 = a) := by rw [hl]; exact List.mem_cons_self
    have : e.1 = a := by simpa using (List.mem_filter.mp he).2
    simp [fillBytes, Map.find, this]

/-- One byte after a write: a written byte inside the range, the old byte outside it. -/
theorem Mem.find_write (m : List Host.Cell) (a : Nat) (bs : List Byte) (k : Nat) :
    Map.find (Mem.write m a bs) k = if a ≤ k ∧ k < a + bs.length then bs[k - a]? else Map.find m k := by
  unfold Mem.write
  rw [Map.find_append, Map.find_append, find_numbered]
  have f1 := Map.find_filter (fun x => decide (x < a)) m k
  have f2 := Map.find_filter (fun x => decide (a + bs.length ≤ x)) m k
  rw [f1, f2]
  by_cases h1 : k < a
  · have h2 : ¬ a ≤ k := by omega
    have h3 : ¬ a + bs.length ≤ k := by omega
    simp [h1, h2, h3]
  · have h2 : a ≤ k := by omega
    by_cases h3 : k < a + bs.length
    · have h4 : ¬ a + bs.length ≤ k := by omega
      simp [h1, h2, h3, h4]
    · have h4 : a + bs.length ≤ k := by omega
      have h5 : bs[k - a]? = none := by simp; omega
      simp [h1, h2, h3, h4, h5]

/-! ### The canonical form -/

theorem Map.rising_iff {α : Type} (m : Map α) : Map.rising m = true ↔ m.Pairwise fun x y => x.1 < y.1 := by
  induction m with
  | nil => simp [Map.rising]
  | cons e r ih => rw [Map.rising_cons, List.pairwise_cons, ih]

theorem numbered_rising (a : Nat) (bs : List Byte) :
    (numbered a bs).Pairwise (fun x y => x.1 < y.1) ∧ ∀ x ∈ numbered a bs, a ≤ x.1 ∧ x.1 < a + bs.length := by
  induction bs generalizing a with
  | nil => simp [numbered]
  | cons b r ih =>
    have h := ih (a + 1)
    simp only [numbered, List.pairwise_cons, List.mem_cons, List.length_cons]
    refine ⟨⟨fun x hx => ?_, h.1⟩, ?_⟩
    · have := (h.2 x hx).1
      show a < x.1
      omega
    · rintro x (rfl | hx)
      · exact ⟨Nat.le_refl _, by show a < a + (r.length + 1); omega⟩
      · have := h.2 x hx
        omega

/-- A write keeps the canonical form. -/
theorem Mem.wf_write (m : List Host.Cell) (a : Nat) (bs : List Byte) (h : Memory.wf m) : Memory.wf (Mem.write m a bs) := by
  unfold Memory.wf at h ⊢
  rw [Map.rising_iff] at h ⊢
  have hn := numbered_rising a bs
  unfold Mem.write
  refine List.pairwise_append.mpr ⟨h.filter _, List.pairwise_append.mpr ⟨hn.1, h.filter _, ?_⟩, ?_⟩
  · intro x hx y hy
    have h1 := (hn.2 x hx).2
    have h2 : a + bs.length ≤ y.1 := by simpa using (List.mem_filter.mp hy).2
    omega
  · intro x hx y hy
    have h1 : x.1 < a := by simpa using (List.mem_filter.mp hx).2
    rcases List.mem_append.mp hy with hy | hy
    · have := (hn.2 y hy).1; omega
    · have : a + bs.length ≤ y.1 := by simpa using (List.mem_filter.mp hy).2
      omega

theorem Mem.wf_restore (m old : List Host.Cell) (b : Nat) (h : Memory.wf m) (ho : Memory.wf old) :
    Memory.wf (Mem.restore m old b) := by
  unfold Memory.wf at h ho ⊢
  rw [Map.rising_iff] at h ho ⊢
  unfold Mem.restore
  refine List.pairwise_append.mpr ⟨h.filter _, List.pairwise_append.mpr ⟨ho.filter _, h.filter _, ?_⟩, ?_⟩
  · intro x hx y hy
    have h1 : b ≤ x.1 ∧ x.1 < b + 64 := by simpa using (List.mem_filter.mp hx).2
    have h2 : b + 64 ≤ y.1 := by simpa using (List.mem_filter.mp hy).2
    omega
  · intro x hx y hy
    have h1 : x.1 < b := by simpa using (List.mem_filter.mp hx).2
    rcases List.mem_append.mp hy with hy | hy
    · have : b ≤ y.1 ∧ y.1 < b + 64 := by simpa using (List.mem_filter.mp hy).2
      omega
    · have : b + 64 ≤ y.1 := by simpa using (List.mem_filter.mp hy).2
      omega

theorem Mem.wf_restores (l : List Nat) (m old : List Host.Cell) (h : Memory.wf m) (ho : Memory.wf old) :
    Memory.wf (l.foldl (fun m b => Mem.restore m old b) m) := by
  induction l generalizing m with
  | nil => exact h
  | cons b r ih => exact ih _ (Mem.wf_restore m old b h ho)

/-- An unguarded store keeps the canonical form. -/
theorem State.wf_store (s : State) (a : Nat) (bs : List Byte) (h : Memory.wf s.mem) : Memory.wf (s.store a bs).mem :=
  Mem.wf_restores _ _ _ (Mem.wf_write _ _ _ h) h

/-- A store where no uncorrectable burst lies: one byte after it. -/
theorem State.byte_store (s : State) (a : Nat) (bs : List Byte) (k : Nat) (h : s.tornBursts a bs.length = []) :
    (s.store a bs).load k 1 =
      if a ≤ k ∧ k < a + bs.length then [bs[k - a]?.getD (s.blank k)] else s.load k 1 := by
  unfold State.load
  rw [Mem.read_one, Mem.read_one]
  have hm : (s.store a bs).mem = Mem.write s.mem a bs := by simp [State.store, h]
  rw [hm, Mem.find_write]
  by_cases hk : a ≤ k ∧ k < a + bs.length
  · simp only [hk, and_self, if_true]
    rfl
  · simp only [hk, if_false]
    rfl

theorem State.wf_setReg (s : State) (a v : Nat) (h : Memory.wf s.mem) : Memory.wf (s.setReg a v).mem := h

end Sys2Proof.Machine
end

