-- ==== Sys2Proof/Laws/Ops.lean ====
section
/-! SUPPORT. Registers, counters and events: what each operation writes and what it leaves alone. -/

namespace Sys2Proof.Machine

/-! ### Registers -/

theorem State.reg_setReg (s : State) (a v b : Nat) :
    (s.setReg a v).reg b = if b = a then v % 2 ^ 64 else s.reg b := by
  unfold State.reg State.setReg
  rw [Map.get_put]
  by_cases h : b = a <;> simp [h]

@[simp] theorem State.reg_setReg_self (s : State) (a v : Nat) : (s.setReg a v).reg a = v % 2 ^ 64 := by
  simp [State.reg_setReg]

theorem State.reg_setReg_ne (s : State) {a b : Nat} (v : Nat) (h : b ≠ a) : (s.setReg a v).reg b = s.reg b := by
  simp [State.reg_setReg, h]

theorem State.reg_setFld_ne (s : State) {a b : Nat} (hi lo v : Nat) (h : b ≠ a) : (s.setFld a hi lo v).reg b = s.reg b :=
  s.reg_setReg_ne _ h

theorem State.fld_setReg_ne (s : State) {a b : Nat} (v hi lo : Nat) (h : b ≠ a) :
    (s.setReg a v).fld b hi lo = s.fld b hi lo := by simp [State.fld, State.reg_setReg, h]

theorem State.reg_lt (s : State) (a : Nat) : s.reg a < 2 ^ 64 := (Map.get regReset s.regs a).isLt

/-- A field of a number after it was put. -/
theorem bitsOf_putBits (x hi lo v : Nat) : bitsOf (putBits x hi lo v) hi lo = v % 2 ^ (hi + 1 - lo) := by
  unfold bitsOf putBits bitsOf
  simp only [Nat.shiftRight_eq_div_pow, Nat.shiftLeft_eq]
  have h := Nat.div_add_mod x (2 ^ lo)
  have hw := Nat.div_add_mod (x / 2 ^ lo) (2 ^ (hi + 1 - lo))
  set w := 2 ^ (hi + 1 - lo) with hwdef
  set p := 2 ^ lo with hp
  have ppos : 0 < p := by positivity
  have wpos : 0 < w := by positivity
  have key : x - x / p % w * p = p * (w * (x / p / w)) + x % p := by
    have e : x = p * (w * (x / p / w)) + (x / p % w) * p + x % p := by
      calc x = p * (x / p) + x % p := h.symm
        _ = p * (w * (x / p / w) + x / p % w) + x % p := by rw [hw]
        _ = _ := by ring
    omega
  rw [key]
  have e2 : p * (w * (x / p / w)) + x % p + v % w * p = x % p + p * (w * (x / p / w) + v % w) := by ring
  rw [e2, Nat.add_mul_div_left _ _ ppos, Nat.div_eq_of_lt (Nat.mod_lt _ ppos), Nat.zero_add, Nat.mul_add_mod,
    Nat.mod_mod]

theorem putBits_lt (x hi lo v n : Nat) (hx : x < 2 ^ n) (hh : lo ≤ hi) (hn : hi < n) : putBits x hi lo v < 2 ^ n := by
  unfold putBits bitsOf
  simp only [Nat.shiftRight_eq_div_pow, Nat.shiftLeft_eq]
  have hw := Nat.div_add_mod (x / 2 ^ lo) (2 ^ (hi + 1 - lo))
  have h := Nat.div_add_mod x (2 ^ lo)
  set w := 2 ^ (hi + 1 - lo) with hwdef
  set p := 2 ^ lo with hp
  have ppos : 0 < p := by positivity
  have wpos : 0 < w := by positivity
  have wp : w * p = 2 ^ (hi + 1) := by rw [hwdef, hp, ← pow_add]; congr 1; omega
  have hnn : 2 ^ n = w * p * 2 ^ (n - (hi + 1)) := by rw [wp, ← pow_add]; congr 1; omega
  set r := 2 ^ (n - (hi + 1)) with hr
  have vlt : v % w < w := Nat.mod_lt _ wpos
  have top : x / p / w < r := by
    rw [Nat.div_div_eq_div_mul, Nat.div_lt_iff_lt_mul (by positivity)]
    calc x < 2 ^ n := hx
      _ = r * (p * w) := by rw [hnn]; ring
  have e : x = p * (w * (x / p / w)) + (x / p % w) * p + x % p := by
    calc x = p * (x / p) + x % p := h.symm
      _ = p * (w * (x / p / w) + x / p % w) + x % p := by rw [hw]
      _ = _ := by ring
  have key : x - x / p % w * p = p * (w * (x / p / w)) + x % p := by omega
  rw [key, hnn]
  have xm : x % p < p := Nat.mod_lt _ ppos
  calc p * (w * (x / p / w)) + x % p + v % w * p < p * (w * (x / p / w)) + p + v % w * p := by omega
    _ = p * (w * (x / p / w) + (v % w + 1)) := by ring
    _ ≤ p * (w * (x / p / w) + w) := Nat.mul_le_mul_left _ (by omega)
    _ = p * w * (x / p / w + 1) := by ring
    _ ≤ p * w * r := Nat.mul_le_mul_left _ top
    _ = w * p * r := by ring

/-- A field after it was set. -/
theorem State.fld_setFld (s : State) (a hi lo v : Nat) (hh : lo ≤ hi) (hn : hi < 64) :
    (s.setFld a hi lo v).fld a hi lo = v % 2 ^ (hi + 1 - lo) := by
  unfold State.fld State.setFld
  rw [State.reg_setReg_self, Nat.mod_eq_of_lt (putBits_lt _ _ _ _ _ (s.reg_lt a) hh hn), bitsOf_putBits]

theorem State.fld_setFld_ne (s : State) {a b : Nat} (hi lo v h2 l2 : Nat) (h : b ≠ a) :
    (s.setFld a hi lo v).fld b h2 l2 = s.fld b h2 l2 := State.fld_setReg_ne _ _ _ _ h

/-! ### What registers announce -/

theorem Announces.refl (s : State) : Announces s s := rfl

theorem Announces.trans {s t u : State} (h : Announces s t) (g : Announces t u) : Announces s u := by
  unfold Announces at *
  rw [g, h]

theorem announces_setReg (s : State) (a v : Nat) : Announces s (s.setReg a v) := rfl
theorem announces_setFld (s : State) (a hi lo v : Nat) : Announces s (s.setFld a hi lo v) := rfl
theorem announces_emit (s : State) (o : Output) : Announces s (s.emit o) := rfl
theorem announces_irqCount (s : State) : Announces s s.irqCount := rfl

theorem announces_msixTry {s t : State} {die : Nat} {idx : Option Nat} {v : Nat} (h : s.msixTry die idx v = some t) :
    Announces s t := by
  unfold State.msixTry at h
  split at h
  · cases h
  · dsimp only at h
    split at h
    · cases h
    · split at h
      · cases h
        split
        · exact Announces.refl s
        · rfl
      · cases h
        rfl

theorem announces_getD {s d : State} {o : Option State} (h : ∀ t, o = some t → Announces s t) (hd : Announces s d) :
    Announces s (o.getD d) := by
  cases o with
  | none => exact hd
  | some t => exact h t rfl

theorem announces_signalVia (s : State) (drop : State → State) (page : Nat) (hd : ∀ u, Announces u (drop u)) :
    Announces s (s.signalVia drop page) := by
  have h : ∀ die idx v, Announces s ((s.msixTry die idx v).getD (drop s)) := fun _ _ _ =>
    announces_getD (fun _ h => announces_msixTry h) (hd s)
  unfold State.signalVia
  dsimp only
  split <;> split
  · exact Announces.trans (h _ _ _) rfl
  · exact h _ _ _
  · exact Announces.trans (Announces.refl s) rfl
  · exact Announces.refl s

theorem announces_raiseVia (s : State) (drop : State → State) (page bits : Nat) (hd : ∀ u, Announces u (drop u)) :
    Announces s (s.raiseVia drop page bits) := by
  unfold State.raiseVia
  dsimp only
  split
  · exact (announces_setReg _ _ _).trans (announces_signalVia _ _ _ hd)
  · exact announces_setReg _ _ _

theorem announces_irqDropped (s : State) : Announces s s.irqDropped := by
  unfold State.irqDropped
  dsimp only
  split
  · exact ((announces_irqCount s).trans (announces_setReg _ _ _)).trans (announces_raiseVia _ _ _ _ announces_irqCount)
  · exact announces_irqCount s

theorem announces_msix (s : State) (die : Nat) (idx : Option Nat) (v : Nat) : Announces s (s.msix die idx v) :=
  announces_getD (fun _ h => announces_msixTry h) (announces_irqDropped s)

theorem announces_signalPage (s : State) (page : Nat) : Announces s (s.signalPage page) :=
  announces_signalVia _ _ _ announces_irqDropped

theorem announces_raiseBits (s : State) (page bits : Nat) : Announces s (s.raiseBits page bits) :=
  announces_raiseVia _ _ _ _ announces_irqDropped

theorem announces_raise (s : State) (page n : Nat) : Announces s (s.raise page n) := announces_raiseBits _ _ _

theorem announces_countAt (s : State) (a : Nat) (b : Option Nat) (n : Nat) : Announces s (s.countAt a b n) := by
  unfold State.countAt
  cases b <;> dsimp only <;> split
  · exact ((announces_setReg _ _ _).trans (announces_setReg _ _ _)).trans (announces_raise _ _ _)
  · exact announces_setReg _ _ _
  · exact ((announces_setReg _ _ _).trans (announces_setReg _ _ _)).trans (announces_raise _ _ _)
  · exact announces_setReg _ _ _

theorem announces_count (s : State) (a n : Nat) : Announces s (s.count a n) := announces_countAt _ _ _ _
theorem announces_tally (s : State) (a : Nat) : Announces s (s.tally a) := announces_countAt s a none 1
theorem announces_progress (s : State) (p n : Nat) : Announces s (s.progress p n) := rfl

theorem announces_dropped (s : State) (who : Requester) : Announces s (s.dropped who) := by
  unfold State.dropped
  split
  · exact announces_tally _ _
  · exact announces_tally _ _
  · exact Announces.refl s

/-- A request whose path is shut is answered at most. -/
theorem announces_notReady (s : State) (who : Requester) : Announces s (s.notReady who) := by
  unfold State.notReady State.sideRequest
  split
  · split
    · exact Announces.refl s
    · split
      · exact announces_emit _ _
      · exact Announces.refl s
  · exact Announces.refl s

/-- What only announces leaves memory alone. -/
theorem Announces.mem {s t : State} (h : Announces s t) : t.mem = s.mem := by rw [h]
theorem Announces.memEpoch {s t : State} (h : Announces s t) : t.memEpoch = s.memEpoch := by rw [h]
theorem Announces.keepsMem {s t : State} (h : Announces s t) : KeepsMem s t := by
  intro a
  simp only [State.load, h.mem, show t.blank = s.blank by unfold State.blank; rw [h.memEpoch]]
theorem Announces.pending {s t : State} (h : Announces s t) : t.pending = s.pending := by rw [h]
theorem Announces.now {s t : State} (h : Announces s t) : t.now = s.now := by rw [h]

/-! ### Register commands -/

/-- A register command without the right to it: at most an answer or the count of a dropped write. -/
theorem command_denied (s : State) (who : Requester) (page : Nat) (f : State → State) (h : asPF0 who = false) :
    Announces s (s.command who page f) := by
  unfold State.command
  split
  · exact announces_notReady _ _
  · simp only [h, Bool.not_false, if_true]
    exact announces_dropped _ _

/-- A register command with the right to it. -/
theorem command_may (s : State) (who : Requester) (page : Nat) (f : State → State) (h : MayCommand s who page) :
    s.command who page f = f s := by
  obtain ⟨h1, h2, h3⟩ := h
  simp [State.command, h1, h2, h3]

/-- What a register command can do: nothing, the answer of a shut path, the count of a dropped write, or its effect. -/
theorem command_cases (s : State) (who : Requester) (page : Nat) (f : State → State) :
    s.command who page f = s ∨ s.command who page f = s.notReady who ∨ s.command who page f = s.dropped who
      ∨ s.command who page f = f s := by
  unfold State.command
  split
  · exact .inr (.inl rfl)
  · split
    · exact .inr (.inr (.inl rfl))
    · split
      · exact .inl rfl
      · exact .inr (.inr (.inr rfl))

/-! ### The registers an event or a count touches -/

theorem reg_msixTry {s t : State} {die : Nat} {idx : Option Nat} {v : Nat} (h : s.msixTry die idx v = some t) (a : Nat) :
    t.reg a = s.reg a := by
  unfold State.msixTry at h
  split at h
  · cases h
  · dsimp only at h
    split at h
    · cases h
    · split at h
      · cases h
        split <;> rfl
      · cases h
        rfl

theorem reg_signalVia (s : State) (drop : State → State) (page a : Nat) (hd : ∀ u : State, (drop u).reg a = u.reg a) :
    (s.signalVia drop page).reg a = s.reg a := by
  have h : ∀ die idx v, ((s.msixTry die idx v).getD (drop s)).reg a = s.reg a := by
    intro die idx v
    cases hm : s.msixTry die idx v with
    | none => exact hd s
    | some t => exact reg_msixTry hm a
  unfold State.signalVia
  dsimp only
  split <;> split
  · exact h _ _ _
  · exact h _ _ _
  · rfl
  · rfl

theorem reg_raiseVia (s : State) (drop : State → State) (page bits a : Nat) (hd : ∀ u : State, (drop u).reg a = u.reg a)
    (ha : a ≠ page + Hdr.EVT_STATUS) : (s.raiseVia drop page bits).reg a = s.reg a := by
  unfold State.raiseVia
  dsimp only
  split
  · rw [reg_signalVia _ _ _ _ hd, State.reg_setReg_ne _ _ ha]
  · exact State.reg_setReg_ne _ _ ha

theorem reg_irqCount (s : State) {a : Nat} (h : a ∉ irqRegs) : s.irqCount.reg a = s.reg a :=
  State.reg_setReg_ne _ _ fun e => h (e ▸ List.mem_cons_self)

theorem reg_irqDropped (s : State) {a : Nat} (h : a ∉ irqRegs) : s.irqDropped.reg a = s.reg a := by
  unfold State.irqDropped
  dsimp only
  split
  · rw [reg_raiseVia _ _ _ _ _ fun u => reg_irqCount u h]
    · rw [State.reg_setReg_ne _ _ fun e => h (by rw [e]; simp [irqRegs]), reg_irqCount s h]
    · exact fun e => h (by rw [e]; simp [irqRegs])
  · exact reg_irqCount s h

/-- Raising events of a page changes its EVT_STATUS alone, beside the count of interrupts that cannot be raised. -/
theorem reg_raiseBits (s : State) (page bits : Nat) {a : Nat} (h : a ∉ irqRegs) (ha : a ≠ page + Hdr.EVT_STATUS) :
    (s.raiseBits page bits).reg a = s.reg a := reg_raiseVia _ _ _ _ _ (fun u => reg_irqDropped u h) ha

theorem reg_raise (s : State) (page n : Nat) {a : Nat} (h : a ∉ irqRegs) (ha : a ≠ page + Hdr.EVT_STATUS) :
    (s.raise page n).reg a = s.reg a := reg_raiseBits _ _ _ h ha

/-- Counting changes the counter, the CNT_OVF and the EVT_STATUS of its page. -/
theorem reg_count (s : State) (c n : Nat) {a : Nat} (h : a ∉ irqRegs) (hc : a ≠ c) (h1 : a ≠ pageBase c + Hdr.CNT_OVF)
    (h2 : a ≠ pageBase c + Hdr.EVT_STATUS) : (s.count c n).reg a = s.reg a := by
  unfold State.count State.countAt
  dsimp only
  split
  · rw [reg_raise _ _ _ h h2, State.reg_setReg_ne _ _ h1, State.reg_setReg_ne _ _ hc]
  · exact State.reg_setReg_ne _ _ hc

end Sys2Proof.Machine
end

