-- ==== Sys2Proof/Laws/Guard.lean ====
section
/-! SUPPORT. The guarded store of module memory keeps the canonical form. -/

namespace Sys2Proof.Machine

theorem foldl_store_wf (l : List (Nat × List Byte)) (s : State) (h : Memory.wf s.mem) :
    Memory.wf (l.foldl (fun (t : State) r => t.store r.1 r.2) s).mem := by
  induction l generalizing s with
  | nil => exact h
  | cons p r ih => exact ih _ (s.wf_store p.1 p.2 h)

theorem wf_congr {s t : State} (e : t.mem = s.mem) (h : Memory.wf s.mem) : Memory.wf t.mem := by
  unfold Memory.wf at *
  rw [e]
  exact h

/-- What only announces keeps the canonical form of memory. -/
theorem Announces.wf {s t : State} (e : Announces s t) (h : Memory.wf s.mem) : Memory.wf t.mem := wf_congr e.mem h

theorem mem_tally (s : State) (a : Nat) : (s.tally a).mem = s.mem := (announces_tally s a).mem

theorem tally_wf (s : State) (a : Nat) (h : Memory.wf s.mem) : Memory.wf (s.tally a).mem :=
  @wf_congr s (s.tally a) (mem_tally s a) h

theorem ite_tally_wf (b : Bool) (s : State) (a : Nat) (h : Memory.wf s.mem) :
    Memory.wf (if b then s.tally a else s).mem := by
  cases b
  · exact h
  · exact tally_wf s a h

theorem State.wf_guardedPiece (s : State) (p : Nat × List Byte) (h : Memory.wf s.mem) : Memory.wf (s.guardedPiece p).mem := by
  unfold State.guardedPiece
  cases s.bankShut p.1 with
  | some c => exact tally_wf s _ h
  | none => exact ite_tally_wf _ _ _ (ite_tally_wf _ _ _ (foldl_store_wf _ s h))

/-- A guarded store keeps the canonical form. -/
theorem State.wf_guardedStore (s : State) (a : Nat) (bs : List Byte) (h : Memory.wf s.mem) :
    Memory.wf (s.guardedStore a bs).mem := by
  unfold State.guardedStore
  split
  · exact h
  · generalize cutPlaces a bs 80 = l
    induction l generalizing s with
    | nil => exact h
    | cons p r ih => exact ih _ (s.wf_guardedPiece p h)

/-- So does a write of an update engine, into register space or memory. -/
theorem State.wf_updStore (s : State) (a : Nat) (bs : List Byte) (h : Memory.wf s.mem) : Memory.wf (s.updStore a bs).mem := by
  unfold State.updStore
  split
  · exact s.wf_store a bs h
  · exact s.wf_guardedStore a bs h

/-- Memory right after reset is in the canonical form. -/
theorem wf_reset : Memory.wf State.reset.mem := rfl

end Sys2Proof.Machine
end

