-- ==== Sys2Proof/Laws/State.lean ====
section
/-! SUPPORT. What the plain updates of State leave alone, one lemma per field per update. -/

namespace Sys2Proof.Machine

@[simp] theorem State.setReg_pending (s : State) (a v : Nat) : (s.setReg a v).pending = s.pending := rfl
@[simp] theorem State.setReg_now (s : State) (a v : Nat) : (s.setReg a v).now = s.now := rfl
@[simp] theorem State.setReg_mem (s : State) (a v : Nat) : (s.setReg a v).mem = s.mem := rfl
@[simp] theorem State.setReg_memEpoch (s : State) (a v : Nat) : (s.setReg a v).memEpoch = s.memEpoch := rfl
@[simp] theorem State.setReg_badBursts (s : State) (a v : Nat) : (s.setReg a v).badBursts = s.badBursts := rfl
@[simp] theorem State.setReg_hostMem (s : State) (a v : Nat) : (s.setReg a v).hostMem = s.hostMem := rfl
@[simp] theorem State.setReg_freeCount (s : State) (a v : Nat) : (s.setReg a v).freeCount = s.freeCount := rfl
@[simp] theorem State.setReg_out (s : State) (a v : Nat) : (s.setReg a v).out = s.out := rfl
@[simp] theorem State.setReg_msixMasked (s : State) (a v : Nat) : (s.setReg a v).msixMasked = s.msixMasked := rfl
@[simp] theorem State.setReg_msixPending (s : State) (a v : Nat) : (s.setReg a v).msixPending = s.msixPending := rfl
@[simp] theorem State.setReg_vfSplit (s : State) (a v : Nat) : (s.setReg a v).vfSplit = s.vfSplit := rfl
@[simp] theorem State.setReg_perst (s : State) (a v : Nat) : (s.setReg a v).perst = s.perst := rfl
@[simp] theorem State.setReg_wardFence (s : State) (a v : Nat) : (s.setReg a v).wardFence = s.wardFence := rfl
@[simp] theorem State.setReg_pldm (s : State) (a v : Nat) : (s.setReg a v).pldm = s.pldm := rfl
@[simp] theorem State.setReg_wp (s : State) (a v : Nat) : (s.setReg a v).wp = s.wp := rfl
@[simp] theorem State.setReg_chiplets (s : State) (a v : Nat) : (s.setReg a v).chiplets = s.chiplets := rfl
@[simp] theorem State.setReg_ranges (s : State) (a v : Nat) : (s.setReg a v).ranges = s.ranges := rfl
@[simp] theorem State.setReg_accNet (s : State) (a v : Nat) : (s.setReg a v).accNet = s.accNet := rfl
@[simp] theorem State.setReg_accHeld (s : State) (a v : Nat) : (s.setReg a v).accHeld = s.accHeld := rfl
@[simp] theorem State.setReg_injects (s : State) (a v : Nat) : (s.setReg a v).injects = s.injects := rfl
@[simp] theorem State.setReg_staged (s : State) (a v : Nat) : (s.setReg a v).staged = s.staged := rfl
@[simp] theorem State.setReg_lsStaged (s : State) (a v : Nat) : (s.setReg a v).lsStaged = s.lsStaged := rfl
@[simp] theorem State.setReg_slotMem (s : State) (a v : Nat) : (s.setReg a v).slotMem = s.slotMem := rfl
@[simp] theorem State.setReg_mirror (s : State) (a v : Nat) : (s.setReg a v).mirror = s.mirror := rfl
@[simp] theorem State.setReg_mirrorAt (s : State) (a v : Nat) : (s.setReg a v).mirrorAt = s.mirrorAt := rfl
@[simp] theorem State.setReg_pins (s : State) (a v : Nat) : (s.setReg a v).pins = s.pins := rfl
@[simp] theorem State.setReg_regPort (s : State) (a v : Nat) : (s.setReg a v).regPort = s.regPort := rfl
@[simp] theorem State.setReg_census (s : State) (a v : Nat) : (s.setReg a v).census = s.census := rfl
@[simp] theorem State.setReg_resighted (s : State) (a v : Nat) : (s.setReg a v).resighted = s.resighted := rfl
@[simp] theorem State.setReg_sigs (s : State) (a v : Nat) : (s.setReg a v).sigs = s.sigs := rfl
@[simp] theorem State.setReg_sigNet (s : State) (a v : Nat) : (s.setReg a v).sigNet = s.sigNet := rfl
@[simp] theorem State.setReg_evts (s : State) (a v : Nat) : (s.setReg a v).evts = s.evts := rfl
@[simp] theorem State.setReg_rings (s : State) (a v : Nat) : (s.setReg a v).rings = s.rings := rfl
@[simp] theorem State.setReg_ghosts (s : State) (a v : Nat) : (s.setReg a v).ghosts = s.ghosts := rfl
@[simp] theorem State.setReg_softRegion (s : State) (a v : Nat) : (s.setReg a v).softRegion = s.softRegion := rfl
@[simp] theorem State.setReg_softClear (s : State) (a v : Nat) : (s.setReg a v).softClear = s.softClear := rfl
@[simp] theorem State.setReg_repairs (s : State) (a v : Nat) : (s.setReg a v).repairs = s.repairs := rfl
@[simp] theorem State.setReg_unrecorded (s : State) (a v : Nat) : (s.setReg a v).unrecorded = s.unrecorded := rfl
@[simp] theorem State.setReg_lastFetch (s : State) (a v : Nat) : (s.setReg a v).lastFetch = s.lastFetch := rfl
@[simp] theorem State.setReg_arbs (s : State) (a v : Nat) : (s.setReg a v).arbs = s.arbs := rfl
@[simp] theorem State.setReg_upds (s : State) (a v : Nat) : (s.setReg a v).upds = s.upds := rfl
@[simp] theorem State.setReg_updQueue (s : State) (a v : Nat) : (s.setReg a v).updQueue = s.updQueue := rfl
@[simp] theorem State.setReg_updOpen (s : State) (a v : Nat) : (s.setReg a v).updOpen = s.updOpen := rfl
@[simp] theorem State.setReg_deltaOpen (s : State) (a v : Nat) : (s.setReg a v).deltaOpen = s.deltaOpen := rfl
@[simp] theorem State.setReg_deltaNext (s : State) (a v : Nat) : (s.setReg a v).deltaNext = s.deltaNext := rfl
@[simp] theorem State.setReg_variants (s : State) (a v : Nat) : (s.setReg a v).variants = s.variants := rfl
@[simp] theorem State.setReg_varStaged (s : State) (a v : Nat) : (s.setReg a v).varStaged = s.varStaged := rfl
@[simp] theorem State.setReg_links (s : State) (a v : Nat) : (s.setReg a v).links = s.links := rfl
@[simp] theorem State.setReg_probeSeen (s : State) (a v : Nat) : (s.setReg a v).probeSeen = s.probeSeen := rfl
@[simp] theorem State.setReg_colls (s : State) (a v : Nat) : (s.setReg a v).colls = s.colls := rfl
@[simp] theorem State.setReg_fetches (s : State) (a v : Nat) : (s.setReg a v).fetches = s.fetches := rfl
@[simp] theorem State.setReg_keys (s : State) (a v : Nat) : (s.setReg a v).keys = s.keys := rfl
@[simp] theorem State.setReg_epochs (s : State) (a v : Nat) : (s.setReg a v).epochs = s.epochs := rfl
@[simp] theorem State.setReg_epochGone (s : State) (a v : Nat) : (s.setReg a v).epochGone = s.epochGone := rfl
@[simp] theorem State.setReg_prevSince (s : State) (a v : Nat) : (s.setReg a v).prevSince = s.prevSince := rfl
@[simp] theorem State.setReg_prevGrace (s : State) (a v : Nat) : (s.setReg a v).prevGrace = s.prevGrace := rfl
@[simp] theorem State.setReg_replay (s : State) (a v : Nat) : (s.setReg a v).replay = s.replay := rfl
@[simp] theorem State.setReg_ciphers (s : State) (a v : Nat) : (s.setReg a v).ciphers = s.ciphers := rfl
@[simp] theorem State.setReg_tx (s : State) (a v : Nat) : (s.setReg a v).tx = s.tx := rfl
@[simp] theorem State.setReg_streamNum (s : State) (a v : Nat) : (s.setReg a v).streamNum = s.streamNum := rfl
@[simp] theorem State.setReg_partners (s : State) (a v : Nat) : (s.setReg a v).partners = s.partners := rfl
@[simp] theorem State.setReg_rx (s : State) (a v : Nat) : (s.setReg a v).rx = s.rx := rfl
@[simp] theorem State.setReg_delta (s : State) (a v : Nat) : (s.setReg a v).delta = s.delta := rfl
@[simp] theorem State.setReg_sectT (s : State) (a v : Nat) : (s.setReg a v).sectT = s.sectT := rfl
@[simp] theorem State.setReg_hold (s : State) (a v : Nat) : (s.setReg a v).hold = s.hold := rfl
@[simp] theorem State.setReg_spanDue (s : State) (a v : Nat) : (s.setReg a v).spanDue = s.spanDue := rfl
@[simp] theorem State.setReg_snapDue (s : State) (a v : Nat) : (s.setReg a v).snapDue = s.snapDue := rfl
@[simp] theorem State.setReg_reports (s : State) (a v : Nat) : (s.setReg a v).reports = s.reports := rfl
@[simp] theorem State.setReg_ownAdded (s : State) (a v : Nat) : (s.setReg a v).ownAdded = s.ownAdded := rfl
@[simp] theorem State.setReg_covered (s : State) (a v : Nat) : (s.setReg a v).covered = s.covered := rfl
@[simp] theorem State.setReg_handoffs (s : State) (a v : Nat) : (s.setReg a v).handoffs = s.handoffs := rfl
@[simp] theorem State.setReg_handing (s : State) (a v : Nat) : (s.setReg a v).handing = s.handing := rfl
@[simp] theorem State.setReg_serveBufs (s : State) (a v : Nat) : (s.setReg a v).serveBufs = s.serveBufs := rfl
@[simp] theorem State.setReg_snapFetch (s : State) (a v : Nat) : (s.setReg a v).snapFetch = s.snapFetch := rfl
@[simp] theorem State.setReg_pwr (s : State) (a v : Nat) : (s.setReg a v).pwr = s.pwr := rfl
@[simp] theorem State.setReg_clocks (s : State) (a v : Nat) : (s.setReg a v).clocks = s.clocks := rfl
@[simp] theorem State.setReg_calTaken (s : State) (a v : Nat) : (s.setReg a v).calTaken = s.calTaken := rfl
@[simp] theorem State.setReg_temps (s : State) (a v : Nat) : (s.setReg a v).temps = s.temps := rfl
@[simp] theorem State.setReg_fw (s : State) (a v : Nat) : (s.setReg a v).fw = s.fw := rfl
@[simp] theorem State.setReg_pads (s : State) (a v : Nat) : (s.setReg a v).pads = s.pads := rfl
@[simp] theorem State.setReg_wardDue (s : State) (a v : Nat) : (s.setReg a v).wardDue = s.wardDue := rfl
@[simp] theorem State.setReg_warmDue (s : State) (a v : Nat) : (s.setReg a v).warmDue = s.warmDue := rfl
@[simp] theorem State.setReg_dump (s : State) (a v : Nat) : (s.setReg a v).dump = s.dump := rfl
@[simp] theorem State.setReg_remote (s : State) (a v : Nat) : (s.setReg a v).remote = s.remote := rfl
@[simp] theorem State.setReg_fetched (s : State) (a v : Nat) : (s.setReg a v).fetched = s.fetched := rfl
@[simp] theorem State.setReg_units (s : State) (a v : Nat) : (s.setReg a v).units = s.units := rfl

@[simp] theorem State.setChip_pending (s : State) (c : Nat) (x : Chiplet) : (s.setChip c x).pending = s.pending := rfl
@[simp] theorem State.setChip_now (s : State) (c : Nat) (x : Chiplet) : (s.setChip c x).now = s.now := rfl
@[simp] theorem State.setChip_regs (s : State) (c : Nat) (x : Chiplet) : (s.setChip c x).regs = s.regs := rfl
@[simp] theorem State.setChip_mem (s : State) (c : Nat) (x : Chiplet) : (s.setChip c x).mem = s.mem := rfl
@[simp] theorem State.setChip_memEpoch (s : State) (c : Nat) (x : Chiplet) : (s.setChip c x).memEpoch = s.memEpoch := rfl
@[simp] theorem State.setChip_badBursts (s : State) (c : Nat) (x : Chiplet) : (s.setChip c x).badBursts = s.badBursts := rfl
@[simp] theorem State.setChip_hostMem (s : State) (c : Nat) (x : Chiplet) : (s.setChip c x).hostMem = s.hostMem := rfl
@[simp] theorem State.setChip_freeCount (s : State) (c : Nat) (x : Chiplet) : (s.setChip c x).freeCount = s.freeCount := rfl
@[simp] theorem State.setChip_out (s : State) (c : Nat) (x : Chiplet) : (s.setChip c x).out = s.out := rfl
@[simp] theorem State.setChip_msixMasked (s : State) (c : Nat) (x : Chiplet) : (s.setChip c x).msixMasked = s.msixMasked := rfl
@[simp] theorem State.setChip_msixPending (s : State) (c : Nat) (x : Chiplet) : (s.setChip c x).msixPending = s.msixPending := rfl
@[simp] theorem State.setChip_vfSplit (s : State) (c : Nat) (x : Chiplet) : (s.setChip c x).vfSplit = s.vfSplit := rfl
@[simp] theorem State.setChip_perst (s : State) (c : Nat) (x : Chiplet) : (s.setChip c x).perst = s.perst := rfl
@[simp] theorem State.setChip_wardFence (s : State) (c : Nat) (x : Chiplet) : (s.setChip c x).wardFence = s.wardFence := rfl
@[simp] theorem State.setChip_pldm (s : State) (c : Nat) (x : Chiplet) : (s.setChip c x).pldm = s.pldm := rfl
@[simp] theorem State.setChip_wp (s : State) (c : Nat) (x : Chiplet) : (s.setChip c x).wp = s.wp := rfl
@[simp] theorem State.setChip_ranges (s : State) (c : Nat) (x : Chiplet) : (s.setChip c x).ranges = s.ranges := rfl
@[simp] theorem State.setChip_accNet (s : State) (c : Nat) (x : Chiplet) : (s.setChip c x).accNet = s.accNet := rfl
@[simp] theorem State.setChip_accHeld (s : State) (c : Nat) (x : Chiplet) : (s.setChip c x).accHeld = s.accHeld := rfl
@[simp] theorem State.setChip_injects (s : State) (c : Nat) (x : Chiplet) : (s.setChip c x).injects = s.injects := rfl
@[simp] theorem State.setChip_staged (s : State) (c : Nat) (x : Chiplet) : (s.setChip c x).staged = s.staged := rfl
@[simp] theorem State.setChip_lsStaged (s : State) (c : Nat) (x : Chiplet) : (s.setChip c x).lsStaged = s.lsStaged := rfl
@[simp] theorem State.setChip_slotMem (s : State) (c : Nat) (x : Chiplet) : (s.setChip c x).slotMem = s.slotMem := rfl
@[simp] theorem State.setChip_mirror (s : State) (c : Nat) (x : Chiplet) : (s.setChip c x).mirror = s.mirror := rfl
@[simp] theorem State.setChip_mirrorAt (s : State) (c : Nat) (x : Chiplet) : (s.setChip c x).mirrorAt = s.mirrorAt := rfl
@[simp] theorem State.setChip_pins (s : State) (c : Nat) (x : Chiplet) : (s.setChip c x).pins = s.pins := rfl
@[simp] theorem State.setChip_regPort (s : State) (c : Nat) (x : Chiplet) : (s.setChip c x).regPort = s.regPort := rfl
@[simp] theorem State.setChip_census (s : State) (c : Nat) (x : Chiplet) : (s.setChip c x).census = s.census := rfl
@[simp] theorem State.setChip_resighted (s : State) (c : Nat) (x : Chiplet) : (s.setChip c x).resighted = s.resighted := rfl
@[simp] theorem State.setChip_sigs (s : State) (c : Nat) (x : Chiplet) : (s.setChip c x).sigs = s.sigs := rfl
@[simp] theorem State.setChip_sigNet (s : State) (c : Nat) (x : Chiplet) : (s.setChip c x).sigNet = s.sigNet := rfl
@[simp] theorem State.setChip_evts (s : State) (c : Nat) (x : Chiplet) : (s.setChip c x).evts = s.evts := rfl
@[simp] theorem State.setChip_rings (s : State) (c : Nat) (x : Chiplet) : (s.setChip c x).rings = s.rings := rfl
@[simp] theorem State.setChip_ghosts (s : State) (c : Nat) (x : Chiplet) : (s.setChip c x).ghosts = s.ghosts := rfl
@[simp] theorem State.setChip_softRegion (s : State) (c : Nat) (x : Chiplet) : (s.setChip c x).softRegion = s.softRegion := rfl
@[simp] theorem State.setChip_softClear (s : State) (c : Nat) (x : Chiplet) : (s.setChip c x).softClear = s.softClear := rfl
@[simp] theorem State.setChip_repairs (s : State) (c : Nat) (x : Chiplet) : (s.setChip c x).repairs = s.repairs := rfl
@[simp] theorem State.setChip_unrecorded (s : State) (c : Nat) (x : Chiplet) : (s.setChip c x).unrecorded = s.unrecorded := rfl
@[simp] theorem State.setChip_lastFetch (s : State) (c : Nat) (x : Chiplet) : (s.setChip c x).lastFetch = s.lastFetch := rfl
@[simp] theorem State.setChip_arbs (s : State) (c : Nat) (x : Chiplet) : (s.setChip c x).arbs = s.arbs := rfl
@[simp] theorem State.setChip_upds (s : State) (c : Nat) (x : Chiplet) : (s.setChip c x).upds = s.upds := rfl
@[simp] theorem State.setChip_updQueue (s : State) (c : Nat) (x : Chiplet) : (s.setChip c x).updQueue = s.updQueue := rfl
@[simp] theorem State.setChip_updOpen (s : State) (c : Nat) (x : Chiplet) : (s.setChip c x).updOpen = s.updOpen := rfl
@[simp] theorem State.setChip_deltaOpen (s : State) (c : Nat) (x : Chiplet) : (s.setChip c x).deltaOpen = s.deltaOpen := rfl
@[simp] theorem State.setChip_deltaNext (s : State) (c : Nat) (x : Chiplet) : (s.setChip c x).deltaNext = s.deltaNext := rfl
@[simp] theorem State.setChip_variants (s : State) (c : Nat) (x : Chiplet) : (s.setChip c x).variants = s.variants := rfl
@[simp] theorem State.setChip_varStaged (s : State) (c : Nat) (x : Chiplet) : (s.setChip c x).varStaged = s.varStaged := rfl
@[simp] theorem State.setChip_links (s : State) (c : Nat) (x : Chiplet) : (s.setChip c x).links = s.links := rfl
@[simp] theorem State.setChip_probeSeen (s : State) (c : Nat) (x : Chiplet) : (s.setChip c x).probeSeen = s.probeSeen := rfl
@[simp] theorem State.setChip_colls (s : State) (c : Nat) (x : Chiplet) : (s.setChip c x).colls = s.colls := rfl
@[simp] theorem State.setChip_fetches (s : State) (c : Nat) (x : Chiplet) : (s.setChip c x).fetches = s.fetches := rfl
@[simp] theorem State.setChip_keys (s : State) (c : Nat) (x : Chiplet) : (s.setChip c x).keys = s.keys := rfl
@[simp] theorem State.setChip_epochs (s : State) (c : Nat) (x : Chiplet) : (s.setChip c x).epochs = s.epochs := rfl
@[simp] theorem State.setChip_epochGone (s : State) (c : Nat) (x : Chiplet) : (s.setChip c x).epochGone = s.epochGone := rfl
@[simp] theorem State.setChip_prevSince (s : State) (c : Nat) (x : Chiplet) : (s.setChip c x).prevSince = s.prevSince := rfl
@[simp] theorem State.setChip_prevGrace (s : State) (c : Nat) (x : Chiplet) : (s.setChip c x).prevGrace = s.prevGrace := rfl
@[simp] theorem State.setChip_replay (s : State) (c : Nat) (x : Chiplet) : (s.setChip c x).replay = s.replay := rfl
@[simp] theorem State.setChip_ciphers (s : State) (c : Nat) (x : Chiplet) : (s.setChip c x).ciphers = s.ciphers := rfl
@[simp] theorem State.setChip_tx (s : State) (c : Nat) (x : Chiplet) : (s.setChip c x).tx = s.tx := rfl
@[simp] theorem State.setChip_streamNum (s : State) (c : Nat) (x : Chiplet) : (s.setChip c x).streamNum = s.streamNum := rfl
@[simp] theorem State.setChip_partners (s : State) (c : Nat) (x : Chiplet) : (s.setChip c x).partners = s.partners := rfl
@[simp] theorem State.setChip_rx (s : State) (c : Nat) (x : Chiplet) : (s.setChip c x).rx = s.rx := rfl
@[simp] theorem State.setChip_delta (s : State) (c : Nat) (x : Chiplet) : (s.setChip c x).delta = s.delta := rfl
@[simp] theorem State.setChip_sectT (s : State) (c : Nat) (x : Chiplet) : (s.setChip c x).sectT = s.sectT := rfl
@[simp] theorem State.setChip_hold (s : State) (c : Nat) (x : Chiplet) : (s.setChip c x).hold = s.hold := rfl
@[simp] theorem State.setChip_spanDue (s : State) (c : Nat) (x : Chiplet) : (s.setChip c x).spanDue = s.spanDue := rfl
@[simp] theorem State.setChip_snapDue (s : State) (c : Nat) (x : Chiplet) : (s.setChip c x).snapDue = s.snapDue := rfl
@[simp] theorem State.setChip_reports (s : State) (c : Nat) (x : Chiplet) : (s.setChip c x).reports = s.reports := rfl
@[simp] theorem State.setChip_ownAdded (s : State) (c : Nat) (x : Chiplet) : (s.setChip c x).ownAdded = s.ownAdded := rfl
@[simp] theorem State.setChip_covered (s : State) (c : Nat) (x : Chiplet) : (s.setChip c x).covered = s.covered := rfl
@[simp] theorem State.setChip_handoffs (s : State) (c : Nat) (x : Chiplet) : (s.setChip c x).handoffs = s.handoffs := rfl
@[simp] theorem State.setChip_handing (s : State) (c : Nat) (x : Chiplet) : (s.setChip c x).handing = s.handing := rfl
@[simp] theorem State.setChip_serveBufs (s : State) (c : Nat) (x : Chiplet) : (s.setChip c x).serveBufs = s.serveBufs := rfl
@[simp] theorem State.setChip_snapFetch (s : State) (c : Nat) (x : Chiplet) : (s.setChip c x).snapFetch = s.snapFetch := rfl
@[simp] theorem State.setChip_pwr (s : State) (c : Nat) (x : Chiplet) : (s.setChip c x).pwr = s.pwr := rfl
@[simp] theorem State.setChip_clocks (s : State) (c : Nat) (x : Chiplet) : (s.setChip c x).clocks = s.clocks := rfl
@[simp] theorem State.setChip_calTaken (s : State) (c : Nat) (x : Chiplet) : (s.setChip c x).calTaken = s.calTaken := rfl
@[simp] theorem State.setChip_temps (s : State) (c : Nat) (x : Chiplet) : (s.setChip c x).temps = s.temps := rfl
@[simp] theorem State.setChip_fw (s : State) (c : Nat) (x : Chiplet) : (s.setChip c x).fw = s.fw := rfl
@[simp] theorem State.setChip_pads (s : State) (c : Nat) (x : Chiplet) : (s.setChip c x).pads = s.pads := rfl
@[simp] theorem State.setChip_wardDue (s : State) (c : Nat) (x : Chiplet) : (s.setChip c x).wardDue = s.wardDue := rfl
@[simp] theorem State.setChip_warmDue (s : State) (c : Nat) (x : Chiplet) : (s.setChip c x).warmDue = s.warmDue := rfl
@[simp] theorem State.setChip_dump (s : State) (c : Nat) (x : Chiplet) : (s.setChip c x).dump = s.dump := rfl
@[simp] theorem State.setChip_remote (s : State) (c : Nat) (x : Chiplet) : (s.setChip c x).remote = s.remote := rfl
@[simp] theorem State.setChip_fetched (s : State) (c : Nat) (x : Chiplet) : (s.setChip c x).fetched = s.fetched := rfl
@[simp] theorem State.setChip_units (s : State) (c : Nat) (x : Chiplet) : (s.setChip c x).units = s.units := rfl

@[simp] theorem State.setUnit_pending (s : State) (u : UnitId) (x : UnitSt) : (s.setUnit u x).pending = s.pending := rfl
@[simp] theorem State.setUnit_now (s : State) (u : UnitId) (x : UnitSt) : (s.setUnit u x).now = s.now := rfl
@[simp] theorem State.setUnit_regs (s : State) (u : UnitId) (x : UnitSt) : (s.setUnit u x).regs = s.regs := rfl
@[simp] theorem State.setUnit_mem (s : State) (u : UnitId) (x : UnitSt) : (s.setUnit u x).mem = s.mem := rfl
@[simp] theorem State.setUnit_memEpoch (s : State) (u : UnitId) (x : UnitSt) : (s.setUnit u x).memEpoch = s.memEpoch := rfl
@[simp] theorem State.setUnit_badBursts (s : State) (u : UnitId) (x : UnitSt) : (s.setUnit u x).badBursts = s.badBursts := rfl
@[simp] theorem State.setUnit_hostMem (s : State) (u : UnitId) (x : UnitSt) : (s.setUnit u x).hostMem = s.hostMem := rfl
@[simp] theorem State.setUnit_freeCount (s : State) (u : UnitId) (x : UnitSt) : (s.setUnit u x).freeCount = s.freeCount := rfl
@[simp] theorem State.setUnit_out (s : State) (u : UnitId) (x : UnitSt) : (s.setUnit u x).out = s.out := rfl
@[simp] theorem State.setUnit_msixMasked (s : State) (u : UnitId) (x : UnitSt) : (s.setUnit u x).msixMasked = s.msixMasked := rfl
@[simp] theorem State.setUnit_msixPending (s : State) (u : UnitId) (x : UnitSt) : (s.setUnit u x).msixPending = s.msixPending := rfl
@[simp] theorem State.setUnit_vfSplit (s : State) (u : UnitId) (x : UnitSt) : (s.setUnit u x).vfSplit = s.vfSplit := rfl
@[simp] theorem State.setUnit_perst (s : State) (u : UnitId) (x : UnitSt) : (s.setUnit u x).perst = s.perst := rfl
@[simp] theorem State.setUnit_wardFence (s : State) (u : UnitId) (x : UnitSt) : (s.setUnit u x).wardFence = s.wardFence := rfl
@[simp] theorem State.setUnit_pldm (s : State) (u : UnitId) (x : UnitSt) : (s.setUnit u x).pldm = s.pldm := rfl
@[simp] theorem State.setUnit_wp (s : State) (u : UnitId) (x : UnitSt) : (s.setUnit u x).wp = s.wp := rfl
@[simp] theorem State.setUnit_chiplets (s : State) (u : UnitId) (x : UnitSt) : (s.setUnit u x).chiplets = s.chiplets := rfl
@[simp] theorem State.setUnit_ranges (s : State) (u : UnitId) (x : UnitSt) : (s.setUnit u x).ranges = s.ranges := rfl
@[simp] theorem State.setUnit_accNet (s : State) (u : UnitId) (x : UnitSt) : (s.setUnit u x).accNet = s.accNet := rfl
@[simp] theorem State.setUnit_accHeld (s : State) (u : UnitId) (x : UnitSt) : (s.setUnit u x).accHeld = s.accHeld := rfl
@[simp] theorem State.setUnit_injects (s : State) (u : UnitId) (x : UnitSt) : (s.setUnit u x).injects = s.injects := rfl
@[simp] theorem State.setUnit_staged (s : State) (u : UnitId) (x : UnitSt) : (s.setUnit u x).staged = s.staged := rfl
@[simp] theorem State.setUnit_lsStaged (s : State) (u : UnitId) (x : UnitSt) : (s.setUnit u x).lsStaged = s.lsStaged := rfl
@[simp] theorem State.setUnit_slotMem (s : State) (u : UnitId) (x : UnitSt) : (s.setUnit u x).slotMem = s.slotMem := rfl
@[simp] theorem State.setUnit_mirror (s : State) (u : UnitId) (x : UnitSt) : (s.setUnit u x).mirror = s.mirror := rfl
@[simp] theorem State.setUnit_mirrorAt (s : State) (u : UnitId) (x : UnitSt) : (s.setUnit u x).mirrorAt = s.mirrorAt := rfl
@[simp] theorem State.setUnit_pins (s : State) (u : UnitId) (x : UnitSt) : (s.setUnit u x).pins = s.pins := rfl
@[simp] theorem State.setUnit_regPort (s : State) (u : UnitId) (x : UnitSt) : (s.setUnit u x).regPort = s.regPort := rfl
@[simp] theorem State.setUnit_census (s : State) (u : UnitId) (x : UnitSt) : (s.setUnit u x).census = s.census := rfl
@[simp] theorem State.setUnit_resighted (s : State) (u : UnitId) (x : UnitSt) : (s.setUnit u x).resighted = s.resighted := rfl
@[simp] theorem State.setUnit_sigs (s : State) (u : UnitId) (x : UnitSt) : (s.setUnit u x).sigs = s.sigs := rfl
@[simp] theorem State.setUnit_sigNet (s : State) (u : UnitId) (x : UnitSt) : (s.setUnit u x).sigNet = s.sigNet := rfl
@[simp] theorem State.setUnit_evts (s : State) (u : UnitId) (x : UnitSt) : (s.setUnit u x).evts = s.evts := rfl
@[simp] theorem State.setUnit_rings (s : State) (u : UnitId) (x : UnitSt) : (s.setUnit u x).rings = s.rings := rfl
@[simp] theorem State.setUnit_ghosts (s : State) (u : UnitId) (x : UnitSt) : (s.setUnit u x).ghosts = s.ghosts := rfl
@[simp] theorem State.setUnit_softRegion (s : State) (u : UnitId) (x : UnitSt) : (s.setUnit u x).softRegion = s.softRegion := rfl
@[simp] theorem State.setUnit_softClear (s : State) (u : UnitId) (x : UnitSt) : (s.setUnit u x).softClear = s.softClear := rfl
@[simp] theorem State.setUnit_repairs (s : State) (u : UnitId) (x : UnitSt) : (s.setUnit u x).repairs = s.repairs := rfl
@[simp] theorem State.setUnit_unrecorded (s : State) (u : UnitId) (x : UnitSt) : (s.setUnit u x).unrecorded = s.unrecorded := rfl
@[simp] theorem State.setUnit_lastFetch (s : State) (u : UnitId) (x : UnitSt) : (s.setUnit u x).lastFetch = s.lastFetch := rfl
@[simp] theorem State.setUnit_arbs (s : State) (u : UnitId) (x : UnitSt) : (s.setUnit u x).arbs = s.arbs := rfl
@[simp] theorem State.setUnit_upds (s : State) (u : UnitId) (x : UnitSt) : (s.setUnit u x).upds = s.upds := rfl
@[simp] theorem State.setUnit_updQueue (s : State) (u : UnitId) (x : UnitSt) : (s.setUnit u x).updQueue = s.updQueue := rfl
@[simp] theorem State.setUnit_updOpen (s : State) (u : UnitId) (x : UnitSt) : (s.setUnit u x).updOpen = s.updOpen := rfl
@[simp] theorem State.setUnit_deltaOpen (s : State) (u : UnitId) (x : UnitSt) : (s.setUnit u x).deltaOpen = s.deltaOpen := rfl
@[simp] theorem State.setUnit_deltaNext (s : State) (u : UnitId) (x : UnitSt) : (s.setUnit u x).deltaNext = s.deltaNext := rfl
@[simp] theorem State.setUnit_variants (s : State) (u : UnitId) (x : UnitSt) : (s.setUnit u x).variants = s.variants := rfl
@[simp] theorem State.setUnit_varStaged (s : State) (u : UnitId) (x : UnitSt) : (s.setUnit u x).varStaged = s.varStaged := rfl
@[simp] theorem State.setUnit_links (s : State) (u : UnitId) (x : UnitSt) : (s.setUnit u x).links = s.links := rfl
@[simp] theorem State.setUnit_probeSeen (s : State) (u : UnitId) (x : UnitSt) : (s.setUnit u x).probeSeen = s.probeSeen := rfl
@[simp] theorem State.setUnit_colls (s : State) (u : UnitId) (x : UnitSt) : (s.setUnit u x).colls = s.colls := rfl
@[simp] theorem State.setUnit_fetches (s : State) (u : UnitId) (x : UnitSt) : (s.setUnit u x).fetches = s.fetches := rfl
@[simp] theorem State.setUnit_keys (s : State) (u : UnitId) (x : UnitSt) : (s.setUnit u x).keys = s.keys := rfl
@[simp] theorem State.setUnit_epochs (s : State) (u : UnitId) (x : UnitSt) : (s.setUnit u x).epochs = s.epochs := rfl
@[simp] theorem State.setUnit_epochGone (s : State) (u : UnitId) (x : UnitSt) : (s.setUnit u x).epochGone = s.epochGone := rfl
@[simp] theorem State.setUnit_prevSince (s : State) (u : UnitId) (x : UnitSt) : (s.setUnit u x).prevSince = s.prevSince := rfl
@[simp] theorem State.setUnit_prevGrace (s : State) (u : UnitId) (x : UnitSt) : (s.setUnit u x).prevGrace = s.prevGrace := rfl
@[simp] theorem State.setUnit_replay (s : State) (u : UnitId) (x : UnitSt) : (s.setUnit u x).replay = s.replay := rfl
@[simp] theorem State.setUnit_ciphers (s : State) (u : UnitId) (x : UnitSt) : (s.setUnit u x).ciphers = s.ciphers := rfl
@[simp] theorem State.setUnit_tx (s : State) (u : UnitId) (x : UnitSt) : (s.setUnit u x).tx = s.tx := rfl
@[simp] theorem State.setUnit_streamNum (s : State) (u : UnitId) (x : UnitSt) : (s.setUnit u x).streamNum = s.streamNum := rfl
@[simp] theorem State.setUnit_partners (s : State) (u : UnitId) (x : UnitSt) : (s.setUnit u x).partners = s.partners := rfl
@[simp] theorem State.setUnit_rx (s : State) (u : UnitId) (x : UnitSt) : (s.setUnit u x).rx = s.rx := rfl
@[simp] theorem State.setUnit_delta (s : State) (u : UnitId) (x : UnitSt) : (s.setUnit u x).delta = s.delta := rfl
@[simp] theorem State.setUnit_sectT (s : State) (u : UnitId) (x : UnitSt) : (s.setUnit u x).sectT = s.sectT := rfl
@[simp] theorem State.setUnit_hold (s : State) (u : UnitId) (x : UnitSt) : (s.setUnit u x).hold = s.hold := rfl
@[simp] theorem State.setUnit_spanDue (s : State) (u : UnitId) (x : UnitSt) : (s.setUnit u x).spanDue = s.spanDue := rfl
@[simp] theorem State.setUnit_snapDue (s : State) (u : UnitId) (x : UnitSt) : (s.setUnit u x).snapDue = s.snapDue := rfl
@[simp] theorem State.setUnit_reports (s : State) (u : UnitId) (x : UnitSt) : (s.setUnit u x).reports = s.reports := rfl
@[simp] theorem State.setUnit_ownAdded (s : State) (u : UnitId) (x : UnitSt) : (s.setUnit u x).ownAdded = s.ownAdded := rfl
@[simp] theorem State.setUnit_covered (s : State) (u : UnitId) (x : UnitSt) : (s.setUnit u x).covered = s.covered := rfl
@[simp] theorem State.setUnit_handoffs (s : State) (u : UnitId) (x : UnitSt) : (s.setUnit u x).handoffs = s.handoffs := rfl
@[simp] theorem State.setUnit_handing (s : State) (u : UnitId) (x : UnitSt) : (s.setUnit u x).handing = s.handing := rfl
@[simp] theorem State.setUnit_serveBufs (s : State) (u : UnitId) (x : UnitSt) : (s.setUnit u x).serveBufs = s.serveBufs := rfl
@[simp] theorem State.setUnit_snapFetch (s : State) (u : UnitId) (x : UnitSt) : (s.setUnit u x).snapFetch = s.snapFetch := rfl
@[simp] theorem State.setUnit_pwr (s : State) (u : UnitId) (x : UnitSt) : (s.setUnit u x).pwr = s.pwr := rfl
@[simp] theorem State.setUnit_clocks (s : State) (u : UnitId) (x : UnitSt) : (s.setUnit u x).clocks = s.clocks := rfl
@[simp] theorem State.setUnit_calTaken (s : State) (u : UnitId) (x : UnitSt) : (s.setUnit u x).calTaken = s.calTaken := rfl
@[simp] theorem State.setUnit_temps (s : State) (u : UnitId) (x : UnitSt) : (s.setUnit u x).temps = s.temps := rfl
@[simp] theorem State.setUnit_fw (s : State) (u : UnitId) (x : UnitSt) : (s.setUnit u x).fw = s.fw := rfl
@[simp] theorem State.setUnit_pads (s : State) (u : UnitId) (x : UnitSt) : (s.setUnit u x).pads = s.pads := rfl
@[simp] theorem State.setUnit_wardDue (s : State) (u : UnitId) (x : UnitSt) : (s.setUnit u x).wardDue = s.wardDue := rfl
@[simp] theorem State.setUnit_warmDue (s : State) (u : UnitId) (x : UnitSt) : (s.setUnit u x).warmDue = s.warmDue := rfl
@[simp] theorem State.setUnit_dump (s : State) (u : UnitId) (x : UnitSt) : (s.setUnit u x).dump = s.dump := rfl
@[simp] theorem State.setUnit_remote (s : State) (u : UnitId) (x : UnitSt) : (s.setUnit u x).remote = s.remote := rfl
@[simp] theorem State.setUnit_fetched (s : State) (u : UnitId) (x : UnitSt) : (s.setUnit u x).fetched = s.fetched := rfl

@[simp] theorem State.setRing_pending (s : State) (n : Nat) (r : Ring) : (s.setRing n r).pending = s.pending := rfl
@[simp] theorem State.setRing_now (s : State) (n : Nat) (r : Ring) : (s.setRing n r).now = s.now := rfl
@[simp] theorem State.setRing_regs (s : State) (n : Nat) (r : Ring) : (s.setRing n r).regs = s.regs := rfl
@[simp] theorem State.setRing_mem (s : State) (n : Nat) (r : Ring) : (s.setRing n r).mem = s.mem := rfl
@[simp] theorem State.setRing_memEpoch (s : State) (n : Nat) (r : Ring) : (s.setRing n r).memEpoch = s.memEpoch := rfl
@[simp] theorem State.setRing_badBursts (s : State) (n : Nat) (r : Ring) : (s.setRing n r).badBursts = s.badBursts := rfl
@[simp] theorem State.setRing_hostMem (s : State) (n : Nat) (r : Ring) : (s.setRing n r).hostMem = s.hostMem := rfl
@[simp] theorem State.setRing_freeCount (s : State) (n : Nat) (r : Ring) : (s.setRing n r).freeCount = s.freeCount := rfl
@[simp] theorem State.setRing_out (s : State) (n : Nat) (r : Ring) : (s.setRing n r).out = s.out := rfl
@[simp] theorem State.setRing_msixMasked (s : State) (n : Nat) (r : Ring) : (s.setRing n r).msixMasked = s.msixMasked := rfl
@[simp] theorem State.setRing_msixPending (s : State) (n : Nat) (r : Ring) : (s.setRing n r).msixPending = s.msixPending := rfl
@[simp] theorem State.setRing_vfSplit (s : State) (n : Nat) (r : Ring) : (s.setRing n r).vfSplit = s.vfSplit := rfl
@[simp] theorem State.setRing_perst (s : State) (n : Nat) (r : Ring) : (s.setRing n r).perst = s.perst := rfl
@[simp] theorem State.setRing_wardFence (s : State) (n : Nat) (r : Ring) : (s.setRing n r).wardFence = s.wardFence := rfl
@[simp] theorem State.setRing_pldm (s : State) (n : Nat) (r : Ring) : (s.setRing n r).pldm = s.pldm := rfl
@[simp] theorem State.setRing_wp (s : State) (n : Nat) (r : Ring) : (s.setRing n r).wp = s.wp := rfl
@[simp] theorem State.setRing_chiplets (s : State) (n : Nat) (r : Ring) : (s.setRing n r).chiplets = s.chiplets := rfl
@[simp] theorem State.setRing_ranges (s : State) (n : Nat) (r : Ring) : (s.setRing n r).ranges = s.ranges := rfl
@[simp] theorem State.setRing_accNet (s : State) (n : Nat) (r : Ring) : (s.setRing n r).accNet = s.accNet := rfl
@[simp] theorem State.setRing_accHeld (s : State) (n : Nat) (r : Ring) : (s.setRing n r).accHeld = s.accHeld := rfl
@[simp] theorem State.setRing_injects (s : State) (n : Nat) (r : Ring) : (s.setRing n r).injects = s.injects := rfl
@[simp] theorem State.setRing_staged (s : State) (n : Nat) (r : Ring) : (s.setRing n r).staged = s.staged := rfl
@[simp] theorem State.setRing_lsStaged (s : State) (n : Nat) (r : Ring) : (s.setRing n r).lsStaged = s.lsStaged := rfl
@[simp] theorem State.setRing_slotMem (s : State) (n : Nat) (r : Ring) : (s.setRing n r).slotMem = s.slotMem := rfl
@[simp] theorem State.setRing_mirror (s : State) (n : Nat) (r : Ring) : (s.setRing n r).mirror = s.mirror := rfl
@[simp] theorem State.setRing_mirrorAt (s : State) (n : Nat) (r : Ring) : (s.setRing n r).mirrorAt = s.mirrorAt := rfl
@[simp] theorem State.setRing_pins (s : State) (n : Nat) (r : Ring) : (s.setRing n r).pins = s.pins := rfl
@[simp] theorem State.setRing_regPort (s : State) (n : Nat) (r : Ring) : (s.setRing n r).regPort = s.regPort := rfl
@[simp] theorem State.setRing_census (s : State) (n : Nat) (r : Ring) : (s.setRing n r).census = s.census := rfl
@[simp] theorem State.setRing_resighted (s : State) (n : Nat) (r : Ring) : (s.setRing n r).resighted = s.resighted := rfl
@[simp] theorem State.setRing_sigs (s : State) (n : Nat) (r : Ring) : (s.setRing n r).sigs = s.sigs := rfl
@[simp] theorem State.setRing_sigNet (s : State) (n : Nat) (r : Ring) : (s.setRing n r).sigNet = s.sigNet := rfl
@[simp] theorem State.setRing_evts (s : State) (n : Nat) (r : Ring) : (s.setRing n r).evts = s.evts := rfl
@[simp] theorem State.setRing_ghosts (s : State) (n : Nat) (r : Ring) : (s.setRing n r).ghosts = s.ghosts := rfl
@[simp] theorem State.setRing_softRegion (s : State) (n : Nat) (r : Ring) : (s.setRing n r).softRegion = s.softRegion := rfl
@[simp] theorem State.setRing_softClear (s : State) (n : Nat) (r : Ring) : (s.setRing n r).softClear = s.softClear := rfl
@[simp] theorem State.setRing_repairs (s : State) (n : Nat) (r : Ring) : (s.setRing n r).repairs = s.repairs := rfl
@[simp] theorem State.setRing_unrecorded (s : State) (n : Nat) (r : Ring) : (s.setRing n r).unrecorded = s.unrecorded := rfl
@[simp] theorem State.setRing_lastFetch (s : State) (n : Nat) (r : Ring) : (s.setRing n r).lastFetch = s.lastFetch := rfl
@[simp] theorem State.setRing_arbs (s : State) (n : Nat) (r : Ring) : (s.setRing n r).arbs = s.arbs := rfl
@[simp] theorem State.setRing_upds (s : State) (n : Nat) (r : Ring) : (s.setRing n r).upds = s.upds := rfl
@[simp] theorem State.setRing_updQueue (s : State) (n : Nat) (r : Ring) : (s.setRing n r).updQueue = s.updQueue := rfl
@[simp] theorem State.setRing_updOpen (s : State) (n : Nat) (r : Ring) : (s.setRing n r).updOpen = s.updOpen := rfl
@[simp] theorem State.setRing_deltaOpen (s : State) (n : Nat) (r : Ring) : (s.setRing n r).deltaOpen = s.deltaOpen := rfl
@[simp] theorem State.setRing_deltaNext (s : State) (n : Nat) (r : Ring) : (s.setRing n r).deltaNext = s.deltaNext := rfl
@[simp] theorem State.setRing_variants (s : State) (n : Nat) (r : Ring) : (s.setRing n r).variants = s.variants := rfl
@[simp] theorem State.setRing_varStaged (s : State) (n : Nat) (r : Ring) : (s.setRing n r).varStaged = s.varStaged := rfl
@[simp] theorem State.setRing_links (s : State) (n : Nat) (r : Ring) : (s.setRing n r).links = s.links := rfl
@[simp] theorem State.setRing_probeSeen (s : State) (n : Nat) (r : Ring) : (s.setRing n r).probeSeen = s.probeSeen := rfl
@[simp] theorem State.setRing_colls (s : State) (n : Nat) (r : Ring) : (s.setRing n r).colls = s.colls := rfl
@[simp] theorem State.setRing_fetches (s : State) (n : Nat) (r : Ring) : (s.setRing n r).fetches = s.fetches := rfl
@[simp] theorem State.setRing_keys (s : State) (n : Nat) (r : Ring) : (s.setRing n r).keys = s.keys := rfl
@[simp] theorem State.setRing_epochs (s : State) (n : Nat) (r : Ring) : (s.setRing n r).epochs = s.epochs := rfl
@[simp] theorem State.setRing_epochGone (s : State) (n : Nat) (r : Ring) : (s.setRing n r).epochGone = s.epochGone := rfl
@[simp] theorem State.setRing_prevSince (s : State) (n : Nat) (r : Ring) : (s.setRing n r).prevSince = s.prevSince := rfl
@[simp] theorem State.setRing_prevGrace (s : State) (n : Nat) (r : Ring) : (s.setRing n r).prevGrace = s.prevGrace := rfl
@[simp] theorem State.setRing_replay (s : State) (n : Nat) (r : Ring) : (s.setRing n r).replay = s.replay := rfl
@[simp] theorem State.setRing_ciphers (s : State) (n : Nat) (r : Ring) : (s.setRing n r).ciphers = s.ciphers := rfl
@[simp] theorem State.setRing_tx (s : State) (n : Nat) (r : Ring) : (s.setRing n r).tx = s.tx := rfl
@[simp] theorem State.setRing_streamNum (s : State) (n : Nat) (r : Ring) : (s.setRing n r).streamNum = s.streamNum := rfl
@[simp] theorem State.setRing_partners (s : State) (n : Nat) (r : Ring) : (s.setRing n r).partners = s.partners := rfl
@[simp] theorem State.setRing_rx (s : State) (n : Nat) (r : Ring) : (s.setRing n r).rx = s.rx := rfl
@[simp] theorem State.setRing_delta (s : State) (n : Nat) (r : Ring) : (s.setRing n r).delta = s.delta := rfl
@[simp] theorem State.setRing_sectT (s : State) (n : Nat) (r : Ring) : (s.setRing n r).sectT = s.sectT := rfl
@[simp] theorem State.setRing_hold (s : State) (n : Nat) (r : Ring) : (s.setRing n r).hold = s.hold := rfl
@[simp] theorem State.setRing_spanDue (s : State) (n : Nat) (r : Ring) : (s.setRing n r).spanDue = s.spanDue := rfl
@[simp] theorem State.setRing_snapDue (s : State) (n : Nat) (r : Ring) : (s.setRing n r).snapDue = s.snapDue := rfl
@[simp] theorem State.setRing_reports (s : State) (n : Nat) (r : Ring) : (s.setRing n r).reports = s.reports := rfl
@[simp] theorem State.setRing_ownAdded (s : State) (n : Nat) (r : Ring) : (s.setRing n r).ownAdded = s.ownAdded := rfl
@[simp] theorem State.setRing_covered (s : State) (n : Nat) (r : Ring) : (s.setRing n r).covered = s.covered := rfl
@[simp] theorem State.setRing_handoffs (s : State) (n : Nat) (r : Ring) : (s.setRing n r).handoffs = s.handoffs := rfl
@[simp] theorem State.setRing_handing (s : State) (n : Nat) (r : Ring) : (s.setRing n r).handing = s.handing := rfl
@[simp] theorem State.setRing_serveBufs (s : State) (n : Nat) (r : Ring) : (s.setRing n r).serveBufs = s.serveBufs := rfl
@[simp] theorem State.setRing_snapFetch (s : State) (n : Nat) (r : Ring) : (s.setRing n r).snapFetch = s.snapFetch := rfl
@[simp] theorem State.setRing_pwr (s : State) (n : Nat) (r : Ring) : (s.setRing n r).pwr = s.pwr := rfl
@[simp] theorem State.setRing_clocks (s : State) (n : Nat) (r : Ring) : (s.setRing n r).clocks = s.clocks := rfl
@[simp] theorem State.setRing_calTaken (s : State) (n : Nat) (r : Ring) : (s.setRing n r).calTaken = s.calTaken := rfl
@[simp] theorem State.setRing_temps (s : State) (n : Nat) (r : Ring) : (s.setRing n r).temps = s.temps := rfl
@[simp] theorem State.setRing_fw (s : State) (n : Nat) (r : Ring) : (s.setRing n r).fw = s.fw := rfl
@[simp] theorem State.setRing_pads (s : State) (n : Nat) (r : Ring) : (s.setRing n r).pads = s.pads := rfl
@[simp] theorem State.setRing_wardDue (s : State) (n : Nat) (r : Ring) : (s.setRing n r).wardDue = s.wardDue := rfl
@[simp] theorem State.setRing_warmDue (s : State) (n : Nat) (r : Ring) : (s.setRing n r).warmDue = s.warmDue := rfl
@[simp] theorem State.setRing_dump (s : State) (n : Nat) (r : Ring) : (s.setRing n r).dump = s.dump := rfl
@[simp] theorem State.setRing_remote (s : State) (n : Nat) (r : Ring) : (s.setRing n r).remote = s.remote := rfl
@[simp] theorem State.setRing_fetched (s : State) (n : Nat) (r : Ring) : (s.setRing n r).fetched = s.fetched := rfl
@[simp] theorem State.setRing_units (s : State) (n : Nat) (r : Ring) : (s.setRing n r).units = s.units := rfl

@[simp] theorem State.setSig_pending (s : State) (c v : Nat) : (s.setSig c v).pending = s.pending := rfl
@[simp] theorem State.setSig_now (s : State) (c v : Nat) : (s.setSig c v).now = s.now := rfl
@[simp] theorem State.setSig_regs (s : State) (c v : Nat) : (s.setSig c v).regs = s.regs := rfl
@[simp] theorem State.setSig_mem (s : State) (c v : Nat) : (s.setSig c v).mem = s.mem := rfl
@[simp] theorem State.setSig_memEpoch (s : State) (c v : Nat) : (s.setSig c v).memEpoch = s.memEpoch := rfl
@[simp] theorem State.setSig_badBursts (s : State) (c v : Nat) : (s.setSig c v).badBursts = s.badBursts := rfl
@[simp] theorem State.setSig_hostMem (s : State) (c v : Nat) : (s.setSig c v).hostMem = s.hostMem := rfl
@[simp] theorem State.setSig_freeCount (s : State) (c v : Nat) : (s.setSig c v).freeCount = s.freeCount := rfl
@[simp] theorem State.setSig_out (s : State) (c v : Nat) : (s.setSig c v).out = s.out := rfl
@[simp] theorem State.setSig_msixMasked (s : State) (c v : Nat) : (s.setSig c v).msixMasked = s.msixMasked := rfl
@[simp] theorem State.setSig_msixPending (s : State) (c v : Nat) : (s.setSig c v).msixPending = s.msixPending := rfl
@[simp] theorem State.setSig_vfSplit (s : State) (c v : Nat) : (s.setSig c v).vfSplit = s.vfSplit := rfl
@[simp] theorem State.setSig_perst (s : State) (c v : Nat) : (s.setSig c v).perst = s.perst := rfl
@[simp] theorem State.setSig_wardFence (s : State) (c v : Nat) : (s.setSig c v).wardFence = s.wardFence := rfl
@[simp] theorem State.setSig_pldm (s : State) (c v : Nat) : (s.setSig c v).pldm = s.pldm := rfl
@[simp] theorem State.setSig_wp (s : State) (c v : Nat) : (s.setSig c v).wp = s.wp := rfl
@[simp] theorem State.setSig_chiplets (s : State) (c v : Nat) : (s.setSig c v).chiplets = s.chiplets := rfl
@[simp] theorem State.setSig_ranges (s : State) (c v : Nat) : (s.setSig c v).ranges = s.ranges := rfl
@[simp] theorem State.setSig_accNet (s : State) (c v : Nat) : (s.setSig c v).accNet = s.accNet := rfl
@[simp] theorem State.setSig_accHeld (s : State) (c v : Nat) : (s.setSig c v).accHeld = s.accHeld := rfl
@[simp] theorem State.setSig_injects (s : State) (c v : Nat) : (s.setSig c v).injects = s.injects := rfl
@[simp] theorem State.setSig_staged (s : State) (c v : Nat) : (s.setSig c v).staged = s.staged := rfl
@[simp] theorem State.setSig_lsStaged (s : State) (c v : Nat) : (s.setSig c v).lsStaged = s.lsStaged := rfl
@[simp] theorem State.setSig_slotMem (s : State) (c v : Nat) : (s.setSig c v).slotMem = s.slotMem := rfl
@[simp] theorem State.setSig_mirror (s : State) (c v : Nat) : (s.setSig c v).mirror = s.mirror := rfl
@[simp] theorem State.setSig_mirrorAt (s : State) (c v : Nat) : (s.setSig c v).mirrorAt = s.mirrorAt := rfl
@[simp] theorem State.setSig_pins (s : State) (c v : Nat) : (s.setSig c v).pins = s.pins := rfl
@[simp] theorem State.setSig_regPort (s : State) (c v : Nat) : (s.setSig c v).regPort = s.regPort := rfl
@[simp] theorem State.setSig_census (s : State) (c v : Nat) : (s.setSig c v).census = s.census := rfl
@[simp] theorem State.setSig_resighted (s : State) (c v : Nat) : (s.setSig c v).resighted = s.resighted := rfl
@[simp] theorem State.setSig_sigNet (s : State) (c v : Nat) : (s.setSig c v).sigNet = s.sigNet := rfl
@[simp] theorem State.setSig_evts (s : State) (c v : Nat) : (s.setSig c v).evts = s.evts := rfl
@[simp] theorem State.setSig_rings (s : State) (c v : Nat) : (s.setSig c v).rings = s.rings := rfl
@[simp] theorem State.setSig_ghosts (s : State) (c v : Nat) : (s.setSig c v).ghosts = s.ghosts := rfl
@[simp] theorem State.setSig_softRegion (s : State) (c v : Nat) : (s.setSig c v).softRegion = s.softRegion := rfl
@[simp] theorem State.setSig_softClear (s : State) (c v : Nat) : (s.setSig c v).softClear = s.softClear := rfl
@[simp] theorem State.setSig_repairs (s : State) (c v : Nat) : (s.setSig c v).repairs = s.repairs := rfl
@[simp] theorem State.setSig_unrecorded (s : State) (c v : Nat) : (s.setSig c v).unrecorded = s.unrecorded := rfl
@[simp] theorem State.setSig_lastFetch (s : State) (c v : Nat) : (s.setSig c v).lastFetch = s.lastFetch := rfl
@[simp] theorem State.setSig_arbs (s : State) (c v : Nat) : (s.setSig c v).arbs = s.arbs := rfl
@[simp] theorem State.setSig_upds (s : State) (c v : Nat) : (s.setSig c v).upds = s.upds := rfl
@[simp] theorem State.setSig_updQueue (s : State) (c v : Nat) : (s.setSig c v).updQueue = s.updQueue := rfl
@[simp] theorem State.setSig_updOpen (s : State) (c v : Nat) : (s.setSig c v).updOpen = s.updOpen := rfl
@[simp] theorem State.setSig_deltaOpen (s : State) (c v : Nat) : (s.setSig c v).deltaOpen = s.deltaOpen := rfl
@[simp] theorem State.setSig_deltaNext (s : State) (c v : Nat) : (s.setSig c v).deltaNext = s.deltaNext := rfl
@[simp] theorem State.setSig_variants (s : State) (c v : Nat) : (s.setSig c v).variants = s.variants := rfl
@[simp] theorem State.setSig_varStaged (s : State) (c v : Nat) : (s.setSig c v).varStaged = s.varStaged := rfl
@[simp] theorem State.setSig_links (s : State) (c v : Nat) : (s.setSig c v).links = s.links := rfl
@[simp] theorem State.setSig_probeSeen (s : State) (c v : Nat) : (s.setSig c v).probeSeen = s.probeSeen := rfl
@[simp] theorem State.setSig_colls (s : State) (c v : Nat) : (s.setSig c v).colls = s.colls := rfl
@[simp] theorem State.setSig_fetches (s : State) (c v : Nat) : (s.setSig c v).fetches = s.fetches := rfl
@[simp] theorem State.setSig_keys (s : State) (c v : Nat) : (s.setSig c v).keys = s.keys := rfl
@[simp] theorem State.setSig_epochs (s : State) (c v : Nat) : (s.setSig c v).epochs = s.epochs := rfl
@[simp] theorem State.setSig_epochGone (s : State) (c v : Nat) : (s.setSig c v).epochGone = s.epochGone := rfl
@[simp] theorem State.setSig_prevSince (s : State) (c v : Nat) : (s.setSig c v).prevSince = s.prevSince := rfl
@[simp] theorem State.setSig_prevGrace (s : State) (c v : Nat) : (s.setSig c v).prevGrace = s.prevGrace := rfl
@[simp] theorem State.setSig_replay (s : State) (c v : Nat) : (s.setSig c v).replay = s.replay := rfl
@[simp] theorem State.setSig_ciphers (s : State) (c v : Nat) : (s.setSig c v).ciphers = s.ciphers := rfl
@[simp] theorem State.setSig_tx (s : State) (c v : Nat) : (s.setSig c v).tx = s.tx := rfl
@[simp] theorem State.setSig_streamNum (s : State) (c v : Nat) : (s.setSig c v).streamNum = s.streamNum := rfl
@[simp] theorem State.setSig_partners (s : State) (c v : Nat) : (s.setSig c v).partners = s.partners := rfl
@[simp] theorem State.setSig_rx (s : State) (c v : Nat) : (s.setSig c v).rx = s.rx := rfl
@[simp] theorem State.setSig_delta (s : State) (c v : Nat) : (s.setSig c v).delta = s.delta := rfl
@[simp] theorem State.setSig_sectT (s : State) (c v : Nat) : (s.setSig c v).sectT = s.sectT := rfl
@[simp] theorem State.setSig_hold (s : State) (c v : Nat) : (s.setSig c v).hold = s.hold := rfl
@[simp] theorem State.setSig_spanDue (s : State) (c v : Nat) : (s.setSig c v).spanDue = s.spanDue := rfl
@[simp] theorem State.setSig_snapDue (s : State) (c v : Nat) : (s.setSig c v).snapDue = s.snapDue := rfl
@[simp] theorem State.setSig_reports (s : State) (c v : Nat) : (s.setSig c v).reports = s.reports := rfl
@[simp] theorem State.setSig_ownAdded (s : State) (c v : Nat) : (s.setSig c v).ownAdded = s.ownAdded := rfl
@[simp] theorem State.setSig_covered (s : State) (c v : Nat) : (s.setSig c v).covered = s.covered := rfl
@[simp] theorem State.setSig_handoffs (s : State) (c v : Nat) : (s.setSig c v).handoffs = s.handoffs := rfl
@[simp] theorem State.setSig_handing (s : State) (c v : Nat) : (s.setSig c v).handing = s.handing := rfl
@[simp] theorem State.setSig_serveBufs (s : State) (c v : Nat) : (s.setSig c v).serveBufs = s.serveBufs := rfl
@[simp] theorem State.setSig_snapFetch (s : State) (c v : Nat) : (s.setSig c v).snapFetch = s.snapFetch := rfl
@[simp] theorem State.setSig_pwr (s : State) (c v : Nat) : (s.setSig c v).pwr = s.pwr := rfl
@[simp] theorem State.setSig_clocks (s : State) (c v : Nat) : (s.setSig c v).clocks = s.clocks := rfl
@[simp] theorem State.setSig_calTaken (s : State) (c v : Nat) : (s.setSig c v).calTaken = s.calTaken := rfl
@[simp] theorem State.setSig_temps (s : State) (c v : Nat) : (s.setSig c v).temps = s.temps := rfl
@[simp] theorem State.setSig_fw (s : State) (c v : Nat) : (s.setSig c v).fw = s.fw := rfl
@[simp] theorem State.setSig_pads (s : State) (c v : Nat) : (s.setSig c v).pads = s.pads := rfl
@[simp] theorem State.setSig_wardDue (s : State) (c v : Nat) : (s.setSig c v).wardDue = s.wardDue := rfl
@[simp] theorem State.setSig_warmDue (s : State) (c v : Nat) : (s.setSig c v).warmDue = s.warmDue := rfl
@[simp] theorem State.setSig_dump (s : State) (c v : Nat) : (s.setSig c v).dump = s.dump := rfl
@[simp] theorem State.setSig_remote (s : State) (c v : Nat) : (s.setSig c v).remote = s.remote := rfl
@[simp] theorem State.setSig_fetched (s : State) (c v : Nat) : (s.setSig c v).fetched = s.fetched := rfl
@[simp] theorem State.setSig_units (s : State) (c v : Nat) : (s.setSig c v).units = s.units := rfl

@[simp] theorem State.setArb_pending (s : State) (d a : Nat) (x : Arb) : (s.setArb d a x).pending = s.pending := rfl
@[simp] theorem State.setArb_now (s : State) (d a : Nat) (x : Arb) : (s.setArb d a x).now = s.now := rfl
@[simp] theorem State.setArb_regs (s : State) (d a : Nat) (x : Arb) : (s.setArb d a x).regs = s.regs := rfl
@[simp] theorem State.setArb_mem (s : State) (d a : Nat) (x : Arb) : (s.setArb d a x).mem = s.mem := rfl
@[simp] theorem State.setArb_memEpoch (s : State) (d a : Nat) (x : Arb) : (s.setArb d a x).memEpoch = s.memEpoch := rfl
@[simp] theorem State.setArb_badBursts (s : State) (d a : Nat) (x : Arb) : (s.setArb d a x).badBursts = s.badBursts := rfl
@[simp] theorem State.setArb_hostMem (s : State) (d a : Nat) (x : Arb) : (s.setArb d a x).hostMem = s.hostMem := rfl
@[simp] theorem State.setArb_freeCount (s : State) (d a : Nat) (x : Arb) : (s.setArb d a x).freeCount = s.freeCount := rfl
@[simp] theorem State.setArb_out (s : State) (d a : Nat) (x : Arb) : (s.setArb d a x).out = s.out := rfl
@[simp] theorem State.setArb_msixMasked (s : State) (d a : Nat) (x : Arb) : (s.setArb d a x).msixMasked = s.msixMasked := rfl
@[simp] theorem State.setArb_msixPending (s : State) (d a : Nat) (x : Arb) : (s.setArb d a x).msixPending = s.msixPending := rfl
@[simp] theorem State.setArb_vfSplit (s : State) (d a : Nat) (x : Arb) : (s.setArb d a x).vfSplit = s.vfSplit := rfl
@[simp] theorem State.setArb_perst (s : State) (d a : Nat) (x : Arb) : (s.setArb d a x).perst = s.perst := rfl
@[simp] theorem State.setArb_wardFence (s : State) (d a : Nat) (x : Arb) : (s.setArb d a x).wardFence = s.wardFence := rfl
@[simp] theorem State.setArb_pldm (s : State) (d a : Nat) (x : Arb) : (s.setArb d a x).pldm = s.pldm := rfl
@[simp] theorem State.setArb_wp (s : State) (d a : Nat) (x : Arb) : (s.setArb d a x).wp = s.wp := rfl
@[simp] theorem State.setArb_chiplets (s : State) (d a : Nat) (x : Arb) : (s.setArb d a x).chiplets = s.chiplets := rfl
@[simp] theorem State.setArb_ranges (s : State) (d a : Nat) (x : Arb) : (s.setArb d a x).ranges = s.ranges := rfl
@[simp] theorem State.setArb_accNet (s : State) (d a : Nat) (x : Arb) : (s.setArb d a x).accNet = s.accNet := rfl
@[simp] theorem State.setArb_accHeld (s : State) (d a : Nat) (x : Arb) : (s.setArb d a x).accHeld = s.accHeld := rfl
@[simp] theorem State.setArb_injects (s : State) (d a : Nat) (x : Arb) : (s.setArb d a x).injects = s.injects := rfl
@[simp] theorem State.setArb_staged (s : State) (d a : Nat) (x : Arb) : (s.setArb d a x).staged = s.staged := rfl
@[simp] theorem State.setArb_lsStaged (s : State) (d a : Nat) (x : Arb) : (s.setArb d a x).lsStaged = s.lsStaged := rfl
@[simp] theorem State.setArb_slotMem (s : State) (d a : Nat) (x : Arb) : (s.setArb d a x).slotMem = s.slotMem := rfl
@[simp] theorem State.setArb_mirror (s : State) (d a : Nat) (x : Arb) : (s.setArb d a x).mirror = s.mirror := rfl
@[simp] theorem State.setArb_mirrorAt (s : State) (d a : Nat) (x : Arb) : (s.setArb d a x).mirrorAt = s.mirrorAt := rfl
@[simp] theorem State.setArb_pins (s : State) (d a : Nat) (x : Arb) : (s.setArb d a x).pins = s.pins := rfl
@[simp] theorem State.setArb_regPort (s : State) (d a : Nat) (x : Arb) : (s.setArb d a x).regPort = s.regPort := rfl
@[simp] theorem State.setArb_census (s : State) (d a : Nat) (x : Arb) : (s.setArb d a x).census = s.census := rfl
@[simp] theorem State.setArb_resighted (s : State) (d a : Nat) (x : Arb) : (s.setArb d a x).resighted = s.resighted := rfl
@[simp] theorem State.setArb_sigs (s : State) (d a : Nat) (x : Arb) : (s.setArb d a x).sigs = s.sigs := rfl
@[simp] theorem State.setArb_sigNet (s : State) (d a : Nat) (x : Arb) : (s.setArb d a x).sigNet = s.sigNet := rfl
@[simp] theorem State.setArb_evts (s : State) (d a : Nat) (x : Arb) : (s.setArb d a x).evts = s.evts := rfl
@[simp] theorem State.setArb_rings (s : State) (d a : Nat) (x : Arb) : (s.setArb d a x).rings = s.rings := rfl
@[simp] theorem State.setArb_ghosts (s : State) (d a : Nat) (x : Arb) : (s.setArb d a x).ghosts = s.ghosts := rfl
@[simp] theorem State.setArb_softRegion (s : State) (d a : Nat) (x : Arb) : (s.setArb d a x).softRegion = s.softRegion := rfl
@[simp] theorem State.setArb_softClear (s : State) (d a : Nat) (x : Arb) : (s.setArb d a x).softClear = s.softClear := rfl
@[simp] theorem State.setArb_repairs (s : State) (d a : Nat) (x : Arb) : (s.setArb d a x).repairs = s.repairs := rfl
@[simp] theorem State.setArb_unrecorded (s : State) (d a : Nat) (x : Arb) : (s.setArb d a x).unrecorded = s.unrecorded := rfl
@[simp] theorem State.setArb_lastFetch (s : State) (d a : Nat) (x : Arb) : (s.setArb d a x).lastFetch = s.lastFetch := rfl
@[simp] theorem State.setArb_upds (s : State) (d a : Nat) (x : Arb) : (s.setArb d a x).upds = s.upds := rfl
@[simp] theorem State.setArb_updQueue (s : State) (d a : Nat) (x : Arb) : (s.setArb d a x).updQueue = s.updQueue := rfl
@[simp] theorem State.setArb_updOpen (s : State) (d a : Nat) (x : Arb) : (s.setArb d a x).updOpen = s.updOpen := rfl
@[simp] theorem State.setArb_deltaOpen (s : State) (d a : Nat) (x : Arb) : (s.setArb d a x).deltaOpen = s.deltaOpen := rfl
@[simp] theorem State.setArb_deltaNext (s : State) (d a : Nat) (x : Arb) : (s.setArb d a x).deltaNext = s.deltaNext := rfl
@[simp] theorem State.setArb_variants (s : State) (d a : Nat) (x : Arb) : (s.setArb d a x).variants = s.variants := rfl
@[simp] theorem State.setArb_varStaged (s : State) (d a : Nat) (x : Arb) : (s.setArb d a x).varStaged = s.varStaged := rfl
@[simp] theorem State.setArb_links (s : State) (d a : Nat) (x : Arb) : (s.setArb d a x).links = s.links := rfl
@[simp] theorem State.setArb_probeSeen (s : State) (d a : Nat) (x : Arb) : (s.setArb d a x).probeSeen = s.probeSeen := rfl
@[simp] theorem State.setArb_colls (s : State) (d a : Nat) (x : Arb) : (s.setArb d a x).colls = s.colls := rfl
@[simp] theorem State.setArb_fetches (s : State) (d a : Nat) (x : Arb) : (s.setArb d a x).fetches = s.fetches := rfl
@[simp] theorem State.setArb_keys (s : State) (d a : Nat) (x : Arb) : (s.setArb d a x).keys = s.keys := rfl
@[simp] theorem State.setArb_epochs (s : State) (d a : Nat) (x : Arb) : (s.setArb d a x).epochs = s.epochs := rfl
@[simp] theorem State.setArb_epochGone (s : State) (d a : Nat) (x : Arb) : (s.setArb d a x).epochGone = s.epochGone := rfl
@[simp] theorem State.setArb_prevSince (s : State) (d a : Nat) (x : Arb) : (s.setArb d a x).prevSince = s.prevSince := rfl
@[simp] theorem State.setArb_prevGrace (s : State) (d a : Nat) (x : Arb) : (s.setArb d a x).prevGrace = s.prevGrace := rfl
@[simp] theorem State.setArb_replay (s : State) (d a : Nat) (x : Arb) : (s.setArb d a x).replay = s.replay := rfl
@[simp] theorem State.setArb_ciphers (s : State) (d a : Nat) (x : Arb) : (s.setArb d a x).ciphers = s.ciphers := rfl
@[simp] theorem State.setArb_tx (s : State) (d a : Nat) (x : Arb) : (s.setArb d a x).tx = s.tx := rfl
@[simp] theorem State.setArb_streamNum (s : State) (d a : Nat) (x : Arb) : (s.setArb d a x).streamNum = s.streamNum := rfl
@[simp] theorem State.setArb_partners (s : State) (d a : Nat) (x : Arb) : (s.setArb d a x).partners = s.partners := rfl
@[simp] theorem State.setArb_rx (s : State) (d a : Nat) (x : Arb) : (s.setArb d a x).rx = s.rx := rfl
@[simp] theorem State.setArb_delta (s : State) (d a : Nat) (x : Arb) : (s.setArb d a x).delta = s.delta := rfl
@[simp] theorem State.setArb_sectT (s : State) (d a : Nat) (x : Arb) : (s.setArb d a x).sectT = s.sectT := rfl
@[simp] theorem State.setArb_hold (s : State) (d a : Nat) (x : Arb) : (s.setArb d a x).hold = s.hold := rfl
@[simp] theorem State.setArb_spanDue (s : State) (d a : Nat) (x : Arb) : (s.setArb d a x).spanDue = s.spanDue := rfl
@[simp] theorem State.setArb_snapDue (s : State) (d a : Nat) (x : Arb) : (s.setArb d a x).snapDue = s.snapDue := rfl
@[simp] theorem State.setArb_reports (s : State) (d a : Nat) (x : Arb) : (s.setArb d a x).reports = s.reports := rfl
@[simp] theorem State.setArb_ownAdded (s : State) (d a : Nat) (x : Arb) : (s.setArb d a x).ownAdded = s.ownAdded := rfl
@[simp] theorem State.setArb_covered (s : State) (d a : Nat) (x : Arb) : (s.setArb d a x).covered = s.covered := rfl
@[simp] theorem State.setArb_handoffs (s : State) (d a : Nat) (x : Arb) : (s.setArb d a x).handoffs = s.handoffs := rfl
@[simp] theorem State.setArb_handing (s : State) (d a : Nat) (x : Arb) : (s.setArb d a x).handing = s.handing := rfl
@[simp] theorem State.setArb_serveBufs (s : State) (d a : Nat) (x : Arb) : (s.setArb d a x).serveBufs = s.serveBufs := rfl
@[simp] theorem State.setArb_snapFetch (s : State) (d a : Nat) (x : Arb) : (s.setArb d a x).snapFetch = s.snapFetch := rfl
@[simp] theorem State.setArb_pwr (s : State) (d a : Nat) (x : Arb) : (s.setArb d a x).pwr = s.pwr := rfl
@[simp] theorem State.setArb_clocks (s : State) (d a : Nat) (x : Arb) : (s.setArb d a x).clocks = s.clocks := rfl
@[simp] theorem State.setArb_calTaken (s : State) (d a : Nat) (x : Arb) : (s.setArb d a x).calTaken = s.calTaken := rfl
@[simp] theorem State.setArb_temps (s : State) (d a : Nat) (x : Arb) : (s.setArb d a x).temps = s.temps := rfl
@[simp] theorem State.setArb_fw (s : State) (d a : Nat) (x : Arb) : (s.setArb d a x).fw = s.fw := rfl
@[simp] theorem State.setArb_pads (s : State) (d a : Nat) (x : Arb) : (s.setArb d a x).pads = s.pads := rfl
@[simp] theorem State.setArb_wardDue (s : State) (d a : Nat) (x : Arb) : (s.setArb d a x).wardDue = s.wardDue := rfl
@[simp] theorem State.setArb_warmDue (s : State) (d a : Nat) (x : Arb) : (s.setArb d a x).warmDue = s.warmDue := rfl
@[simp] theorem State.setArb_dump (s : State) (d a : Nat) (x : Arb) : (s.setArb d a x).dump = s.dump := rfl
@[simp] theorem State.setArb_remote (s : State) (d a : Nat) (x : Arb) : (s.setArb d a x).remote = s.remote := rfl
@[simp] theorem State.setArb_fetched (s : State) (d a : Nat) (x : Arb) : (s.setArb d a x).fetched = s.fetched := rfl
@[simp] theorem State.setArb_units (s : State) (d a : Nat) (x : Arb) : (s.setArb d a x).units = s.units := rfl

@[simp] theorem State.setLink_pending (s : State) (l : Nat) (x : Link) : (s.setLink l x).pending = s.pending := rfl
@[simp] theorem State.setLink_now (s : State) (l : Nat) (x : Link) : (s.setLink l x).now = s.now := rfl
@[simp] theorem State.setLink_regs (s : State) (l : Nat) (x : Link) : (s.setLink l x).regs = s.regs := rfl
@[simp] theorem State.setLink_mem (s : State) (l : Nat) (x : Link) : (s.setLink l x).mem = s.mem := rfl
@[simp] theorem State.setLink_memEpoch (s : State) (l : Nat) (x : Link) : (s.setLink l x).memEpoch = s.memEpoch := rfl
@[simp] theorem State.setLink_badBursts (s : State) (l : Nat) (x : Link) : (s.setLink l x).badBursts = s.badBursts := rfl
@[simp] theorem State.setLink_hostMem (s : State) (l : Nat) (x : Link) : (s.setLink l x).hostMem = s.hostMem := rfl
@[simp] theorem State.setLink_freeCount (s : State) (l : Nat) (x : Link) : (s.setLink l x).freeCount = s.freeCount := rfl
@[simp] theorem State.setLink_out (s : State) (l : Nat) (x : Link) : (s.setLink l x).out = s.out := rfl
@[simp] theorem State.setLink_msixMasked (s : State) (l : Nat) (x : Link) : (s.setLink l x).msixMasked = s.msixMasked := rfl
@[simp] theorem State.setLink_msixPending (s : State) (l : Nat) (x : Link) : (s.setLink l x).msixPending = s.msixPending := rfl
@[simp] theorem State.setLink_vfSplit (s : State) (l : Nat) (x : Link) : (s.setLink l x).vfSplit = s.vfSplit := rfl
@[simp] theorem State.setLink_perst (s : State) (l : Nat) (x : Link) : (s.setLink l x).perst = s.perst := rfl
@[simp] theorem State.setLink_wardFence (s : State) (l : Nat) (x : Link) : (s.setLink l x).wardFence = s.wardFence := rfl
@[simp] theorem State.setLink_pldm (s : State) (l : Nat) (x : Link) : (s.setLink l x).pldm = s.pldm := rfl
@[simp] theorem State.setLink_wp (s : State) (l : Nat) (x : Link) : (s.setLink l x).wp = s.wp := rfl
@[simp] theorem State.setLink_chiplets (s : State) (l : Nat) (x : Link) : (s.setLink l x).chiplets = s.chiplets := rfl
@[simp] theorem State.setLink_ranges (s : State) (l : Nat) (x : Link) : (s.setLink l x).ranges = s.ranges := rfl
@[simp] theorem State.setLink_accNet (s : State) (l : Nat) (x : Link) : (s.setLink l x).accNet = s.accNet := rfl
@[simp] theorem State.setLink_accHeld (s : State) (l : Nat) (x : Link) : (s.setLink l x).accHeld = s.accHeld := rfl
@[simp] theorem State.setLink_injects (s : State) (l : Nat) (x : Link) : (s.setLink l x).injects = s.injects := rfl
@[simp] theorem State.setLink_staged (s : State) (l : Nat) (x : Link) : (s.setLink l x).staged = s.staged := rfl
@[simp] theorem State.setLink_lsStaged (s : State) (l : Nat) (x : Link) : (s.setLink l x).lsStaged = s.lsStaged := rfl
@[simp] theorem State.setLink_slotMem (s : State) (l : Nat) (x : Link) : (s.setLink l x).slotMem = s.slotMem := rfl
@[simp] theorem State.setLink_mirror (s : State) (l : Nat) (x : Link) : (s.setLink l x).mirror = s.mirror := rfl
@[simp] theorem State.setLink_mirrorAt (s : State) (l : Nat) (x : Link) : (s.setLink l x).mirrorAt = s.mirrorAt := rfl
@[simp] theorem State.setLink_pins (s : State) (l : Nat) (x : Link) : (s.setLink l x).pins = s.pins := rfl
@[simp] theorem State.setLink_regPort (s : State) (l : Nat) (x : Link) : (s.setLink l x).regPort = s.regPort := rfl
@[simp] theorem State.setLink_census (s : State) (l : Nat) (x : Link) : (s.setLink l x).census = s.census := rfl
@[simp] theorem State.setLink_resighted (s : State) (l : Nat) (x : Link) : (s.setLink l x).resighted = s.resighted := rfl
@[simp] theorem State.setLink_sigs (s : State) (l : Nat) (x : Link) : (s.setLink l x).sigs = s.sigs := rfl
@[simp] theorem State.setLink_sigNet (s : State) (l : Nat) (x : Link) : (s.setLink l x).sigNet = s.sigNet := rfl
@[simp] theorem State.setLink_evts (s : State) (l : Nat) (x : Link) : (s.setLink l x).evts = s.evts := rfl
@[simp] theorem State.setLink_rings (s : State) (l : Nat) (x : Link) : (s.setLink l x).rings = s.rings := rfl
@[simp] theorem State.setLink_ghosts (s : State) (l : Nat) (x : Link) : (s.setLink l x).ghosts = s.ghosts := rfl
@[simp] theorem State.setLink_softRegion (s : State) (l : Nat) (x : Link) : (s.setLink l x).softRegion = s.softRegion := rfl
@[simp] theorem State.setLink_softClear (s : State) (l : Nat) (x : Link) : (s.setLink l x).softClear = s.softClear := rfl
@[simp] theorem State.setLink_repairs (s : State) (l : Nat) (x : Link) : (s.setLink l x).repairs = s.repairs := rfl
@[simp] theorem State.setLink_unrecorded (s : State) (l : Nat) (x : Link) : (s.setLink l x).unrecorded = s.unrecorded := rfl
@[simp] theorem State.setLink_lastFetch (s : State) (l : Nat) (x : Link) : (s.setLink l x).lastFetch = s.lastFetch := rfl
@[simp] theorem State.setLink_arbs (s : State) (l : Nat) (x : Link) : (s.setLink l x).arbs = s.arbs := rfl
@[simp] theorem State.setLink_upds (s : State) (l : Nat) (x : Link) : (s.setLink l x).upds = s.upds := rfl
@[simp] theorem State.setLink_updQueue (s : State) (l : Nat) (x : Link) : (s.setLink l x).updQueue = s.updQueue := rfl
@[simp] theorem State.setLink_updOpen (s : State) (l : Nat) (x : Link) : (s.setLink l x).updOpen = s.updOpen := rfl
@[simp] theorem State.setLink_deltaOpen (s : State) (l : Nat) (x : Link) : (s.setLink l x).deltaOpen = s.deltaOpen := rfl
@[simp] theorem State.setLink_deltaNext (s : State) (l : Nat) (x : Link) : (s.setLink l x).deltaNext = s.deltaNext := rfl
@[simp] theorem State.setLink_variants (s : State) (l : Nat) (x : Link) : (s.setLink l x).variants = s.variants := rfl
@[simp] theorem State.setLink_varStaged (s : State) (l : Nat) (x : Link) : (s.setLink l x).varStaged = s.varStaged := rfl
@[simp] theorem State.setLink_probeSeen (s : State) (l : Nat) (x : Link) : (s.setLink l x).probeSeen = s.probeSeen := rfl
@[simp] theorem State.setLink_colls (s : State) (l : Nat) (x : Link) : (s.setLink l x).colls = s.colls := rfl
@[simp] theorem State.setLink_fetches (s : State) (l : Nat) (x : Link) : (s.setLink l x).fetches = s.fetches := rfl
@[simp] theorem State.setLink_keys (s : State) (l : Nat) (x : Link) : (s.setLink l x).keys = s.keys := rfl
@[simp] theorem State.setLink_epochs (s : State) (l : Nat) (x : Link) : (s.setLink l x).epochs = s.epochs := rfl
@[simp] theorem State.setLink_epochGone (s : State) (l : Nat) (x : Link) : (s.setLink l x).epochGone = s.epochGone := rfl
@[simp] theorem State.setLink_prevSince (s : State) (l : Nat) (x : Link) : (s.setLink l x).prevSince = s.prevSince := rfl
@[simp] theorem State.setLink_prevGrace (s : State) (l : Nat) (x : Link) : (s.setLink l x).prevGrace = s.prevGrace := rfl
@[simp] theorem State.setLink_replay (s : State) (l : Nat) (x : Link) : (s.setLink l x).replay = s.replay := rfl
@[simp] theorem State.setLink_ciphers (s : State) (l : Nat) (x : Link) : (s.setLink l x).ciphers = s.ciphers := rfl
@[simp] theorem State.setLink_tx (s : State) (l : Nat) (x : Link) : (s.setLink l x).tx = s.tx := rfl
@[simp] theorem State.setLink_streamNum (s : State) (l : Nat) (x : Link) : (s.setLink l x).streamNum = s.streamNum := rfl
@[simp] theorem State.setLink_partners (s : State) (l : Nat) (x : Link) : (s.setLink l x).partners = s.partners := rfl
@[simp] theorem State.setLink_rx (s : State) (l : Nat) (x : Link) : (s.setLink l x).rx = s.rx := rfl
@[simp] theorem State.setLink_delta (s : State) (l : Nat) (x : Link) : (s.setLink l x).delta = s.delta := rfl
@[simp] theorem State.setLink_sectT (s : State) (l : Nat) (x : Link) : (s.setLink l x).sectT = s.sectT := rfl
@[simp] theorem State.setLink_hold (s : State) (l : Nat) (x : Link) : (s.setLink l x).hold = s.hold := rfl
@[simp] theorem State.setLink_spanDue (s : State) (l : Nat) (x : Link) : (s.setLink l x).spanDue = s.spanDue := rfl
@[simp] theorem State.setLink_snapDue (s : State) (l : Nat) (x : Link) : (s.setLink l x).snapDue = s.snapDue := rfl
@[simp] theorem State.setLink_reports (s : State) (l : Nat) (x : Link) : (s.setLink l x).reports = s.reports := rfl
@[simp] theorem State.setLink_ownAdded (s : State) (l : Nat) (x : Link) : (s.setLink l x).ownAdded = s.ownAdded := rfl
@[simp] theorem State.setLink_covered (s : State) (l : Nat) (x : Link) : (s.setLink l x).covered = s.covered := rfl
@[simp] theorem State.setLink_handoffs (s : State) (l : Nat) (x : Link) : (s.setLink l x).handoffs = s.handoffs := rfl
@[simp] theorem State.setLink_handing (s : State) (l : Nat) (x : Link) : (s.setLink l x).handing = s.handing := rfl
@[simp] theorem State.setLink_serveBufs (s : State) (l : Nat) (x : Link) : (s.setLink l x).serveBufs = s.serveBufs := rfl
@[simp] theorem State.setLink_snapFetch (s : State) (l : Nat) (x : Link) : (s.setLink l x).snapFetch = s.snapFetch := rfl
@[simp] theorem State.setLink_pwr (s : State) (l : Nat) (x : Link) : (s.setLink l x).pwr = s.pwr := rfl
@[simp] theorem State.setLink_clocks (s : State) (l : Nat) (x : Link) : (s.setLink l x).clocks = s.clocks := rfl
@[simp] theorem State.setLink_calTaken (s : State) (l : Nat) (x : Link) : (s.setLink l x).calTaken = s.calTaken := rfl
@[simp] theorem State.setLink_temps (s : State) (l : Nat) (x : Link) : (s.setLink l x).temps = s.temps := rfl
@[simp] theorem State.setLink_fw (s : State) (l : Nat) (x : Link) : (s.setLink l x).fw = s.fw := rfl
@[simp] theorem State.setLink_pads (s : State) (l : Nat) (x : Link) : (s.setLink l x).pads = s.pads := rfl
@[simp] theorem State.setLink_wardDue (s : State) (l : Nat) (x : Link) : (s.setLink l x).wardDue = s.wardDue := rfl
@[simp] theorem State.setLink_warmDue (s : State) (l : Nat) (x : Link) : (s.setLink l x).warmDue = s.warmDue := rfl
@[simp] theorem State.setLink_dump (s : State) (l : Nat) (x : Link) : (s.setLink l x).dump = s.dump := rfl
@[simp] theorem State.setLink_remote (s : State) (l : Nat) (x : Link) : (s.setLink l x).remote = s.remote := rfl
@[simp] theorem State.setLink_fetched (s : State) (l : Nat) (x : Link) : (s.setLink l x).fetched = s.fetched := rfl
@[simp] theorem State.setLink_units (s : State) (l : Nat) (x : Link) : (s.setLink l x).units = s.units := rfl

@[simp] theorem State.setColl_pending (s : State) (e : Nat) (c : CollEntry) : (s.setColl e c).pending = s.pending := rfl
@[simp] theorem State.setColl_now (s : State) (e : Nat) (c : CollEntry) : (s.setColl e c).now = s.now := rfl
@[simp] theorem State.setColl_regs (s : State) (e : Nat) (c : CollEntry) : (s.setColl e c).regs = s.regs := rfl
@[simp] theorem State.setColl_mem (s : State) (e : Nat) (c : CollEntry) : (s.setColl e c).mem = s.mem := rfl
@[simp] theorem State.setColl_memEpoch (s : State) (e : Nat) (c : CollEntry) : (s.setColl e c).memEpoch = s.memEpoch := rfl
@[simp] theorem State.setColl_badBursts (s : State) (e : Nat) (c : CollEntry) : (s.setColl e c).badBursts = s.badBursts := rfl
@[simp] theorem State.setColl_hostMem (s : State) (e : Nat) (c : CollEntry) : (s.setColl e c).hostMem = s.hostMem := rfl
@[simp] theorem State.setColl_freeCount (s : State) (e : Nat) (c : CollEntry) : (s.setColl e c).freeCount = s.freeCount := rfl
@[simp] theorem State.setColl_out (s : State) (e : Nat) (c : CollEntry) : (s.setColl e c).out = s.out := rfl
@[simp] theorem State.setColl_msixMasked (s : State) (e : Nat) (c : CollEntry) : (s.setColl e c).msixMasked = s.msixMasked := rfl
@[simp] theorem State.setColl_msixPending (s : State) (e : Nat) (c : CollEntry) : (s.setColl e c).msixPending = s.msixPending := rfl
@[simp] theorem State.setColl_vfSplit (s : State) (e : Nat) (c : CollEntry) : (s.setColl e c).vfSplit = s.vfSplit := rfl
@[simp] theorem State.setColl_perst (s : State) (e : Nat) (c : CollEntry) : (s.setColl e c).perst = s.perst := rfl
@[simp] theorem State.setColl_wardFence (s : State) (e : Nat) (c : CollEntry) : (s.setColl e c).wardFence = s.wardFence := rfl
@[simp] theorem State.setColl_pldm (s : State) (e : Nat) (c : CollEntry) : (s.setColl e c).pldm = s.pldm := rfl
@[simp] theorem State.setColl_wp (s : State) (e : Nat) (c : CollEntry) : (s.setColl e c).wp = s.wp := rfl
@[simp] theorem State.setColl_chiplets (s : State) (e : Nat) (c : CollEntry) : (s.setColl e c).chiplets = s.chiplets := rfl
@[simp] theorem State.setColl_ranges (s : State) (e : Nat) (c : CollEntry) : (s.setColl e c).ranges = s.ranges := rfl
@[simp] theorem State.setColl_accNet (s : State) (e : Nat) (c : CollEntry) : (s.setColl e c).accNet = s.accNet := rfl
@[simp] theorem State.setColl_accHeld (s : State) (e : Nat) (c : CollEntry) : (s.setColl e c).accHeld = s.accHeld := rfl
@[simp] theorem State.setColl_injects (s : State) (e : Nat) (c : CollEntry) : (s.setColl e c).injects = s.injects := rfl
@[simp] theorem State.setColl_staged (s : State) (e : Nat) (c : CollEntry) : (s.setColl e c).staged = s.staged := rfl
@[simp] theorem State.setColl_lsStaged (s : State) (e : Nat) (c : CollEntry) : (s.setColl e c).lsStaged = s.lsStaged := rfl
@[simp] theorem State.setColl_slotMem (s : State) (e : Nat) (c : CollEntry) : (s.setColl e c).slotMem = s.slotMem := rfl
@[simp] theorem State.setColl_mirror (s : State) (e : Nat) (c : CollEntry) : (s.setColl e c).mirror = s.mirror := rfl
@[simp] theorem State.setColl_mirrorAt (s : State) (e : Nat) (c : CollEntry) : (s.setColl e c).mirrorAt = s.mirrorAt := rfl
@[simp] theorem State.setColl_pins (s : State) (e : Nat) (c : CollEntry) : (s.setColl e c).pins = s.pins := rfl
@[simp] theorem State.setColl_regPort (s : State) (e : Nat) (c : CollEntry) : (s.setColl e c).regPort = s.regPort := rfl
@[simp] theorem State.setColl_census (s : State) (e : Nat) (c : CollEntry) : (s.setColl e c).census = s.census := rfl
@[simp] theorem State.setColl_resighted (s : State) (e : Nat) (c : CollEntry) : (s.setColl e c).resighted = s.resighted := rfl
@[simp] theorem State.setColl_sigs (s : State) (e : Nat) (c : CollEntry) : (s.setColl e c).sigs = s.sigs := rfl
@[simp] theorem State.setColl_sigNet (s : State) (e : Nat) (c : CollEntry) : (s.setColl e c).sigNet = s.sigNet := rfl
@[simp] theorem State.setColl_evts (s : State) (e : Nat) (c : CollEntry) : (s.setColl e c).evts = s.evts := rfl
@[simp] theorem State.setColl_rings (s : State) (e : Nat) (c : CollEntry) : (s.setColl e c).rings = s.rings := rfl
@[simp] theorem State.setColl_ghosts (s : State) (e : Nat) (c : CollEntry) : (s.setColl e c).ghosts = s.ghosts := rfl
@[simp] theorem State.setColl_softRegion (s : State) (e : Nat) (c : CollEntry) : (s.setColl e c).softRegion = s.softRegion := rfl
@[simp] theorem State.setColl_softClear (s : State) (e : Nat) (c : CollEntry) : (s.setColl e c).softClear = s.softClear := rfl
@[simp] theorem State.setColl_repairs (s : State) (e : Nat) (c : CollEntry) : (s.setColl e c).repairs = s.repairs := rfl
@[simp] theorem State.setColl_unrecorded (s : State) (e : Nat) (c : CollEntry) : (s.setColl e c).unrecorded = s.unrecorded := rfl
@[simp] theorem State.setColl_lastFetch (s : State) (e : Nat) (c : CollEntry) : (s.setColl e c).lastFetch = s.lastFetch := rfl
@[simp] theorem State.setColl_arbs (s : State) (e : Nat) (c : CollEntry) : (s.setColl e c).arbs = s.arbs := rfl
@[simp] theorem State.setColl_upds (s : State) (e : Nat) (c : CollEntry) : (s.setColl e c).upds = s.upds := rfl
@[simp] theorem State.setColl_updQueue (s : State) (e : Nat) (c : CollEntry) : (s.setColl e c).updQueue = s.updQueue := rfl
@[simp] theorem State.setColl_updOpen (s : State) (e : Nat) (c : CollEntry) : (s.setColl e c).updOpen = s.updOpen := rfl
@[simp] theorem State.setColl_deltaOpen (s : State) (e : Nat) (c : CollEntry) : (s.setColl e c).deltaOpen = s.deltaOpen := rfl
@[simp] theorem State.setColl_deltaNext (s : State) (e : Nat) (c : CollEntry) : (s.setColl e c).deltaNext = s.deltaNext := rfl
@[simp] theorem State.setColl_variants (s : State) (e : Nat) (c : CollEntry) : (s.setColl e c).variants = s.variants := rfl
@[simp] theorem State.setColl_varStaged (s : State) (e : Nat) (c : CollEntry) : (s.setColl e c).varStaged = s.varStaged := rfl
@[simp] theorem State.setColl_links (s : State) (e : Nat) (c : CollEntry) : (s.setColl e c).links = s.links := rfl
@[simp] theorem State.setColl_probeSeen (s : State) (e : Nat) (c : CollEntry) : (s.setColl e c).probeSeen = s.probeSeen := rfl
@[simp] theorem State.setColl_fetches (s : State) (e : Nat) (c : CollEntry) : (s.setColl e c).fetches = s.fetches := rfl
@[simp] theorem State.setColl_keys (s : State) (e : Nat) (c : CollEntry) : (s.setColl e c).keys = s.keys := rfl
@[simp] theorem State.setColl_epochs (s : State) (e : Nat) (c : CollEntry) : (s.setColl e c).epochs = s.epochs := rfl
@[simp] theorem State.setColl_epochGone (s : State) (e : Nat) (c : CollEntry) : (s.setColl e c).epochGone = s.epochGone := rfl
@[simp] theorem State.setColl_prevSince (s : State) (e : Nat) (c : CollEntry) : (s.setColl e c).prevSince = s.prevSince := rfl
@[simp] theorem State.setColl_prevGrace (s : State) (e : Nat) (c : CollEntry) : (s.setColl e c).prevGrace = s.prevGrace := rfl
@[simp] theorem State.setColl_replay (s : State) (e : Nat) (c : CollEntry) : (s.setColl e c).replay = s.replay := rfl
@[simp] theorem State.setColl_ciphers (s : State) (e : Nat) (c : CollEntry) : (s.setColl e c).ciphers = s.ciphers := rfl
@[simp] theorem State.setColl_tx (s : State) (e : Nat) (c : CollEntry) : (s.setColl e c).tx = s.tx := rfl
@[simp] theorem State.setColl_streamNum (s : State) (e : Nat) (c : CollEntry) : (s.setColl e c).streamNum = s.streamNum := rfl
@[simp] theorem State.setColl_partners (s : State) (e : Nat) (c : CollEntry) : (s.setColl e c).partners = s.partners := rfl
@[simp] theorem State.setColl_rx (s : State) (e : Nat) (c : CollEntry) : (s.setColl e c).rx = s.rx := rfl
@[simp] theorem State.setColl_delta (s : State) (e : Nat) (c : CollEntry) : (s.setColl e c).delta = s.delta := rfl
@[simp] theorem State.setColl_sectT (s : State) (e : Nat) (c : CollEntry) : (s.setColl e c).sectT = s.sectT := rfl
@[simp] theorem State.setColl_hold (s : State) (e : Nat) (c : CollEntry) : (s.setColl e c).hold = s.hold := rfl
@[simp] theorem State.setColl_spanDue (s : State) (e : Nat) (c : CollEntry) : (s.setColl e c).spanDue = s.spanDue := rfl
@[simp] theorem State.setColl_snapDue (s : State) (e : Nat) (c : CollEntry) : (s.setColl e c).snapDue = s.snapDue := rfl
@[simp] theorem State.setColl_reports (s : State) (e : Nat) (c : CollEntry) : (s.setColl e c).reports = s.reports := rfl
@[simp] theorem State.setColl_ownAdded (s : State) (e : Nat) (c : CollEntry) : (s.setColl e c).ownAdded = s.ownAdded := rfl
@[simp] theorem State.setColl_covered (s : State) (e : Nat) (c : CollEntry) : (s.setColl e c).covered = s.covered := rfl
@[simp] theorem State.setColl_handoffs (s : State) (e : Nat) (c : CollEntry) : (s.setColl e c).handoffs = s.handoffs := rfl
@[simp] theorem State.setColl_handing (s : State) (e : Nat) (c : CollEntry) : (s.setColl e c).handing = s.handing := rfl
@[simp] theorem State.setColl_serveBufs (s : State) (e : Nat) (c : CollEntry) : (s.setColl e c).serveBufs = s.serveBufs := rfl
@[simp] theorem State.setColl_snapFetch (s : State) (e : Nat) (c : CollEntry) : (s.setColl e c).snapFetch = s.snapFetch := rfl
@[simp] theorem State.setColl_pwr (s : State) (e : Nat) (c : CollEntry) : (s.setColl e c).pwr = s.pwr := rfl
@[simp] theorem State.setColl_clocks (s : State) (e : Nat) (c : CollEntry) : (s.setColl e c).clocks = s.clocks := rfl
@[simp] theorem State.setColl_calTaken (s : State) (e : Nat) (c : CollEntry) : (s.setColl e c).calTaken = s.calTaken := rfl
@[simp] theorem State.setColl_temps (s : State) (e : Nat) (c : CollEntry) : (s.setColl e c).temps = s.temps := rfl
@[simp] theorem State.setColl_fw (s : State) (e : Nat) (c : CollEntry) : (s.setColl e c).fw = s.fw := rfl
@[simp] theorem State.setColl_pads (s : State) (e : Nat) (c : CollEntry) : (s.setColl e c).pads = s.pads := rfl
@[simp] theorem State.setColl_wardDue (s : State) (e : Nat) (c : CollEntry) : (s.setColl e c).wardDue = s.wardDue := rfl
@[simp] theorem State.setColl_warmDue (s : State) (e : Nat) (c : CollEntry) : (s.setColl e c).warmDue = s.warmDue := rfl
@[simp] theorem State.setColl_dump (s : State) (e : Nat) (c : CollEntry) : (s.setColl e c).dump = s.dump := rfl
@[simp] theorem State.setColl_remote (s : State) (e : Nat) (c : CollEntry) : (s.setColl e c).remote = s.remote := rfl
@[simp] theorem State.setColl_fetched (s : State) (e : Nat) (c : CollEntry) : (s.setColl e c).fetched = s.fetched := rfl
@[simp] theorem State.setColl_units (s : State) (e : Nat) (c : CollEntry) : (s.setColl e c).units = s.units := rfl

@[simp] theorem State.emit_pending (s : State) (o : Output) : (s.emit o).pending = s.pending := rfl
@[simp] theorem State.emit_now (s : State) (o : Output) : (s.emit o).now = s.now := rfl
@[simp] theorem State.emit_regs (s : State) (o : Output) : (s.emit o).regs = s.regs := rfl
@[simp] theorem State.emit_mem (s : State) (o : Output) : (s.emit o).mem = s.mem := rfl
@[simp] theorem State.emit_memEpoch (s : State) (o : Output) : (s.emit o).memEpoch = s.memEpoch := rfl
@[simp] theorem State.emit_badBursts (s : State) (o : Output) : (s.emit o).badBursts = s.badBursts := rfl
@[simp] theorem State.emit_hostMem (s : State) (o : Output) : (s.emit o).hostMem = s.hostMem := rfl
@[simp] theorem State.emit_freeCount (s : State) (o : Output) : (s.emit o).freeCount = s.freeCount := rfl
@[simp] theorem State.emit_msixMasked (s : State) (o : Output) : (s.emit o).msixMasked = s.msixMasked := rfl
@[simp] theorem State.emit_msixPending (s : State) (o : Output) : (s.emit o).msixPending = s.msixPending := rfl
@[simp] theorem State.emit_vfSplit (s : State) (o : Output) : (s.emit o).vfSplit = s.vfSplit := rfl
@[simp] theorem State.emit_perst (s : State) (o : Output) : (s.emit o).perst = s.perst := rfl
@[simp] theorem State.emit_wardFence (s : State) (o : Output) : (s.emit o).wardFence = s.wardFence := rfl
@[simp] theorem State.emit_pldm (s : State) (o : Output) : (s.emit o).pldm = s.pldm := rfl
@[simp] theorem State.emit_wp (s : State) (o : Output) : (s.emit o).wp = s.wp := rfl
@[simp] theorem State.emit_chiplets (s : State) (o : Output) : (s.emit o).chiplets = s.chiplets := rfl
@[simp] theorem State.emit_ranges (s : State) (o : Output) : (s.emit o).ranges = s.ranges := rfl
@[simp] theorem State.emit_accNet (s : State) (o : Output) : (s.emit o).accNet = s.accNet := rfl
@[simp] theorem State.emit_accHeld (s : State) (o : Output) : (s.emit o).accHeld = s.accHeld := rfl
@[simp] theorem State.emit_injects (s : State) (o : Output) : (s.emit o).injects = s.injects := rfl
@[simp] theorem State.emit_staged (s : State) (o : Output) : (s.emit o).staged = s.staged := rfl
@[simp] theorem State.emit_lsStaged (s : State) (o : Output) : (s.emit o).lsStaged = s.lsStaged := rfl
@[simp] theorem State.emit_slotMem (s : State) (o : Output) : (s.emit o).slotMem = s.slotMem := rfl
@[simp] theorem State.emit_mirror (s : State) (o : Output) : (s.emit o).mirror = s.mirror := rfl
@[simp] theorem State.emit_mirrorAt (s : State) (o : Output) : (s.emit o).mirrorAt = s.mirrorAt := rfl
@[simp] theorem State.emit_pins (s : State) (o : Output) : (s.emit o).pins = s.pins := rfl
@[simp] theorem State.emit_regPort (s : State) (o : Output) : (s.emit o).regPort = s.regPort := rfl
@[simp] theorem State.emit_census (s : State) (o : Output) : (s.emit o).census = s.census := rfl
@[simp] theorem State.emit_resighted (s : State) (o : Output) : (s.emit o).resighted = s.resighted := rfl
@[simp] theorem State.emit_sigs (s : State) (o : Output) : (s.emit o).sigs = s.sigs := rfl
@[simp] theorem State.emit_sigNet (s : State) (o : Output) : (s.emit o).sigNet = s.sigNet := rfl
@[simp] theorem State.emit_evts (s : State) (o : Output) : (s.emit o).evts = s.evts := rfl
@[simp] theorem State.emit_rings (s : State) (o : Output) : (s.emit o).rings = s.rings := rfl
@[simp] theorem State.emit_ghosts (s : State) (o : Output) : (s.emit o).ghosts = s.ghosts := rfl
@[simp] theorem State.emit_softRegion (s : State) (o : Output) : (s.emit o).softRegion = s.softRegion := rfl
@[simp] theorem State.emit_softClear (s : State) (o : Output) : (s.emit o).softClear = s.softClear := rfl
@[simp] theorem State.emit_repairs (s : State) (o : Output) : (s.emit o).repairs = s.repairs := rfl
@[simp] theorem State.emit_unrecorded (s : State) (o : Output) : (s.emit o).unrecorded = s.unrecorded := rfl
@[simp] theorem State.emit_lastFetch (s : State) (o : Output) : (s.emit o).lastFetch = s.lastFetch := rfl
@[simp] theorem State.emit_arbs (s : State) (o : Output) : (s.emit o).arbs = s.arbs := rfl
@[simp] theorem State.emit_upds (s : State) (o : Output) : (s.emit o).upds = s.upds := rfl
@[simp] theorem State.emit_updQueue (s : State) (o : Output) : (s.emit o).updQueue = s.updQueue := rfl
@[simp] theorem State.emit_updOpen (s : State) (o : Output) : (s.emit o).updOpen = s.updOpen := rfl
@[simp] theorem State.emit_deltaOpen (s : State) (o : Output) : (s.emit o).deltaOpen = s.deltaOpen := rfl
@[simp] theorem State.emit_deltaNext (s : State) (o : Output) : (s.emit o).deltaNext = s.deltaNext := rfl
@[simp] theorem State.emit_variants (s : State) (o : Output) : (s.emit o).variants = s.variants := rfl
@[simp] theorem State.emit_varStaged (s : State) (o : Output) : (s.emit o).varStaged = s.varStaged := rfl
@[simp] theorem State.emit_links (s : State) (o : Output) : (s.emit o).links = s.links := rfl
@[simp] theorem State.emit_probeSeen (s : State) (o : Output) : (s.emit o).probeSeen = s.probeSeen := rfl
@[simp] theorem State.emit_colls (s : State) (o : Output) : (s.emit o).colls = s.colls := rfl
@[simp] theorem State.emit_fetches (s : State) (o : Output) : (s.emit o).fetches = s.fetches := rfl
@[simp] theorem State.emit_keys (s : State) (o : Output) : (s.emit o).keys = s.keys := rfl
@[simp] theorem State.emit_epochs (s : State) (o : Output) : (s.emit o).epochs = s.epochs := rfl
@[simp] theorem State.emit_epochGone (s : State) (o : Output) : (s.emit o).epochGone = s.epochGone := rfl
@[simp] theorem State.emit_prevSince (s : State) (o : Output) : (s.emit o).prevSince = s.prevSince := rfl
@[simp] theorem State.emit_prevGrace (s : State) (o : Output) : (s.emit o).prevGrace = s.prevGrace := rfl
@[simp] theorem State.emit_replay (s : State) (o : Output) : (s.emit o).replay = s.replay := rfl
@[simp] theorem State.emit_ciphers (s : State) (o : Output) : (s.emit o).ciphers = s.ciphers := rfl
@[simp] theorem State.emit_tx (s : State) (o : Output) : (s.emit o).tx = s.tx := rfl
@[simp] theorem State.emit_streamNum (s : State) (o : Output) : (s.emit o).streamNum = s.streamNum := rfl
@[simp] theorem State.emit_partners (s : State) (o : Output) : (s.emit o).partners = s.partners := rfl
@[simp] theorem State.emit_rx (s : State) (o : Output) : (s.emit o).rx = s.rx := rfl
@[simp] theorem State.emit_delta (s : State) (o : Output) : (s.emit o).delta = s.delta := rfl
@[simp] theorem State.emit_sectT (s : State) (o : Output) : (s.emit o).sectT = s.sectT := rfl
@[simp] theorem State.emit_hold (s : State) (o : Output) : (s.emit o).hold = s.hold := rfl
@[simp] theorem State.emit_spanDue (s : State) (o : Output) : (s.emit o).spanDue = s.spanDue := rfl
@[simp] theorem State.emit_snapDue (s : State) (o : Output) : (s.emit o).snapDue = s.snapDue := rfl
@[simp] theorem State.emit_reports (s : State) (o : Output) : (s.emit o).reports = s.reports := rfl
@[simp] theorem State.emit_ownAdded (s : State) (o : Output) : (s.emit o).ownAdded = s.ownAdded := rfl
@[simp] theorem State.emit_covered (s : State) (o : Output) : (s.emit o).covered = s.covered := rfl
@[simp] theorem State.emit_handoffs (s : State) (o : Output) : (s.emit o).handoffs = s.handoffs := rfl
@[simp] theorem State.emit_handing (s : State) (o : Output) : (s.emit o).handing = s.handing := rfl
@[simp] theorem State.emit_serveBufs (s : State) (o : Output) : (s.emit o).serveBufs = s.serveBufs := rfl
@[simp] theorem State.emit_snapFetch (s : State) (o : Output) : (s.emit o).snapFetch = s.snapFetch := rfl
@[simp] theorem State.emit_pwr (s : State) (o : Output) : (s.emit o).pwr = s.pwr := rfl
@[simp] theorem State.emit_clocks (s : State) (o : Output) : (s.emit o).clocks = s.clocks := rfl
@[simp] theorem State.emit_calTaken (s : State) (o : Output) : (s.emit o).calTaken = s.calTaken := rfl
@[simp] theorem State.emit_temps (s : State) (o : Output) : (s.emit o).temps = s.temps := rfl
@[simp] theorem State.emit_fw (s : State) (o : Output) : (s.emit o).fw = s.fw := rfl
@[simp] theorem State.emit_pads (s : State) (o : Output) : (s.emit o).pads = s.pads := rfl
@[simp] theorem State.emit_wardDue (s : State) (o : Output) : (s.emit o).wardDue = s.wardDue := rfl
@[simp] theorem State.emit_warmDue (s : State) (o : Output) : (s.emit o).warmDue = s.warmDue := rfl
@[simp] theorem State.emit_dump (s : State) (o : Output) : (s.emit o).dump = s.dump := rfl
@[simp] theorem State.emit_remote (s : State) (o : Output) : (s.emit o).remote = s.remote := rfl
@[simp] theorem State.emit_fetched (s : State) (o : Output) : (s.emit o).fetched = s.fetched := rfl
@[simp] theorem State.emit_units (s : State) (o : Output) : (s.emit o).units = s.units := rfl

@[simp] theorem State.nextFree_pending (s : State) : s.nextFree.pending = s.pending := rfl
@[simp] theorem State.nextFree_now (s : State) : s.nextFree.now = s.now := rfl
@[simp] theorem State.nextFree_regs (s : State) : s.nextFree.regs = s.regs := rfl
@[simp] theorem State.nextFree_mem (s : State) : s.nextFree.mem = s.mem := rfl
@[simp] theorem State.nextFree_memEpoch (s : State) : s.nextFree.memEpoch = s.memEpoch := rfl
@[simp] theorem State.nextFree_badBursts (s : State) : s.nextFree.badBursts = s.badBursts := rfl
@[simp] theorem State.nextFree_hostMem (s : State) : s.nextFree.hostMem = s.hostMem := rfl
@[simp] theorem State.nextFree_out (s : State) : s.nextFree.out = s.out := rfl
@[simp] theorem State.nextFree_msixMasked (s : State) : s.nextFree.msixMasked = s.msixMasked := rfl
@[simp] theorem State.nextFree_msixPending (s : State) : s.nextFree.msixPending = s.msixPending := rfl
@[simp] theorem State.nextFree_vfSplit (s : State) : s.nextFree.vfSplit = s.vfSplit := rfl
@[simp] theorem State.nextFree_perst (s : State) : s.nextFree.perst = s.perst := rfl
@[simp] theorem State.nextFree_wardFence (s : State) : s.nextFree.wardFence = s.wardFence := rfl
@[simp] theorem State.nextFree_pldm (s : State) : s.nextFree.pldm = s.pldm := rfl
@[simp] theorem State.nextFree_wp (s : State) : s.nextFree.wp = s.wp := rfl
@[simp] theorem State.nextFree_chiplets (s : State) : s.nextFree.chiplets = s.chiplets := rfl
@[simp] theorem State.nextFree_ranges (s : State) : s.nextFree.ranges = s.ranges := rfl
@[simp] theorem State.nextFree_accNet (s : State) : s.nextFree.accNet = s.accNet := rfl
@[simp] theorem State.nextFree_accHeld (s : State) : s.nextFree.accHeld = s.accHeld := rfl
@[simp] theorem State.nextFree_injects (s : State) : s.nextFree.injects = s.injects := rfl
@[simp] theorem State.nextFree_staged (s : State) : s.nextFree.staged = s.staged := rfl
@[simp] theorem State.nextFree_lsStaged (s : State) : s.nextFree.lsStaged = s.lsStaged := rfl
@[simp] theorem State.nextFree_slotMem (s : State) : s.nextFree.slotMem = s.slotMem := rfl
@[simp] theorem State.nextFree_mirror (s : State) : s.nextFree.mirror = s.mirror := rfl
@[simp] theorem State.nextFree_mirrorAt (s : State) : s.nextFree.mirrorAt = s.mirrorAt := rfl
@[simp] theorem State.nextFree_pins (s : State) : s.nextFree.pins = s.pins := rfl
@[simp] theorem State.nextFree_regPort (s : State) : s.nextFree.regPort = s.regPort := rfl
@[simp] theorem State.nextFree_census (s : State) : s.nextFree.census = s.census := rfl
@[simp] theorem State.nextFree_resighted (s : State) : s.nextFree.resighted = s.resighted := rfl
@[simp] theorem State.nextFree_sigs (s : State) : s.nextFree.sigs = s.sigs := rfl
@[simp] theorem State.nextFree_sigNet (s : State) : s.nextFree.sigNet = s.sigNet := rfl
@[simp] theorem State.nextFree_evts (s : State) : s.nextFree.evts = s.evts := rfl
@[simp] theorem State.nextFree_rings (s : State) : s.nextFree.rings = s.rings := rfl
@[simp] theorem State.nextFree_ghosts (s : State) : s.nextFree.ghosts = s.ghosts := rfl
@[simp] theorem State.nextFree_softRegion (s : State) : s.nextFree.softRegion = s.softRegion := rfl
@[simp] theorem State.nextFree_softClear (s : State) : s.nextFree.softClear = s.softClear := rfl
@[simp] theorem State.nextFree_repairs (s : State) : s.nextFree.repairs = s.repairs := rfl
@[simp] theorem State.nextFree_unrecorded (s : State) : s.nextFree.unrecorded = s.unrecorded := rfl
@[simp] theorem State.nextFree_lastFetch (s : State) : s.nextFree.lastFetch = s.lastFetch := rfl
@[simp] theorem State.nextFree_arbs (s : State) : s.nextFree.arbs = s.arbs := rfl
@[simp] theorem State.nextFree_upds (s : State) : s.nextFree.upds = s.upds := rfl
@[simp] theorem State.nextFree_updQueue (s : State) : s.nextFree.updQueue = s.updQueue := rfl
@[simp] theorem State.nextFree_updOpen (s : State) : s.nextFree.updOpen = s.updOpen := rfl
@[simp] theorem State.nextFree_deltaOpen (s : State) : s.nextFree.deltaOpen = s.deltaOpen := rfl
@[simp] theorem State.nextFree_deltaNext (s : State) : s.nextFree.deltaNext = s.deltaNext := rfl
@[simp] theorem State.nextFree_variants (s : State) : s.nextFree.variants = s.variants := rfl
@[simp] theorem State.nextFree_varStaged (s : State) : s.nextFree.varStaged = s.varStaged := rfl
@[simp] theorem State.nextFree_links (s : State) : s.nextFree.links = s.links := rfl
@[simp] theorem State.nextFree_probeSeen (s : State) : s.nextFree.probeSeen = s.probeSeen := rfl
@[simp] theorem State.nextFree_colls (s : State) : s.nextFree.colls = s.colls := rfl
@[simp] theorem State.nextFree_fetches (s : State) : s.nextFree.fetches = s.fetches := rfl
@[simp] theorem State.nextFree_keys (s : State) : s.nextFree.keys = s.keys := rfl
@[simp] theorem State.nextFree_epochs (s : State) : s.nextFree.epochs = s.epochs := rfl
@[simp] theorem State.nextFree_epochGone (s : State) : s.nextFree.epochGone = s.epochGone := rfl
@[simp] theorem State.nextFree_prevSince (s : State) : s.nextFree.prevSince = s.prevSince := rfl
@[simp] theorem State.nextFree_prevGrace (s : State) : s.nextFree.prevGrace = s.prevGrace := rfl
@[simp] theorem State.nextFree_replay (s : State) : s.nextFree.replay = s.replay := rfl
@[simp] theorem State.nextFree_ciphers (s : State) : s.nextFree.ciphers = s.ciphers := rfl
@[simp] theorem State.nextFree_tx (s : State) : s.nextFree.tx = s.tx := rfl
@[simp] theorem State.nextFree_streamNum (s : State) : s.nextFree.streamNum = s.streamNum := rfl
@[simp] theorem State.nextFree_partners (s : State) : s.nextFree.partners = s.partners := rfl
@[simp] theorem State.nextFree_rx (s : State) : s.nextFree.rx = s.rx := rfl
@[simp] theorem State.nextFree_delta (s : State) : s.nextFree.delta = s.delta := rfl
@[simp] theorem State.nextFree_sectT (s : State) : s.nextFree.sectT = s.sectT := rfl
@[simp] theorem State.nextFree_hold (s : State) : s.nextFree.hold = s.hold := rfl
@[simp] theorem State.nextFree_spanDue (s : State) : s.nextFree.spanDue = s.spanDue := rfl
@[simp] theorem State.nextFree_snapDue (s : State) : s.nextFree.snapDue = s.snapDue := rfl
@[simp] theorem State.nextFree_reports (s : State) : s.nextFree.reports = s.reports := rfl
@[simp] theorem State.nextFree_ownAdded (s : State) : s.nextFree.ownAdded = s.ownAdded := rfl
@[simp] theorem State.nextFree_covered (s : State) : s.nextFree.covered = s.covered := rfl
@[simp] theorem State.nextFree_handoffs (s : State) : s.nextFree.handoffs = s.handoffs := rfl
@[simp] theorem State.nextFree_handing (s : State) : s.nextFree.handing = s.handing := rfl
@[simp] theorem State.nextFree_serveBufs (s : State) : s.nextFree.serveBufs = s.serveBufs := rfl
@[simp] theorem State.nextFree_snapFetch (s : State) : s.nextFree.snapFetch = s.snapFetch := rfl
@[simp] theorem State.nextFree_pwr (s : State) : s.nextFree.pwr = s.pwr := rfl
@[simp] theorem State.nextFree_clocks (s : State) : s.nextFree.clocks = s.clocks := rfl
@[simp] theorem State.nextFree_calTaken (s : State) : s.nextFree.calTaken = s.calTaken := rfl
@[simp] theorem State.nextFree_temps (s : State) : s.nextFree.temps = s.temps := rfl
@[simp] theorem State.nextFree_fw (s : State) : s.nextFree.fw = s.fw := rfl
@[simp] theorem State.nextFree_pads (s : State) : s.nextFree.pads = s.pads := rfl
@[simp] theorem State.nextFree_wardDue (s : State) : s.nextFree.wardDue = s.wardDue := rfl
@[simp] theorem State.nextFree_warmDue (s : State) : s.nextFree.warmDue = s.warmDue := rfl
@[simp] theorem State.nextFree_dump (s : State) : s.nextFree.dump = s.dump := rfl
@[simp] theorem State.nextFree_remote (s : State) : s.nextFree.remote = s.remote := rfl
@[simp] theorem State.nextFree_fetched (s : State) : s.nextFree.fetched = s.fetched := rfl
@[simp] theorem State.nextFree_units (s : State) : s.nextFree.units = s.units := rfl

end Sys2Proof.Machine
end

