-- ==== Sys2Proof/Laws/Update.lean ====
section
/-! SUPPORT. The lengths of what the update engines read, encode and write: a block's masters, codes, scales and journal entry
have the sizes of R215 to R217 and R231 whatever their values. -/

namespace Sys2Proof.Machine
open Sys2Proof

theorem length_leBytes (n x : Nat) : (leBytes n x).length = n := by
  induction n generalizing x with
  | zero => rfl
  | succ n ih => simp [leBytes, ih]

theorem length_fillBytes (d : Nat → Byte) (a n : Nat) (l : List Host.Cell) : (fillBytes d a n l).length = n := by
  induction n generalizing a l with
  | zero => rfl
  | succ n ih =>
    cases l with
    | nil => simp [fillBytes, ih]
    | cons e r => simp only [fillBytes]; split <;> simp [ih]

@[simp] theorem State.length_load (s : State) (a n : Nat) : (s.load a n).length = n := by
  simp [State.load, Mem.read, length_fillBytes]

theorem length_halves (n : Nat) (l : List Byte) (h : l.length = 2 * n) : (halves l).length = n := by
  induction n generalizing l with
  | zero => simp_all [halves]
  | succ n ih =>
    match l, h with
    | [_], h => simp at h; omega
    | a :: b :: r, h => simp [halves, ih r (by simp at h; omega)]

theorem length_quantise (lim rnd : Nat) (xs : List (Word × Nat)) : (quantise lim rnd xs).2.1.length = xs.length := by
  unfold quantise
  simp only []
  split
  · simp
  · split <;> simp

theorem length_flatMap_const {α β : Type} (f : α → List β) (n : Nat) (l : List α) (h : ∀ x ∈ l, (f x).length = n) :
    (l.flatMap f).length = l.length * n := by
  induction l with
  | nil => simp
  | cons a l ih =>
    simp only [List.flatMap_cons, List.length_append, List.length_cons]
    rw [h a (by simp), ih fun x hx => h x (by simp [hx])]
    rw [Nat.succ_mul, Nat.add_comm]

theorem groupsOf_halves {α : Type} (l : List α) (h : l.length = 256) : groupsOf 128 2 l = [l.take 128, l.drop 128] := by
  have h1 : l.isEmpty = false := by cases l <;> simp_all
  have h2 : (l.drop 128).isEmpty = false := by
    cases hd : l.drop 128 with
    | nil => have := congrArg List.length hd; simp [h] at this
    | cons => rfl
  have h3 : (l.drop 128).take 128 = l.drop 128 := List.take_of_length_le (by simp [h])
  simp [groupsOf, h1, h2, h3]

/-- A moment of a block is 256 codes and two FP16 scales. -/
theorem length_encodeHalves (lim rnd : Nat) (xs : List Word) (us : List Nat) (hx : xs.length = 256) (hu : us.length = 256) :
    (encodeHalves lim rnd xs us).1.length = 256 ∧ (encodeHalves lim rnd xs us).2.1.length = 4 := by
  have h : (xs.zip us).length = 256 := by simp [hx, hu]
  unfold encodeHalves
  rw [groupsOf_halves _ h]
  simp [length_quantise, hx, hu, length_leBytes]

/-- The masters of a block in the native form take 768 bytes. -/
theorem length_encodeMasters (old : List Byte) (xs : List Word) (kept : List Bool) (ho : old.length = 768)
    (hx : xs.length = 256) (hk : kept.length = 256) : (encodeMasters false old xs kept).1.length = 768 := by
  have h : (halves (old.take 512)).length = 256 := length_halves 256 _ (by simp [ho])
  simp only [encodeMasters, Bool.false_eq_true, if_false, List.length_append]
  rw [length_flatMap_const _ 2 _ fun x _ => length_leBytes 2 _]
  simp [hx, hk, h, ho]

theorem length_decodeMasters (d : List Byte) (h : d.length = 768) : (decodeMasters false d).length = 256 := by
  have h : (halves (d.take 512)).length = 256 := length_halves 256 _ (by simp [h])
  simp_all [decodeMasters]

theorem length_places (e : TensorEntry) (b : Nat) : (e.places b).length = 256 := by simp [TensorEntry.places]

theorem length_journalBytes (step kind entry block scale lr : Nat) (p : List Byte) (h : p.length ≤ 256) :
    (journalBytes step kind entry block scale lr false p).length = 288 := by
  simp [journalBytes, length_leBytes, journalSize]; omega

/-- The values and the moments of a step, one for each of the 256 parameters. -/
theorem State.length_directions (s : State) (k : Nat) (e : TensorEntry) (v : Variant) (b : Nat) (gs xs : List Word)
    (old : Moments) (mask : List Bool) (hg : gs.length = 256) (hx : xs.length = 256) (hm : old.m.length = 256)
    (hv : old.v.length = 256) (hk : mask.length = 256) :
    (s.directions k e v b gs xs old mask).1.length = 256 ∧ (s.directions k e v b gs xs old mask).2.m.length = 256
      ∧ (s.directions k e v b gs xs old mask).2.v.length = 256 := by
  simp [State.directions, length_places, hg, hx, hm, hv, hk]

/-- The sizes of what a step makes of a block in the native form. -/
theorem State.length_stepBlock (s : State) (k : Nat) (e : TensorEntry) (j : Nat) (gs : List Word) (hc : s.compat = false)
    (hg : gs.length = 256) :
    (s.stepBlock k e j gs).master.length = 768 ∧ (s.stepBlock k e j gs).codes.length = 512
      ∧ (s.stepBlock k e j gs).scales.length = 8 ∧ (s.stepBlock k e j gs).payload.length = 256 := by
  have hx := length_decodeMasters (s.load (e.masterOf false j) (masterSize false)) (by simp [masterSize])
  have hk : (s.paramMask e j).length = 256 := by simp [State.paramMask]
  have hd (off : Nat) : (s.updDraws k (s.upd k).wpn ((s.upd k).pos + j) off).length = 256 := by simp [State.updDraws]
  have hm : (decodeMoments false (s.load (e.momentOf false j) (momentSize false)) (s.load (e.mscaleOf j) 8)).m.length = 256 := by
    simp [decodeMoments, momentSize]
  have hv : (decodeMoments false (s.load (e.momentOf false j) (momentSize false)) (s.load (e.mscaleOf j) 8)).v.length = 256 := by
    simp [decodeMoments, momentSize]
  obtain ⟨h1, h2, h3⟩ := s.length_directions k e (s.variant e.variant) (e.first + j) gs _ _ _ hg hx hm hv hk
  simp only [State.stepBlock, hc, Bool.false_eq_true, if_false]
  generalize s.directions k e _ _ gs _ _ _ = d at h1 h2 h3 ⊢
  have h4 : (d.2.v.map fsqrt).length = 256 := by simp [h3]
  refine ⟨?_, ?_, ?_, ?_⟩
  · apply length_encodeMasters _ _ _ (by simp [masterSize]) _ hk
    simp [length_quantise, hx, h1, hd]
  · simp only [encodeMoments, Bool.false_eq_true, if_false, List.length_append]
    split <;> split <;>
      simp [length_encodeHalves _ _ _ _ h2 (hd 16), length_encodeHalves _ _ _ _ h4 (hd 32), momentSize]
  · simp only [encodeMoments, Bool.false_eq_true, if_false, List.length_append]
    split <;> split <;>
      simp [length_encodeHalves _ _ _ _ h2 (hd 16), length_encodeHalves _ _ _ _ h4 (hd 32)]
  · simp [length_quantise, h1, hd]

/-- The places and sizes of a step's writes in the native form. -/
theorem State.sizes_stepWrites (s : State) (k : Nat) (e : TensorEntry) (j : Nat) (n : BlockStep) (cs : List (Nat × List Byte))
    (hc : s.compat = false) (h1 : n.master.length = 768) (h2 : n.codes.length = 512) (h3 : n.scales.length = 8)
    (h4 : n.payload.length = 256) :
    (s.stepWrites k e j n cs).map (fun w => (w.1, w.2.length)) =
      [(s.journalNext k, 288), (e.momentOf false j, 512), (e.mscaleOf j, 8), (s.journalNext k + 5, 1), (e.masterOf false j, 768),
        (s.journalNext k + 5, 1)] ++ cs.map (fun w => (w.1, w.2.length)) ++ [(e.tagOf j, 4), (s.journalNext k + 5, 1)] := by
  simp [State.stepWrites, hc, phaseWrite, length_journalBytes, length_leBytes, h1, h2, h3, h4]

/-- An outer application makes masters of 768 and anchors of 512 bytes. -/
theorem State.length_outerBlock (s : State) (e : TensorEntry) (j r : Nat) (o : Option OuterSrc) (hc : s.compat = false) :
    (s.outerBlock e j r o).1.length = 768 ∧ (s.outerBlock e j r o).2.1.length = 512 := by
  have hx := length_decodeMasters (s.load (e.masterOf false j) (masterSize false)) (by simp [masterSize])
  have ha : (halves (s.load (e.anchorOf j) 512)).length = 256 := length_halves 256 _ (by simp)
  have hk : (s.paramMask e j).length = 256 := by simp [State.paramMask]
  simp only [State.outerBlock, hc]
  refine ⟨length_encodeMasters _ _ _ (by simp [masterSize]) ?_ hk, ?_⟩
  · simp [hx, ha, hk]
  · rw [length_flatMap_const _ 2 _ fun x _ => length_leBytes 2 _]
    simp [hx, ha, hk]

theorem length_unscale (exp : Int) (gs : List Word) : (unscale exp gs).1.length = gs.length := by simp [unscale]

theorem State.length_blockGrads (s : State) (e : TensorEntry) (j w : Nat) : (s.blockGrads e j w).length = 256 := by
  simp [State.blockGrads, length_places]

/-- An entry whose variant is not FACTORED needs no setting up. -/
theorem State.entryBegin_plain (s : State) (k : Nat) (e : TensorEntry) (h : (s.variant e.variant).rule ≠ 3) : s.entryBegin k e = s :=
  if_pos (.inl h)

/-- An engine whose entry names no register space works in memory alone. -/
theorem State.throughRegs_nil (s : State) (k : Fin 48) (f : State → State) : s.throughRegs k [] f = f s := rfl

end Sys2Proof.Machine
end

