-- ==== Sys2Proof/Tests/Slice0.lean ====
section
/-! SUPPORT. Tests: for each clause of the statements a small state and operands that meet its hypotheses together, with
what the command does there; and an ill-formed term for each check of WellFormed. -/

namespace Sys2Proof.Tests
open Sys2Proof Sys2Proof.Machine

set_option Elab.async false

/-- The command is answered with a next state of which P holds. -/
def answers (c : Instr) (s : State) (P : State → Bool) : Bool :=
  match exec c s with
  | .next t => P t
  | _ => false

/-- A step answers with a state. -/
def stepsTo (s t : State) : Bool :=
  match step s with
  | .next u => decide (u = t)
  | _ => false

/-- The module in ACTIVE, all its fast clocks running. -/
def ready : State :=
  { ([1, 2, 3, 4, 5, 6, 7, 8].foldl (fun (t : State) w => t.setFld (Reg.CLK_WARD_CTRL w) 29 29 1)
      (State.reset.setFld Reg.PWR_STATE 1 0 3)) with now := 1000000000 }

/-- The module in READY, its fast clocks stopped. -/
def readyIdle : State := { State.reset.setFld Reg.PWR_STATE 1 0 2 with now := 1000000000 }

/-- PF0 of host die 0. -/
def pf0 : Requester := .func ⟨0, 0⟩

/-! ### Steps, time, reset and the waypoint -/

theorem test_step_front : ({ ready with pending := [.wakeInLow] } : State).pending = .wakeInLow :: []
    ∧ stepsTo { ready with pending := [.wakeInLow] } ready = true ∧ answers .wakeInLow ready (fun t => decide (t = ready)) = true := by
  decide +kernel

theorem test_idle_ready : ready.pending = [] ∧ 2 ≤ ready.power := by decide +kernel

theorem test_idle_watch : State.reset.pending = [] ∧ State.reset.power = 1 ∧ State.reset.now = 0 * 1000000000 / 32768 := by decide +kernel

theorem test_idle_dormant : (State.reset.setFld Reg.PWR_STATE 1 0 0).power = 0
    ∧ stepsTo (State.reset.setFld Reg.PWR_STATE 1 0 0) (State.reset.setFld Reg.PWR_STATE 1 0 0) = true := by decide +kernel

theorem test_memory_form : Memory.wf [(5, 1), (9, 0)] ∧ ¬ Memory.wf [(9, 0), (5, 1)] := by decide +kernel

theorem test_queue : answers .wakeInLow { ready with pending := [.tapReset] }
    (fun t => decide (t.pending = [.tapReset])) = true := by decide +kernel

theorem test_wf_answers : (Instr.nop 0).wellFormed = true ∧ answers (.nop 0) ready (fun _ => true) = true := by decide +kernel

theorem test_coord : 15 < 16 ∧ 7 < 8 ∧ 3 < 8 ∧ coordOf (3 * 128 + 7 * 16 + 15) 1 = 7 := by decide +kernel

/-- A job in its first step. -/
def jobState : State := { ready with wp := { job := true } }

/-- Everyone has arrived. -/
def arrivedState : State :=
  { jobState with wp := { job := true, firstArrival := some 5, arrived := allParticipants.map fun p => ⟨p, false, false, []⟩ } }

theorem test_arrive : jobState.hasArrived (.codec 31) = false ∧ jobState.present (.codec 31) = true
    ∧ jobState.canArrive (.codec 31) = true
    ∧ answers (.participantArrive (.codec 31)) jobState (fun t => t.hasArrived (.codec 31)
        && decide (t = { jobState with wp := t.wp }) && decide (t.wp.firstArrival = some 1000000000)) = true := by decide +kernel

/-- A waypoint in progress. -/
def inWaypoint (acks : List Participant) : State :=
  { jobState with wp := { job := true, gather := some ⟨0, false, false, false, acks, false, [], []⟩ } }

theorem test_acknowledge : (inWaypoint []).present (.upd 47) = true
    ∧ answers (.participantAcknowledge (.upd 47)) (inWaypoint []) (fun t => decide (t = inWaypoint [.upd 47])) = true := by
  decide +kernel

theorem test_waypoint_done : ∀ p ∈ allParticipants, p ∈ allParticipants ∨ (inWaypoint allParticipants).present p = false :=
  fun _ h => .inl h

theorem arrivedState_all (p : Participant) (h : p ∈ allParticipants) :
    arrivedState.hasArrived p = true ∨ arrivedState.present p = false :=
  .inl (List.any_eq_true.mpr ⟨_, List.mem_map_of_mem (f := fun q => (⟨q, false, false, []⟩ : Arrival)) h, beq_self_eq_true p⟩)

theorem test_gather : arrivedState.wp.job = true ∧ arrivedState.wp.stopping = false ∧ arrivedState.wp.gather = none
    ∧ ∀ p ∈ allParticipants, arrivedState.hasArrived p = true ∨ arrivedState.present p = false :=
  ⟨rfl, rfl, rfl, arrivedState_all⟩

theorem test_gather_both : ((jobState.setFld Reg.SC_STEP_NF 0 0 1).setFld Reg.RT_STEP_TAINT 0 0 1).verdict = ⟨true, true⟩ := by
  decide +kernel

theorem test_arrival_timeout : (∃ p ∈ allParticipants, jobState.present p = true ∧ jobState.hasArrived p = false)
    ∧ 5 + max 1000 (min 60000000 (jobState.reg Reg.WPC_ARRIVE_TIMEOUT)) * 1000 ≤ 1000000005
    ∧ answers .arrivalTimeout { jobState with now := 1000000005, wp := { job := true, firstArrival := some 5 } } (fun t =>
        t.flag (pgWPC + Hdr.EVT_STATUS) 9 && t.wp.timeoutRaised && t.wp.late.contains (.upd 3)) = true := by decide +kernel

theorem test_serve_refresh : (∀ k < 48, ready.updIdle k = true)
    ∧ answers .serveRefreshCopy { ready with wp := { refreshDue := true } } (fun t => t.wp.flipPending && !t.wp.refreshDue) = true := by
  decide +kernel

/-- Chiplet 63 serves and has latched a change set. -/
def servingState : State :=
  (ready.setFld Reg.WPC_SERVE_MASK_LIVE 63 63 1).setChip 63 { latched := [⟨3, true, [], true, [(5, 36)], none⟩], standins := [(5, 36)] }

theorem test_serving_latch : servingState.isServing 63 = true ∧ (servingState.chip 63).serve = none
    ∧ servingState.unfenced (.chiplet 63) = true ∧ (servingState.chip 63).latched ≠ []
    ∧ answers (.servingChangeApply 63) servingState (fun t => (t.chip 63).latched.isEmpty && (t.chip 63).bank && (t.chip 63).standins.isEmpty) = true := by decide +kernel

/-- Ring 0 of PF0 in a class, in a state, with the given flights. -/
def ringIs (cls : Nat) (r : Ring) : State :=
  { (ready.setReg (Reg.RING_CFG 0) (cls * 2 ^ 29 + 4 * 2 ^ 24)).setReg (Reg.RG_ASSIGN 0) (2 ^ 31) with rings := [(0, r)] }

/-- A descriptor of 64 bytes from its first ones. -/
def desc (bytes : List Byte) : List Byte := bytes ++ List.replicate (64 - bytes.length) 0

/-- Ring 0 ACTIVE with one descriptor in flight. -/
def ringWith (cls : Nat) (bytes : List Byte) : State :=
  ringIs cls { st := .active, flights := [{ idx := 0, bytes := desc bytes }] }

theorem test_start : (ringWith 0 [1]).flightOf 0 0 0 1 = some { idx := 0, bytes := desc [1] }
    ∧ (ringWith 0 [1]).controllerFenced = false ∧ (ringWith 0 [1]).wp.job = false := by decide +kernel

theorem test_stop : let s := { ringWith 0 [2] with wp := { job := true } }
    s.flightOf 0 0 0 2 = some { idx := 0, bytes := desc [2] } ∧ s.controllerFenced = false
      ∧ answers (.computeStop 0 0) s (fun t => t.wp.stopBy.contains (0, 0) && t.wp.job) = true := by decide +kernel

/-! ### What a gather takes and DONE leaves -/

/-- The step's taint makes the run that RT_TAINT.LIMIT ends, or does not. -/
theorem test_gather_taint : TaintEndsJob ((arrivedState.setFld Reg.RT_STEP_TAINT 0 0 1).setFld Reg.RT_TAINT 7 0 1)
    ∧ ¬ TaintEndsJob (arrivedState.setFld Reg.RT_STEP_TAINT 0 0 1) ∧ ¬ TaintEndsJob arrivedState := by decide +kernel

/-- The slot table at the start of bank SRAM 0; slots 1 and 16383 have records. -/
def slotState : State :=
  { arrivedState.setReg Reg.SC_TABLE_BASE (bankAt 0 0) with
    mem := Mem.write (Mem.write [] (bankAt 0 128) [1, 0, 1]) (bankAt 0 (16383 * 128)) [1, 0, 1] }

theorem test_gather_slots : slotState.slotBase = some (bankAt 0 0) ∧ Memory.wf slotState.mem ∧ slotState.badBursts = []
    ∧ 1 ∈ slotState.liveSlots ∧ 16383 ∈ slotState.liveSlots ∧ ¬ TaintEndsJob slotState := by decide +kernel

/-- A waypoint whose acknowledgements are in, of COMPUTE START or of a step. -/
def ackedState (start : Bool) (since : Nat) : State :=
  { ringWith 0 [1] with wp := { job := true, startBy := if start then some (0, 0) else none
                                gather := some ⟨since, false, true, start, allParticipants, false, [], []⟩ } }

theorem test_done_start : (ackedState true 0).wp.startBy = some (0, 0)
    ∧ ((ackedState true 0).ring 0).flights.map (fun f => (f.idx, f.status)) = [(0, none)]
    ∧ (ackedState true 0).wp.gather.map (fun g => g.start) = some true := by decide +kernel

theorem test_done_duration : 6000 < (ackedState false 0).now - 0 ∧ (ackedState false 999994000).now - 999994000 ≤ 6000
    ∧ (ackedState false 0).wp.stopBy = [] ∧ (ackedState false 0).isServing 0 = false
    ∧ (ackedState false 0).unfenced (.chiplet 0) = true := by decide +kernel

theorem test_done_stop : ({ ackedState false 0 with wp := { (ackedState false 0).wp with stopBy := [(0, 0)] } } : State).wp.stopBy ≠ [] := by
  decide +kernel

/-- Chiplet 63 arrives with the ready bit of its bank swap. -/
theorem test_arrive_swap : let s := (jobState.setFld Reg.RT_SWAP_REQ 63 63 1).setChip 63 { run := .ended }
    s.flag Reg.RT_SWAP_REQ 63 = true ∧ s.swapReady 63 = true ∧ s.canArrive (.chiplet 63) = true := by decide +kernel

/-! ### Rings -/

theorem test_ring_create : let s := ringIs 3 { st := .off }
    MayRing s pf0 0 false ∧ (s.ring 0).st = .off
      ∧ answers (.ringCreate pf0 0) s (fun t => (t.ring 0).st == .ready && decide (t.ringTail 0 = s.ringHead 0)) = true := by decide +kernel

theorem test_ring_destroy : let s := ringIs 3 { st := .ready }
    MayRing s pf0 0 false ∧ (s.ring 0).flights = []
      ∧ answers (.ringDestroy pf0 0) s (fun t => (t.ring 0).st == .off && decide (t.reg (Reg.RING_PTR 0) = 0)) = true := by decide +kernel

theorem test_ring_destroy_later : let s := ringWith 3 [1]
    answers (.ringDestroy pf0 0) s (fun t => decide ((t.ring 0).leaving = some .off)) = true := by decide +kernel

theorem test_ring_enable : let s := ringIs 3 { st := .ready }
    MayRing s pf0 0 true ∧ answers (.ringEnable pf0 0) s (fun t => (t.ring 0).st == .active && t.flag (Reg.RING_CTRL 0) 29) = true := by
  decide +kernel

theorem test_ring_disable : let s := ringIs 3 { st := .active }
    MayRing s pf0 0 true ∧ (s.ring 0).leaving = none
      ∧ answers (.ringDisable pf0 0) s (fun t => (t.ring 0).st == .ready && !t.flag (Reg.RING_CTRL 0) 29) = true := by decide +kernel

theorem test_ring_unfreeze : let s := ringIs 3 { st := .frozen }
    MayRing s pf0 0 true ∧ answers (.ringUnfreeze pf0 0) s (fun t => (t.ring 0).st == .active
      && decide (t = { s with rings := t.rings })) = true := by decide +kernel

theorem test_doorbell : let s := ringIs 3 { st := .active }
    s.hostRuns = true ∧ s.hostInReset 0 = false ∧ s.doorbellRing ⟨0, 0⟩ 0 = some 0 ∧ s.ownsRing ⟨0, 0⟩ 0 = true
      ∧ leNat [15, 0, 7, 0] % 0x10000 < s.ringSize 0
      ∧ answers (.doorbell ⟨0, 0⟩ 0 [15, 0, 7, 0]) s (fun t => decide (t.ringTail 0 = 15 ∧ t.ringHead 0 = 0)
          && decide (t = { s with regs := t.regs })) = true
      ∧ s.ringSize 0 ≤ leNat [16, 0, 0, 0, 0, 0, 0, 0] % 0x10000
      ∧ answers (.doorbell ⟨0, 0⟩ 0 [16, 0, 0, 0, 0, 0, 0, 0]) s (fun t => (t.ring 0).st == .frozen) = true := by decide +kernel

theorem test_doorbell_other : let s := ringIs 3 { st := .active }
    s.doorbellRing ⟨1, 0⟩ 0 = some 0 ∧ s.ownsRing ⟨1, 0⟩ 0 = false
      ∧ answers (.doorbell ⟨1, 0⟩ 0 [3, 0, 0, 0]) s (fun t => decide (t.rings = s.rings) && decide (t.reg Reg.RC_DB_DROPPED = 1)) = true := by
  decide +kernel

/-- Ring group 2 in slot 1 of VF 0 of host die 0. -/
def vfRing : State := ready.setReg (Reg.RG_ASSIGN 2) (2 ^ 31 + 1 * 2 ^ 10 + 1 * 2 ^ 4 + 1)

theorem test_doorbell_vf : 3 ≤ (⟨0, 3⟩ : Func).idx.val ∧ vfRing.slotGroup ⟨0, 3⟩ 1 = some (130 / 64)
    ∧ 30000 < 32768 ∧ vfRing.doorbellRing ⟨0, 2⟩ (64 * 30000) = some 30000 := by decide +kernel

theorem test_fetch : let s := { (ringIs 3 { st := .active }).setReg (Reg.RING_PTR 0) (1 * 2 ^ 16) with mem := Mem.write [] 0 (desc [1]) }
    s.nextFetch (s.ringDie 0) = some (0 : Fin 32768).val
      ∧ answers (.descriptorFetch 0) s (fun t => decide ((t.ring 0).next = 1 ∧ (t.ring 0).flights.length = 1)) = true := by decide +kernel

theorem test_complete : let s := ringIs 3 { st := .active, flights := [{ idx := 0, bytes := desc [1], status := some (0, 7) }] }
    s.hostRuns = true ∧ flagOf (desc [1]) 0 = false ∧ flagOf (desc [1]) 1 = false ∧ flagOf (desc [1]) 3 = false
      ∧ answers (.descriptorComplete 0) s (fun t => (t.ring 0).flights.isEmpty && decide (t.ringHead 0 = 1)
          && decide (t = { s with regs := t.regs, rings := t.rings })) = true := by decide +kernel

/-- A descriptor that backs off. -/
def backsOff : State :=
  ringIs 3 { st := .active, flights := [{ idx := 0, bytes := desc [1], refused := some 999999000, retryAt := some 999999000 }] }

theorem test_refused_retry : backsOff.now ≤ 999999000 + backsOff.retryTime
    ∧ answers (.refusedRetry 0 0) backsOff (fun t => decide ((t.ring 0).flights.map (fun f => (f.retryAt, f.refusals)) = [(none, 1)])) = true := by
  decide +kernel

theorem test_retry_expiry : let s := ringIs 3 { st := .active, flights := [{ idx := 0, bytes := desc [1], refused := some 0, retryAt := some 0 }] }
    0 + s.retryTime ≤ s.now ∧ answers (.rcRetryExpiry 0 0) s (fun t =>
      decide ((t.ring 0).flights.map (fun f => f.status) = [some (1, 0)])) = true := by decide +kernel

theorem test_descriptor_nop : let s := ringWith 3 [0]
    s.flight 0 0 = some { idx := 0, bytes := desc [0] } ∧ opOf (desc [0]) = 0
      ∧ answers (.descriptorNop 0 0) s (fun t => decide ((t.ring 0).flights.map (fun f => f.status) = [some (0, 0)])) = true := by decide +kernel

theorem test_function_unfreeze : let s := ready.setFld (frozenReg 1) 60 60 1
    MayCommand s pf0 pgRC ∧ answers (.functionUnfreeze pf0 1 0x1000000000000000) s (fun t => !t.flag (frozenReg 1) 60) = true := by
  decide +kernel

/-! ### Rings of a fenced die; record, signal and interrupt of a completion -/

theorem test_ring_enable_refused : let s := (ringIs 3 { st := .ready }).setUnit (.hostDie 0) { phase := .quarantined }
    s.ringServed 0 = false ∧ MayRing s (.func ⟨1, 0⟩) 0 true
      ∧ answers (.ringEnable (.func ⟨1, 0⟩) 0) s (fun t => (t.ring 0).st == .ready && decide (t.reg Reg.FLT_REFUSED = 1)) = true := by decide +kernel

/-- A fetched NOP whose SIG_COUNTER 5 is the ring's to use, or not. -/
theorem test_fetch_signal : let s := fun w => { ((ringIs 3 { st := .active }).setReg (Reg.RING_PTR 0) (1 * 2 ^ 16)).setReg (Reg.RING_AUX 0) w with
      mem := Mem.write [] 0 (desc [0]) }
    (s 0).sigAllowed 0 (ctrOf (desc [0])) = true ∧ (s 1).sigAllowed 0 (ctrOf (desc [0])) = false
      ∧ (s 0).descriptor 0 0 = some (desc [0]) ∧ (s 0).descriptorBad 0 0 = false
      ∧ answers (.descriptorFetch 0) (s 0) (fun t => decide ((t.ring 0).flights.map (fun g => g.status) = [none])) = true
      ∧ answers (.descriptorFetch 0) (s 1) (fun t => (t.ring 0).st == .frozen) = true := by decide +kernel

/-- Ring 0 of class 1, its oldest descriptor done with 7 bytes moved and these FLAGS; vector 5. -/
def doneRing (flags : Byte) (comp : Nat) (r : Ring) : State :=
  { ((ringIs 1 { st := .active }).setReg (Reg.RING_COMP 0) comp).setFld (Reg.RING_AUX 0) 26 16 5 with
    rings := [(0, { r with flights := { idx := 0, bytes := desc [1, flags], status := some (0, 7) } :: r.flights })] }

theorem test_complete_record : let s := doneRing 1 (bankAt 0 0) { st := .active }
    flagOf (desc [1, 1]) 0 = true ∧ bitOf (s.reg (Reg.RING_COMP 0)) 0 = false ∧ PlainAt s (bankAt 0 0) 16
      ∧ detailStated (s.ringClass 0) (opOf (desc [1, 1])) 0 = true
      ∧ answers (.descriptorComplete 0) s (fun t => decide (t.load (bankAt 0 0) 16
          = recordBytes { idx := 0, bytes := desc [1, 1], status := some (0, 7) } 0 7 (s.ring 0).phase s.now)) = true
      ∧ bitOf ((doneRing 1 0x1001 { st := .active }).reg (Reg.RING_COMP 0)) 0 = true := by decide +kernel

theorem test_complete_signal : let s := doneRing 8 0 { st := .active }
    flagOf (desc [1, 8]) 3 = true ∧ s.sigAllowed 0 (ctrOf (desc [1, 8])) = true ∧ s.sigDead (ctrOf (desc [1, 8]) / 4096) = false := by decide +kernel

theorem test_complete_irq : let s := doneRing 2 0 { st := .active }
    flagOf (desc [1, 2]) 1 = true ∧ s.ringOwner 0 = some (0, 0) ∧ s.hostDieDown 0 = false
      ∧ answers (.descriptorComplete 0) s (fun t => decide (t.out.getLast? = some (.msix 0 0 5))) = true
      ∧ answers (.descriptorComplete 0) { s with msixMasked := [funcKey 0 0 * 4096 + 5] } (fun t =>
          t.out.isEmpty && t.msixPending.contains (funcKey 0 0 * 4096 + 5)) = true
      ∧ (s.setUnit (.hostDie 0) { phase := .reset }).hostDieDown 0 = true
      ∧ answers (.descriptorComplete 0) (s.setUnit (.hostDie 0) { phase := .reset }) (fun t => decide (t.reg Reg.RC_IRQ_DROPPED = 1)) = true := by
  decide +kernel

theorem test_complete_leaving : let s := doneRing 0 0 { st := .active, leaving := some .off }
    (s.ring 0).leaving = some .off
      ∧ answers (.descriptorComplete 0) s (fun t => (t.ring 0).st == .off && decide ((t.ring 0).leaving = none)) = true
      ∧ answers (.descriptorComplete 0) (doneRing 0 0 { st := .active, leaving := some .ready, stale := 1, flights := [{ idx := 1, bytes := desc [1] }] })
          (fun t => (t.ring 0).st == .active && decide ((t.ring 0).leaving = some .ready ∧ (t.ring 0).stale = 0 ∧ t.ringHead 0 = 0)) = true := by
  decide +kernel

/-! ### Slots, each alone in its bundle -/

/-- A job's chiplet 63, whose main stream issues; S1 holds 5, scratch bytes 0 to 7 hold 1 to 8. -/
def quiet : State :=
  { jobState with chiplets := [(63, { run := .running, s := [(1, 5)] })], mem := Mem.write [] (scratchAt 63 0) [1, 2, 3, 4, 5, 6, 7, 8] }

theorem quiet_issues : Quiet quiet 63 := by decide +kernel

theorem test_nop : answers (.nop 63) quiet (fun t => decide ((t.chip 63).pc = 1 ∧ (t.chip 63).main.clock = 1)) = true := by decide +kernel

theorem test_idle : answers (.idle 63 false 0x3FFFFF) quiet (fun t => decide ((t.chip 63).main.clock = 0x3FFFFF)) = true := by decide +kernel

theorem test_mark : answers (.mark 63 false 2) quiet (fun t => decide ((t.chip 63).main.marker = 2)) = true := by decide +kernel

theorem test_jmp : answers (.jmp 63 false 0 8191) quiet (fun t => decide ((t.chip 63).pc = 8191)) = true := by decide +kernel

theorem test_loop : answers (.loop 63 false 1 7) quiet (fun t => decide ((t.chip 63).pc = 7 ∧ (t.chip 63).sreg 1 = 4)) = true
    ∧ answers (.loop 63 false 0 7) quiet (fun t => decide ((t.chip 63).pc = 1 ∧ (t.chip 63).sreg 0 = 0)) = true := by decide +kernel

theorem test_defer : (quiet.chip 63).dwq.length < 64
    ∧ answers (.defer 63 false 100 3) quiet (fun t => decide ((t.chip 63).dwq = [(100, 3)])) = true := by decide +kernel

theorem test_end : (quiet.chip 63).dwq = [] ∧ (quiet.chip 63).serve = none
    ∧ answers (.seqEnd 63 false) quiet (fun t => decide ((t.chip 63).run = .ended)) = true := by decide +kernel

theorem test_alu : (1 : BitVec 4).toNat ≤ 10 ∧ scalarOk (1 : BitVec 7).toNat = true
    ∧ answers (.alu 63 false 1 31 1 true 0x3FF) quiet (fun t => decide ((t.chip 63).sreg 31 = 6 ∧ (t.chip 63).sreg 1 = 5)) = true := by
  decide +kernel

theorem test_ldi : answers (.ldi 63 false 31 0x200000) quiet (fun t => decide ((t.chip 63).sreg 31 = 0xFFFFFFFFFFE00000)) = true := by
  decide +kernel

theorem test_setq : (7 : BitVec 3) ≠ 0 ∧ (0 : BitVec 3).toNat ≤ 5
    ∧ answers (.setq 63 false 7 0 1 true 5) quiet (fun t => decide ((t.chip 63).qreg 1 7 = BitVec.allOnes 512)) = true := by decide +kernel

/-- Engine 1, all lanes, V63 from V1 and S1. -/
def lanes : VecFields := { eng := 2, qp := 0, vd := 63, va := 1, vb := 1, sb := true }

/-- Chiplet 63 with 1.0 in every lane of V1 of engine 1 and 2.0 in S1. -/
def vecState : State :=
  { jobState with chiplets := [(63, { run := .running, s := [(1, 0x40000000)], v := [(65, List.replicate 512 0x3F800000)] })] }

theorem test_lane_hypotheses : Quiet vecState 63 ∧ lanes.eng ≠ 0 ∧ badSb lanes = false ∧ lanes.slot = 0
    ∧ (vecState.chip 63).vreg 1 1 = List.replicate 512 0x3F800000 := by decide +kernel

theorem test_vec_add : answers (.vecAdd 63 false lanes) vecState
    (fun t => decide (((t.chip 63).vreg 1 63)[511]? = some 0x40400000)) = true := by decide +kernel

theorem test_cmp : badSb { lanes with vd := 7, vc := 1 } = false
    ∧ answers (.cmp 63 false { lanes with vd := 7, vc := 1 }) vecState (fun t => ((t.chip 63).qreg 1 7).getLsbD 511) =
      laneCc 1 0x3F800000 0x40000000 := by decide +kernel

theorem test_rsum : answers (.rsum 63 false lanes) vecState (fun t => decide (((t.chip 63).vreg 1 63)[0]? = some 0x44000000)) = true := by
  decide +kernel

theorem test_vtos : answers (.vtos 63 false ⟨2, 0, 31, 1, 511⟩) vecState (fun t => decide ((t.chip 63).sreg 31 = 0x3F800000)) = true := by
  decide +kernel

/-- V63 of engine 1 from array 35's tile 7. -/
def tileRead : AccrdFields := ⟨2, 0, 63, 35, 7, true⟩

theorem test_accrd : tileRead.eng ≠ 0 ∧ tileRead.array.toNat ≤ 35
    ∧ answers (.accrd 63 false tileRead) vecState (fun t => decide (((t.chip 63).vreg 1 63).length = 512)) = true := by decide +kernel

/-- FP32 to FP16 without scales. -/
def toHalf : CvtFields := ⟨2, 0, 63, 1, 0, 0, 1, 0, 0, false, 0, 0⟩

theorem test_cvt : toHalf.eng ≠ 0 ∧ toHalf.rnd ≠ 3 ∧ legalPair toHalf.srcFmt.toNat 0 = true ∧ legalPair toHalf.dstFmt.toNat 0 = true
    ∧ toHalf.dstFmt.toNat < 8 := by decide +kernel

/-- S1 at scratch offset 8. -/
def eight : MovFields := ⟨1, 0, 0, 1, 1, 0, false⟩

theorem test_sld : let f := { eight with base := 0, offset := 0 }
    movIllegal f false = false ∧ f.readErr = false ∧ f.reg.toNat < 32 ∧ (quiet.chip 63).movAddr f 8 % 8 = 0
    ∧ movPlace 63 f.space.toNat ((quiet.chip 63).movAddr f 8) 8 = some (scratchAt 63 0)
    ∧ (quiet.serveView 63).uncorrectable (scratchAt 63 0) 8 = false ∧ (quiet.serveView 63).argShut 63 (scratchAt 63 0) 8 = none
    ∧ answers (.sld 63 false { eight with base := 0, offset := 0 }) quiet
        (fun t => decide ((t.chip 63).sreg 1 = 0x0807060504030201)) = true := by decide +kernel

theorem test_sst : movIllegal eight false = false ∧ (quiet.chip 63).movAddr eight 8 % 8 = 0
    ∧ movPlace 63 eight.space.toNat ((quiet.chip 63).movAddr eight 8) 8 = some (scratchAt 63 8) ∧ PlainAt quiet (scratchAt 63 8) 8
    ∧ answers (.sst 63 false eight) quiet (fun t => decide (t.load (scratchAt 63 8) 8 = [5, 0, 0, 0, 0, 0, 0, 0])
        && decide (t.load (scratchAt 63 0) 8 = [1, 2, 3, 4, 5, 6, 7, 8])) = true := by decide +kernel

/-- V1 of engine 1 at scratch offset 64. -/
def rowMove : MovFields := ⟨1, 0, 0, 1, 2, 0, false⟩

theorem test_vst : movIllegal rowMove false = false ∧ (vecState.chip 63).movAddr rowMove 64 % 64 = 0
    ∧ movPlace 63 rowMove.space.toNat ((vecState.chip 63).movAddr rowMove 64) 2048 = some (scratchAt 63 64)
    ∧ PlainAt vecState (scratchAt 63 64) 2048 ∧ ((vecState.chip 63).vreg 1 1).length = 512
    ∧ answers (.vst 63 false rowMove) vecState (fun t => decide (t.load (scratchAt 63 ((vecState.chip 63).movAddr rowMove 64)) 4
        = [0, 0, 0x80, 0x3F])) = true := by decide +kernel

theorem test_vld : rowMove.eng ≠ 0 ∧ rowMove.readErr = false
    ∧ (vecState.serveView 63).uncorrectable (scratchAt 63 64) 2048 = false
    ∧ (vecState.serveView 63).argShut 63 (scratchAt 63 64) 2048 = none
    ∧ answers (.vld 63 false rowMove) vecState (fun t => decide ((t.chip 63).pc = 1)) = true := by decide +kernel

theorem test_vsta : (2 : BitVec 6).toNat % 2 = 0 ∧ (vecState.chip 63).movAddr { rowMove with reg := 2, offset := 0, space := 1 } 64 % 4096 = 0
    ∧ answers (.vsta 63 false { rowMove with reg := 2, offset := 0, space := 1 }) vecState (fun t => decide (t.accNet.length = 1)) = true := by
  decide +kernel

/-! ### Bundles: words written out from the slot tables -/

/-- A bundle of five slots. -/
def bundleOf (ctrl mat vec mov sig : Nat) : List Byte :=
  leBytes 4 ctrl ++ leBytes 8 mat ++ leBytes 8 vec ++ leBytes 8 mov ++ leBytes 4 sig

/-- JMP (0x02, QP 5, TARGET 8191), MMA (0x1, A0 35, ROWS-1 2, COLS-1 5, TILE 7, ACCUM, Pd 63, OFFSET 0xFFFF), FMA (0x04, ENG 2, QP 1, VD 63,
VA 1, VB 2, VC 3, SB, RM, SLOT 16383), VST (0x02, REG 63, BASE P0, SPACE 1, OFFSET 7, ENG 1) and ARRIVE (4, counter 0x3FFF, VALUE 8191). -/
def allSlots : List Byte :=
  bundleOf (2 * 2 ^ 27 + 5 * 2 ^ 24 + 8191)
    (1 * 2 ^ 60 + 35 * 2 ^ 54 + 2 * 2 ^ 51 + 5 * 2 ^ 48 + 7 * 2 ^ 45 + 1 * 2 ^ 44 + 63 * 2 ^ 38 + 0xFFFF * 2 ^ 22)
    (4 * 2 ^ 56 + 2 * 2 ^ 54 + 1 * 2 ^ 51 + 63 * 2 ^ 45 + 1 * 2 ^ 39 + 2 * 2 ^ 33 + 3 * 2 ^ 27 + 1 * 2 ^ 26 + 1 * 2 ^ 25 + 16383 * 2 ^ 5)
    (2 * 2 ^ 58 + 63 * 2 ^ 52 + 64 * 2 ^ 45 + 1 * 2 ^ 43 + 7 * 2 ^ 16 + 1 * 2 ^ 14)
    (4 * 2 ^ 28 + 0x3FFF * 2 ^ 14 + 8191)

theorem test_bundle_slots : decodeBundle 63 allSlots =
    [.command (.jmp 63 true 5 8191), .command (.mma 63 true ⟨35, 2, 5, 7, true, 63, 0xFFFF, false⟩),
     .command (.fma 63 true ⟨2, 1, 63, 1, 2, 3, true, true, 16383⟩), .command (.vst 63 true ⟨63, 64, 1, 7, 1, 0, false⟩),
     .command (.arrive 63 false ⟨0x3FFF, false, 8191⟩)] := by decide +kernel

/-- ALU (0x06, FN 3, Sd 31, A P0, IMM, B 0x3FF) alone; TSTORE (0x2, A 35, TILE 7, Pd 63, OFFSET 5) and CVT (0x20, ENG 1, QP 2, VD 3, VA 4,
formats 5 under scale 1 to 6 under 2, RND 1, OVF, SSREG 7, DSLOT 8). -/
theorem test_bundle_alu : decodeBundle 0 (bundleOf (6 * 2 ^ 27 + 3 * 2 ^ 23 + 31 * 2 ^ 18 + 64 * 2 ^ 11 + 1 * 2 ^ 10 + 0x3FF) 0 0 0 0) =
    [.command (.alu 0 false 3 31 64 true 0x3FF), .nop, .nop, .nop, .nop] := by decide +kernel

theorem test_bundle_cvt : decodeBundle 0 (bundleOf 0 (2 * 2 ^ 60 + 35 * 2 ^ 54 + 7 * 2 ^ 45 + 63 * 2 ^ 38 + 5 * 2 ^ 14)
      (0x20 * 2 ^ 56 + 1 * 2 ^ 54 + 2 * 2 ^ 51 + 3 * 2 ^ 45 + 4 * 2 ^ 39 + 5 * 2 ^ 35 + 1 * 2 ^ 33 + 6 * 2 ^ 29 + 2 * 2 ^ 27 + 1 * 2 ^ 25 + 1 * 2 ^ 24
        + 7 * 2 ^ 19 + 8 * 2 ^ 5) 0 0) =
    [.nop, .command (.tstore 0 true ⟨35, 7, 63, 5⟩), .command (.cvt 0 false ⟨1, 2, 3, 4, 5, 1, 6, 2, 1, true, 7, 8⟩), .nop, .nop] := by decide +kernel

/-- The opcodes CTRL 0x0A, MAT 3, VEC 0x09, MOV 0x06 and SIG 7 are not defined. -/
theorem test_bundle_undefined : undefinedSlots (bundleOf (0x0A * 2 ^ 27) (3 * 2 ^ 60) (9 * 2 ^ 56) (6 * 2 ^ 58) (7 * 2 ^ 28)) = [0, 1, 2, 3, 4]
    ∧ undefinedSlots (bundleOf 0 0 0 0 0) = [] ∧ undefinedSlots allSlots = [] := by decide +kernel

/-! ### Matrix slots, tiles, chains, signals, copies and serving -/

/-- An MMA of one array on a descriptor of one row and one column of one element of format 1, at scratch offset 0. -/
def oneProduct : MmaFields := ⟨35, 0, 0, 7, false, 0, 0, false⟩

/-- Chiplet 63 with that descriptor; row and column lie at scratch offsets 64 and 128 and hold 2.0 each. -/
def mmaState : State :=
  { jobState with
    chiplets := [(63, { run := .running })]
    mem := Mem.write (Mem.write (Mem.write [] (scratchAt 63 0) (leBytes 8 (scratchAt 63 64) ++ leBytes 8 (scratchAt 63 128)
      ++ leBytes 16 0 ++ [1, 0, 0, 0, 1, 1, 0, 0, 0, 0, 1, 1] ++ List.replicate 20 0)) (scratchAt 63 64) [0, 0x40]) (scratchAt 63 128) [0, 0x40] }

theorem test_mma : Quiet mmaState 63 ∧ (mmaState.mmaBytes (mmaState.chip 63) 63 oneProduct).isSome = true
    ∧ oneProduct.readErr = false := by decide +kernel

theorem test_mma_allowed : MmaAllowed (mmaState.serveView 63) 63 oneProduct
    (mmaDesc (((mmaState.serveView 63).mmaBytes (mmaState.chip 63) 63 oneProduct).getD [])) := by
  refine ⟨?_, ?_, ?_, ?_, ?_, ?_, ?_, ?_, ?_, ?_, ?_, ?_, ?_, ?_, ?_, ?_, ?_, ?_⟩
  all_goals
    decide +kernel

theorem test_mma_value : ((mmaState.fxMma (mmaState.chip 63) 63 oneProduct).map fun x =>
    x.accums.map fun r => (r.array, r.tile, r.value.headD 0)) = some [(35, 7, 0x40800000)] := by decide +kernel

/-- Tile 7 of array 35 at scratch offset 0x40. -/
def tileOut : TstoreFields := ⟨35, 7, 0, 1⟩

/-- Chiplet 63 with that tile full of 1.0. -/
def tileState : State :=
  { jobState with chiplets := [(63, { run := .running, acc := [(287, List.replicate 1024 0x3F800000)] })] }

theorem test_tstore : Quiet tileState 63 ∧ tileOut.array.toNat < 36 ∧ PlainAt tileState (scratchAt 63 64) 4096
    ∧ ((tileState.chip 63).accTile 35 7).length = 1024 := by decide +kernel

/-- An accumulation of array 35 into tile 7 that has its value 6.0. -/
def inFlight (p : AccPhase) : Accum :=
  { array := 35, tile := 7, a := ⟨scratchAt 63 64, 0, 1, 0, 0, false, 0⟩, b := ⟨scratchAt 63 128, 0, 1, 0, 0, false, 0⟩, k := 1
    accum := false, start := [], value := 0x40C00000 :: List.replicate 1023 0, passA := false, passB := false, chain := [], pos := 0
    phase := p }

/-- Chiplet 63 with that accumulation in flight. -/
def accState (p : AccPhase) : State :=
  { mmaState with chiplets := [(63, { run := .running, accums := [inFlight p] })] }

theorem test_accept : (accState .running).chipServes 63 = true ∧ (inFlight .running).slots = []
    ∧ answers (.accumulationComplete 63 ⟨true, 9⟩) (accState .running) (fun t =>
        decide (((t.chip 63).accTile 35 7).headD 0 = 0x40C00000) && (t.chip 63).accums.isEmpty
          && decide (t.reg (Reg.ENG_HOLD_CYCLES 63) = 9)) = true := by decide +kernel

/-- The tile's operand passed its threshold; the budget allows one re-sight or none. -/
def sightState (budget : Nat) : State :=
  { (accState .running).setReg Reg.SC_RS_BUDGET_LIVE budget with
    chiplets := [(63, { run := .running, accums := [{ inFlight .running with passA := true }] })] }

theorem test_sight : (sightState 1).chipServes 63 = true ∧ (sightState 1).isServing 63 = false
    ∧ answers (.accumulationComplete 63 ⟨true, 0⟩) (sightState 1) (fun t =>
        decide ((t.chip 63).accums.map (fun r => r.phase) = [.resight])) = true
    ∧ answers (.accumulationComplete 63 ⟨true, 0⟩) (sightState 0) (fun t =>
        (t.chip 63).accums.isEmpty && decide (t.reg Reg.SC_RS_OVERRUN = 1)) = true := by decide +kernel

/-- The residues differ where a stand-in runs already. -/
theorem test_not_accepted : let s := { accState .standin with
      chiplets := [(63, { run := .running, accums := [inFlight .standin], standins := [(35, 36)] })] }
    (∃ e ∈ (s.chip 63).standins, e.1 = 35) ∧ s.isServing 63 = false
      ∧ answers (.standinComplete 63 ⟨false, 0⟩) s (fun t => t.flag Reg.FLT_JOB 31 && (t.chip 63).accums.isEmpty) = true := by decide +kernel

theorem test_resight : (accState .resight).chipServes 63 = true ∧ (accState .resight).rerunBad 63 (inFlight .resight) = false
    ∧ answers (.resightComplete 63 ⟨true, 3⟩) (accState .resight) (fun t => (t.chip 63).accums.isEmpty) = true := by decide +kernel

theorem test_standin : (inFlight .standin).slots = [] ∧ (accState .standin).rerunBad 63 (inFlight .standin) = false
    ∧ answers (.standinComplete 63 ⟨true, 3⟩) (accState .standin) (fun t => (t.chip 63).accums.isEmpty) = true := by decide +kernel

/-- An operand row of a tile to be run again lies in a burst that has gone bad; the chiplet trains, or serves. -/
def badRun (serves : Bool) (p : AccPhase) : State :=
  { (accState p).setFld Reg.WPC_SERVE_MASK_LIVE 63 63 (boolNat serves) with badBursts := [scratchAt 63 64] }

theorem test_rerun_bad : (badRun false .resight).rerunBad 63 (inFlight .resight) = true ∧ (badRun false .resight).isServing 63 = false
    ∧ answers (.resightComplete 63 ⟨true, 0⟩) (badRun false .resight) (fun t => (t.chip 63).accums.isEmpty && t.flag Reg.FLT_JOB 31) = true
    ∧ (badRun true .standin).isServing 63 = true
    ∧ answers (.standinComplete 63 ⟨true, 0⟩) (badRun true .standin) (fun t => (t.chip 63).uncorr && (t.chip 63).accums.isEmpty) = true := by
  decide +kernel

/-- RESIGHTED and OVERRUN of the slot of the operand. -/
theorem test_sights : let r := { inFlight .running with a := ⟨scratchAt 63 64, 0, 1, 0, 0, false, 5⟩, passA := true }
    let s := fun n => { (accState .running).setReg Reg.SC_RS_BUDGET_LIVE n with chiplets := [(63, { run := .running, accums := [r] })] }
    answers (.accumulationComplete 63 ⟨true, 0⟩) (s 1) (fun t => decide (t.slotSights 5 = (1, 0) ∧ t.slotSights 6 = (0, 0))) = true
    ∧ answers (.accumulationComplete 63 ⟨true, 0⟩) (s 0) (fun t => decide (t.slotSights 5 = (0, 1))) = true := by decide +kernel

theorem test_residue_fault : (accState .running).freeSpare 63 = some 36 ∧ ((accState .running).chip 63).standins = []
    ∧ answers (.accumulationComplete 63 ⟨false, 0⟩) (accState .running) (fun t => decide ((t.chip 63).standins = [(35, 36)])
        && decide (t.reg (Reg.ENG_RESIDUE_FAULTS 63) = 1)) = true := by decide +kernel

/-- A chain of chiplets 63 and 0. -/
def chainState : State :=
  { jobState with chiplets := [(63, { run := .running, chainOwn := [⟨[2, 0, 0, 0, 0, 0, 0, 0, 0, 0, 0, 0, 0, 0, 0, 0, 63, 0, 0, 0, 0, 1, 2, 0], 0, some [1]⟩] })] }

theorem test_chain : ((chainState.chip 63).chainOwn[0]?).map (fun o => (o.pos, o.value, chainMembers o.desc, (chainMember o.desc 1).1)) =
      some (0, some [1], 2, 0)
    ∧ chainState.chipServes 63 = true ∧ chainState.chipServes 0 = true ∧ (chainState.chip 0).chainIn.length < 8
    ∧ chainState.meshServes (dieOf 63) (dieOf 0) = true
    ∧ answers (.chainForward 63 0) chainState (fun t => decide ((t.chip 0).chainIn.length = 1) && (t.chip 63).chainOwn.isEmpty) = true := by
  decide +kernel

/-- Region 31 of base die 3: one block at the start of its bank SRAM, its state word in use by step 9 with 65,535 next. -/
def regionState (m : Nat) : State :=
  { (jobState.setReg (banked (Reg.ACC_BASE 3) 31) (bankAt 3 0)).setReg (banked (Reg.ACC_SIZE 3) 31) 1 with
    mem := Mem.write [] (bankAt 3 4096) [9, 0, 0, 0, 0, 0, 0xFF, 0xFF]
    accNet := [⟨3, 31, 0, if m = 0 then 8 else 9, m, some (List.replicate 1024 0x3F800000), .chiplet 63, 0, 0⟩] }

/-- A chain whose last member, chiplet 0, has its sum to come; it ends in scratch. -/
def chainLast : State :=
  { jobState with chiplets := [(0, {
      run := .running
      chainIn := [⟨[2, 0, 0, 0, 0, 0, 0, 0, 0, 0, 0, 0, 0, 0, 0, 0, 63, 0, 0, 0, 0, 1, 2, 0], 0, some (List.replicate 1024 0x3F800000)⟩]
      chainOwn := [⟨[2, 0, 0, 0, 0, 0, 0, 0, 0, 0, 0, 0, 0, 0, 0, 0, 63, 0, 0, 0, 0, 1, 2, 0], 1, some (List.replicate 1024 0x40000000)⟩] })] }

theorem test_chain_end : chainLast.chipServes 0 = true
    ∧ ((chainLast.chip 0).chainOwn[0]?).map (fun o => (o.pos + 1, chainKind o.desc, chainAddr o.desc, chainMembers o.desc)) = some (2, 0, 0, 2)
    ∧ PlainAt chainLast (scratchAt 0 0) 4096
    ∧ answers (.chainForward 0 0) chainLast (fun t => decide (t.load (scratchAt 0 4092) 4 = [0, 0, 0x40, 0x40])) = true := by decide +kernel

/-- A chain whose members 0 and 1 of three are chiplet 63 both: member 1 adds with all nine places taken. -/
def chainSelf : State :=
  let d : List Byte := [3, 0, 0, 0, 0, 0, 0, 0, 0, 0, 0, 0, 0, 0, 0, 0, 63, 0, 0, 0, 63, 1, 0, 0, 63, 2, 0, 0]
  { jobState with chiplets := [(63, { run := .running, chainOwn := [⟨d, 1, some [0x3F800000]⟩]
                                      chainIn := ⟨d, 0, some [0x40000000]⟩ :: List.replicate 7 ⟨[1], 0, none⟩ })] }

theorem test_chain_self : ((chainSelf.chip 63).chainOwn[0]?).map (fun o => (o.pos, chainMembers o.desc, (chainMember o.desc 2).1)) = some (1, 3, 63)
    ∧ (chainSelf.chip 63).chainIn.length < 9
    ∧ (chainSelf.chip 63).chainIn.findIdx? (fun r => r.desc == ((chainSelf.chip 63).chainOwn.headD ⟨[], 0, none⟩).desc && r.pos + 1 == 1) = some 0
    ∧ answers (.chainForward 63 0) chainSelf (fun t => decide ((t.chip 63).chainIn.length = 8)
        && decide (((t.chip 63).chainIn.getLast?).map RunSum.value = some (some [0x40400000]))) = true := by decide +kernel

/-- The last sum of a chain may go to bank SRAM of base die 3. -/
theorem test_chain_bank : chainLast.meshServes (dieOf 0) 3 = true ∧ PlainAt chainLast (bankAt 3 0) 4096
    ∧ (chainLast.wardServes 2 && !({ chainLast with wardFence := [2] } : State).wardServes 2) = true := by decide +kernel

theorem test_region_first : (regionState 0).dieServes (.chiplet 63) 3 = true ∧ 0 < (regionState 0).regionBlocks 3 31
    ∧ (regionState 0).regionPlaced 3 31 = true ∧ ((regionState 0).accNet.map (regionState 0).accVerdict) = [.first] := by decide +kernel

theorem test_region_way : (regionState 0).writeBehind 0 ⟨3, 31, 0, 8, 0, some (List.replicate 1024 0x3F800000), .chiplet 63, 0, 0⟩ = false
    ∧ PlainAt (regionState 0) ((regionState 0).blockAt 3 31 0) 4096 ∧ PlainAt (regionState 0) ((regionState 0).stateAt 3 31 0) 8 := by
  decide +kernel

theorem test_region_hold : let s := { regionState 0 with accNet := [⟨3, 31, 0, 8, 5, none, .chiplet 63, 0, 0⟩] }
    s.accNet.map s.accVerdict = [.hold] ∧ answers (.accumulationWrite 3 0) s (fun t => decide (t.accHeld.length = 1)
        && decide (t.reg (Reg.ACC_HELD_WRITES 3) = 1)) = true := by decide +kernel

theorem test_region_add : ((regionState 65535).accNet.map (regionState 65535).accVerdict) = [.add]
    ∧ (regionState 65535).badBursts = [] ∧ (regionState 65535).accHeld = [] := by decide +kernel

theorem test_invalidate : MayCommand jobState pf0 (pgACC 3)
    ∧ answers (.accInvalidate pf0 3) (jobState.setFld (Reg.ACC_SEL 3) 4 0 31) (fun t => decide (t.ranges = [(3 * 32 + 31, 1)])) = true := by
  decide +kernel

theorem test_invalidate_done : let s := { regionState 0 with ranges := [(127, 1)] }
    s.regionPlaced 3 31 = true ∧ PlainAt s (s.stateAt 3 31 0) (8 * s.regionBlocks 3 31)
    ∧ answers (.accInvalidateDone 3 31) s (fun t => t.ranges.isEmpty
      && decide (t.load (bankAt 3 4096) 8 = List.replicate 8 0)) = true := by decide +kernel

/-- Counter 4095 of base die 3 against 8,191. -/
def sigTop : SigFields := ⟨0x3FFF, false, 8191⟩

theorem test_sig_wait : answers (.sigWait 63 false sigTop) quiet (fun t => decide ((t.chip 63).run = .waiting 0x3FFF 8191)) = true
    ∧ answers (.sigWait 63 false sigTop) { quiet with sigs := [(0x3FFF, 8191)] } (fun t => decide ((t.chip 63).run = .running)) = true := by
  decide +kernel

theorem test_sig_send : answers (.arrive 63 false sigTop) quiet (fun t => decide (t.sigNet = [⟨0x3FFF, .add 1, some 63, []⟩])) = true
    ∧ answers (.sigAdd 63 false sigTop) quiet (fun t => decide (t.sigNet = [⟨0x3FFF, .add 8191, some 63, []⟩])) = true
    ∧ answers (.sigSet 63 false sigTop) quiet (fun t => decide (t.sigNet = [⟨0x3FFF, .set 8191, some 63, []⟩])) = true := by decide +kernel

/-- A SIG ADD leaves behind the accumulation write its chiplet has sent. -/
theorem test_sig_behind : let s := { quiet with accNet := [⟨3, 31, 0, 8, 0, none, .chiplet 63, 0, 0⟩] }
    answers (.sigAdd 63 false sigTop) s (fun t => decide (t.sigNet = [⟨0x3FFF, .add 8191, some 63, s.accNet⟩])
      && t.sigHeld ⟨0x3FFF, .add 8191, some 63, s.accNet⟩) = true := by decide +kernel

theorem test_event : quiet.sigDead (sigCtr sigTop / 4096) = false ∧ (quiet.evtFifo (sigCtr sigTop / 4096)).length < 64
    ∧ answers (.event 63 false sigTop) quiet (fun t => decide ((t.evtFifo 3).map (fun r => (bitsOf r.toNat 63 57, bitsOf r.toNat 56 44,
        bitsOf r.toNat 43 32, bitsOf r.toNat 31 0)) = [(127, 8191, 4095, 1000000000)])) = true := by decide +kernel

theorem test_sig_read : answers (.sigRead 63 false ⟨0x3FFF, false, 31⟩) { quiet with sigs := [(0x3FFF, 0xFFFFFFFF)] }
    (fun t => decide ((t.chip 63).sreg 31 = 0xFFFFFFFF)) = true := by decide +kernel

theorem test_signal_apply : ready.sigDead 3 = false
    ∧ answers (.signalApply 0) { ready with sigs := [(0x3FFF, 0xFFFFFFFE)], sigNet := [⟨0x3FFF, .add 2, none, []⟩] }
        (fun t => decide (t.sig 0x3FFF = 0xFFFFFFFF)) = true
    ∧ answers (.signalApply 0) { ready with sigNet := [⟨0x3FFF, .set 7, none, []⟩] } (fun t => decide (t.sig 0x3FFF = 7)) = true := by
  decide +kernel

/-- Chiplet 63 waits; one section is queued. -/
def waits (v : Word) : State :=
  { jobState with chiplets := [(63, { run := .waiting 0x3FFF 5, pc := 9, dwq := [(100, 3)] })], sigs := [(0x3FFF, v)] }

theorem test_wait_resume : (waits 5).chipServes 63 = true
    ∧ answers (.waitResume 63) (waits 5) (fun t => decide ((t.chip 63).run = .running ∧ (t.chip 63).pc = 9)) = true := by decide +kernel

theorem test_deferred_start : (4 : Word).toNat < (5 : Word).toNat
    ∧ answers (.deferredSectionStart 63) (waits 4) (fun t => decide ((t.chip 63).pc = 100 ∧ (t.chip 63).resumePc = 9 ∧ (t.chip 63).dwq = [])) = true := by
  decide +kernel

theorem test_hostop : MayCommand (ready.setFld (Reg.SIG_SEL 3) 11 0 4095) pf0 (pgSIG 3)
    ∧ answers (.sigHostopAdd pf0 3 0xFFFFFFFF) (ready.setFld (Reg.SIG_SEL 3) 11 0 4095) (fun t => decide (t.sig 0x3FFF = 0xFFFFFFFF)) = true
    ∧ answers (.sigHostopSet pf0 3 5) (ready.setFld (Reg.SIG_SEL 3) 11 0 4095) (fun t => decide (t.sig 0x3FFF = 5)) = true := by decide +kernel

theorem test_evt_pop : answers (.sigEvtPop pf0 3) { ready with evts := [(3, [7, 8])] }
    (fun t => decide (t.out = [.value pf0 7] ∧ t.evtFifo 3 = [8])) = true := by decide +kernel

/-- Ring 0 with window set 1 open over this module. -/
def openRing (cls : Nat) (bytes : List Byte) : State :=
  { ((ready.setReg (Reg.RING_CFG 0) (cls * 2 ^ 29 + 4 * 2 ^ 24 + 1 * 2 ^ 14)).setReg (Reg.WIN_BASE 0 4) 3).setReg
      (Reg.WIN_LIMIT 0 4) 0xFFFFFFFFF000 with
    rings := [(0, { st := .active, flights := [{ idx := 0, bytes := desc bytes }] })] }

/-- A COPY of 8 bytes in one row from slow tier offset 0 to offset 64. -/
def copyDesc : List Byte :=
  desc ([1] ++ List.replicate 15 0 ++ leBytes 8 0 ++ leBytes 8 64 ++ leBytes 4 8 ++ leBytes 4 1)

/-- Ring 0 with that descriptor. -/
def copyState : State := { openRing 1 copyDesc with mem := Mem.write [] 0 ([1, 2, 3, 4, 5, 6, 7, 8] ++ List.replicate 120 0) }

theorem test_copy_rows : RowsOk copyState (.ring 0) (some (copyState.ringWset 0)) copyDesc := by
  intro i hi
  have h1 : cpRows copyDesc = 1 := by decide +kernel
  have h0 : i = 0 := by omega
  subst h0
  decide +kernel

theorem test_copy : let s := copyState
    s.waitsRemote (.flight 0 0) = false ∧ copyBad copyDesc = false ∧ copyOverlaps copyDesc = false
      ∧ s.flightOf 0 0 1 1 = some { idx := 0, bytes := copyDesc }
      ∧ answers (.copy 0 0) s (fun t => decide (t.load 64 8 = [1, 2, 3, 4, 5, 6, 7, 8])
          && decide ((t.ring 0).flights.map (fun f => f.status) = [some (0, 8)])) = true := by decide +kernel

/-- A FILL of two rows of 8 bytes at 64 and 128. -/
def fillDesc : List Byte :=
  desc ([2] ++ List.replicate 15 0 ++ [9, 8, 7, 6, 5, 4, 3, 2] ++ leBytes 8 64 ++ leBytes 4 8 ++ leBytes 4 2 ++ leBytes 8 0 ++ leBytes 8 64)

theorem test_fill_rows : RowsOk (openRing 1 fillDesc) (.ring 0) (some ((openRing 1 fillDesc).ringWset 0)) fillDesc := by
  intro i hi
  have h2 : cpRows fillDesc = 2 := by decide +kernel
  have h0 : i = 0 ∨ i = 1 := by omega
  rcases h0 with rfl | rfl
  · decide +kernel
  · decide +kernel

theorem test_fill : let s := openRing 1 fillDesc
    copyBad fillDesc = false ∧ copyOverlaps fillDesc = false
      ∧ s.flightOf 0 0 1 2 = some { idx := 0, bytes := fillDesc }
      ∧ answers (.fill 0 0) s (fun t => decide (t.load 128 8 = [9, 8, 7, 6, 5, 4, 3, 2])) = true := by decide +kernel

/-- Chiplet 63 and the COPY descriptor at its scratch offset 0. -/
def slotCopy : State := { jobState with chiplets := [(63, { run := .running })], mem := Mem.write (Mem.write [] 0 ([1, 2, 3, 4, 5, 6, 7, 8] ++ List.replicate 120 0)) (scratchAt 63 0) copyDesc }

theorem test_mov_copy_rows : RowsOk slotCopy (.chiplet 63) (slotCopy.moveSet (.slot 63 3)) copyDesc := by
  intro i hi
  have h1 : cpRows copyDesc = 1 := by decide +kernel
  have h0 : i = 0 := by omega
  subst h0
  decide +kernel

theorem test_mov_copy : Quiet slotCopy 63 ∧ movIllegal ⟨0, 0, 0, 0, 0, 3, false⟩ true = false ∧ slotCopy.serveData 63 = []
    ∧ slotCopy.waitsRemote (.slot 63 3) = false
    ∧ movPlace 63 0 ((slotCopy.chip 63).movAddr ⟨0, 0, 0, 0, 0, 3, false⟩ 64) 64 = some (scratchAt 63 0)
    ∧ slotCopy.uncorrectable (scratchAt 63 0) 64 = false ∧ slotCopy.argShut 63 (scratchAt 63 0) 64 = none ∧ slotCopy.load (scratchAt 63 0) 64 = copyDesc ∧ copyBad copyDesc = false
    ∧ answers (.movCopy 63 false ⟨0, 0, 0, 0, 0, 3, false⟩) slotCopy (fun t => decide (t.load 64 8 = [1, 2, 3, 4, 5, 6, 7, 8])
        && decide (t.sigNet = [⟨3, .add 1, some 63, []⟩])) = true := by decide +kernel

/-- A HOST descriptor of 4 bytes between host address 0x1000 and module address 64. -/
def hostDesc (op : Byte) : List Byte := desc ([op] ++ List.replicate 15 0 ++ leBytes 8 0x1000 ++ leBytes 8 64 ++ leBytes 4 4)

theorem test_to_host : let s := { openRing 7 (hostDesc 1) with mem := Mem.write [] 64 ([1, 2, 3, 4] ++ List.replicate 124 0) }
    s.flightOf 0 0 7 1 = some { idx := 0, bytes := hostDesc 1 } ∧ hostLen (hostDesc 1) ≠ 0
      ∧ RowHere s (.ring 0) (some (s.ringWset 0)) (hostLocal (hostDesc 1)) 4 false ∧ (s.ring 0).discard = false
      ∧ answers (.toHost 0 0 .good) s (fun t => decide (t.hostLoad (s.ringDie 0) 0x1000 4 = [1, 2, 3, 4])) = true
      ∧ answers (.toHost 0 0 .errorCompletion) s (fun t => decide (t.hostMem = []) && decide ((t.ring 0).flights.map (fun f => f.status.map (·.1)) = [some 9])) = true := by decide +kernel

theorem test_from_host : let s := { openRing 7 (hostDesc 2) with hostMem := Mem.write [] 0x1000 [5, 6, 7, 8] }
    s.flightOf 0 0 7 2 = some { idx := 0, bytes := hostDesc 2 } ∧ RowHere s (.ring 0) (some (s.ringWset 0)) (hostLocal (hostDesc 2)) 4 true
      ∧ answers (.fromHost 0 0 .good) s (fun t => decide (t.load 64 4 = [5, 6, 7, 8])) = true := by decide +kernel

/-- A serving request for any chiplet, program at bundle 8,191. -/
def serveDesc : List Byte := desc ([1] ++ List.replicate 15 0 ++ [0xFF, 0x1F, 0xFF])

/-- Chiplets 62 and 63 serve; the request is held or not. -/
def serveState (held : Bool) : State :=
  { (ringIs 6 { st := .active, flights := [{ idx := 0, bytes := serveDesc, accepted := held }] }).setReg Reg.WPC_SERVE_MASK_LIVE
      0xC000000000000000 |>.setReg Reg.WPC_SERVE_MASK 0xC000000000000000 with wp := { job := true } }

theorem test_serve_request : (serveState false).flightOf 0 0 6 1 = some { idx := 0, bytes := serveDesc }
    ∧ (serveState false).namesFenced serveDesc = false
    ∧ answers (.serveRequest 0 0) (serveState false) (fun t => decide ((t.ring 0).flights.map (fun f => f.accepted) = [true])) = true := by
  decide +kernel

theorem test_serve_dispatch : (serveState true).flightOf 0 0 6 1 = some { idx := 0, bytes := serveDesc, accepted := true }
    ∧ (serveState true).serveTarget serveDesc = some 62 ∧ serveDesc.length = 64 ∧ (serveState true).badBursts = []
    ∧ answers (.serveDispatch 0 0) (serveState true) (fun t => decide ((t.chip 62).pc = 8191 ∧ (t.chip 62).serve = some (0, 0)
        ∧ t.load (scratchAt 62 0x7FFFD0) 3 = [0xFF, 0x1F, 0xFF])) = true := by decide +kernel

/-- A held request while the chiplet it names is busy. -/
theorem test_serve_held : let d := desc ([1] ++ List.replicate 15 0 ++ [0xFF, 0x1F, 63])
    let s := ({ serveState true with rings := [(0, { st := .active, flights := [{ idx := 0, bytes := d, accepted := true }] })] } : State).setChip 63
      { run := .running, serve := some (1, 0) }
    s.serveTarget d = none ∧ s.namesFenced d = false ∧ s.namesOutside d = false
      ∧ answers (.serveDispatch 0 0) s (fun t => decide ((t.ring 0).flights.map (fun f => (f.refused, f.accepted)) = [(none, true)])) = true := by
  decide +kernel

/-- A HOST descriptor that PCIe fails on the way in leaves host memory alone. -/
theorem test_from_host_fails : let s := openRing 7 (hostDesc 2)
    answers (.fromHost 0 0 .errorCompletion) s (fun t => decide (t.hostMem = []) && decide ((t.ring 0).flights.map (fun f => f.status.map (·.1)) = [some 9])) = true := by
  decide +kernel

/-! ### Update engines and the slow tier -/

/-- An entry of one block of 256 parameters in a row, with the exchange flag, working copies that the runtime writes, and
its state in the bank SRAM of base die 2. -/
def entry : List Byte :=
  leBytes 8 0 ++ leBytes 4 1 ++ leBytes 4 256 ++ leBytes 4 0 ++ leBytes 4 1 ++ [0, 2, 0, 0, 0, 0, 0, 0] ++ leBytes 16 0
    ++ leBytes 8 (bankAt 2 0x30000) ++ leBytes 8 (bankAt 2 0x31000) ++ leBytes 8 (bankAt 2 0x32000) ++ leBytes 8 (bankAt 2 0x33000)
    ++ leBytes 8 (bankAt 2 0x36000) ++ leBytes 8 (bankAt 2 0x34000)
    ++ leBytes 8 0 ++ leBytes 8 (bankAt 2 0x35000) ++ leBytes 8 0 ++ [8, 8, 0, 0, 0, 0, 0, 0] ++ leBytes 64 0

/-- Bytes in a row. -/
def cells (a : Nat) (bs : List Byte) : List Host.Cell := bs.zipIdx.map fun p => (a + p.2, p.1)

/-- Engine 0 at work on that entry's block for waypoint 5: its map at 0x10000, its journal at 0x20000, window set 1 open, the
variant as given, region 0 of base die 0 holding the gradient of step 4 in its first block, the given tag. -/
def engine (u : UpdEng) (ctl : Word) (tag : List Byte) : State :=
  { (((((((ready.setReg (Reg.UPD_MAP_LIVE 0) 0x10001).setReg (Reg.UPD_MAP 0) 0x10001).setReg (Reg.UPD_JRNL 0) 0x20004).setReg
      (Reg.UPD_ENG_WSET 0) 1).setReg (Reg.WIN_BASE 1 0) 3).setReg (Reg.WIN_LIMIT 1 0) 0xFFFFFFFFF000).setReg
      (banked (Reg.ACC_BASE 0) 0) (bankAt 0 0)).setReg (banked (Reg.ACC_SIZE 0) 0) 8 with
    upds := [(0, u)]
    variants := if ctl = 0x20000001 then [] else [(0, { ctl := ctl })]
    mem := cells 0x10000 entry ++ cells (bankAt 0 0) (List.replicate 128 0)
      ++ cells (bankAt 0 32768) ([4, 0, 0, 0, 0, 0, 1, 0] ++ List.replicate 56 0) ++ cells (bankAt 2 0x34000) tag }

/-- A pass runs. -/
def running (p : UpdPass) : UpdEng := { todo := true, running := true, due := [p], wpn := 5 }

theorem test_map_bad : let s := engine {} 0xA0000001 (leBytes 8 0)
    s.updWorks 0 = true ∧ s.mapPlaced 0 (s.reg (Reg.UPD_MAP 0)) = true
      ∧ answers (.mapValidate 0) s (fun t => decide (((t.upd 0).mapOk.isSome, t.fld (Reg.UPD_BAD_ENTRY 0) 31 31) =
          ((s.firstBad 0 (s.reg (Reg.UPD_MAP 0))).isNone, boolNat (s.firstBad 0 (s.reg (Reg.UPD_MAP 0))).isSome))) = true := by decide +kernel

theorem test_map_good : let s := ready
    s.mapPlaced 47 (s.reg (Reg.UPD_MAP 47)) = true ∧ s.firstBad 47 (s.reg (Reg.UPD_MAP 47)) = none
      ∧ answers (.mapValidate 47) s (fun t => decide ((t.upd 47).mapOk = some 0)) = true := by decide +kernel

theorem test_pass_start : let s := engine { todo := true, due := [.step], wpn := 5 } 0xA0000001 (leBytes 8 0)
    s.updWorks 0 = true ∧ s.unfenced (.upd 0) = true ∧ s.shardFree (s.upd 0).wpn = true ∧ 0 < mapCount (s.liveMap 0)
      ∧ passRuns .step (s.mapEntry (s.liveMap 0) 0) 0 = true ∧ MapReadable s 0 ∧ 0 < (s.mapEntry (s.liveMap 0) 0).blocks
      ∧ answers (.updatePassStart 0) s (fun t => decide (t.curPass 0 = some .step)) = true := by decide +kernel

/-- A DERIVE descriptor for engine 47 alone, entries 3 and 4. -/
def deriveDesc (op : Byte) : List Byte := desc ([op] ++ List.replicate 15 0 ++ [47, 0, 0, 0, 3, 0, 0, 0, 2, 0])

theorem test_derive : let s := ringWith 5 (deriveDesc 2)
    enginesNamed (fieldAt (deriveDesc 2) 0x10 1) = [47] ∧ s.serving (updUnit 47) = true
      ∧ s.flightOf 0 0 5 2 = some { idx := 0, bytes := deriveDesc 2 }
      ∧ answers (.derive 0 0) s (fun t => decide ((t.upd 47).later = [.derive_ 0 0 3 2]) && decide (t.updOpen.length = 1)) = true := by decide +kernel

theorem test_sweep : answers (.sweep 0 0) (ringWith 5 (deriveDesc 3)) (fun t => decide ((t.upd 47).later = [.sweep 0 0])) = true := by decide +kernel

/-- An OUTER_STEP of round 7 from host memory. -/
def outerDesc : List Byte := desc ([1] ++ List.replicate 15 0 ++ [7, 0, 0, 0, 2, 0, 0, 0])

/-- Round 7 is closed, and rounds up to a given one are applied. -/
def outerState (applied : Nat) : State :=
  (ringWith 5 outerDesc).setReg Reg.UPD_OUTER_STATE (applied * 2 ^ 32 + 7)

theorem test_outer_step : (outerState 6).outerTurn 0 0 = true ∧ (outerState 6).flightOf 0 0 5 1 = some { idx := 0, bytes := outerDesc } ∧ (outerState 6).roundClosed = some 7
    ∧ fieldAt outerDesc 0x10 4 ≤ 7 ∧ fieldAt outerDesc 0x20 8 = (outerState 6).fld Reg.UPD_SHARD 47 0 ∧ bitOf (fieldAt outerDesc 0x14 4) 1 = true
    ∧ (outerState 6).roundStale 7 = false ∧ (outerState 7).roundStale 7 = true
    ∧ answers (.outerStep 0 0) (outerState 6) (fun t => decide (t.updQueue.length = 1)) = true
    ∧ answers (.outerStep 0 0) (outerState 7) (fun t => decide (t.reg Reg.UPD_OUTER_STALE = 1) && t.updQueue.isEmpty) = true := by decide +kernel

/-- A touched block of a step with a dense gradient. -/
def stepState : State :=
  { engine (running .step) 0xA0000001 (leBytes 8 0) with
    mem := cells 0x10000 (entry.take 25 ++ [0x12, 0, 0, 0, 0, 0, 0] ++ leBytes 8 (bankAt 2 0x50000) ++ leBytes 8 (bankAt 2 0x60000)
      ++ entry.drop 48) ++ cells (bankAt 2 0x34000) (leBytes 8 0) ++ cells (bankAt 2 0x60000) [1] }

theorem test_step_reads : let e := stepState.curEntry 0
    stepState.curPass 0 = some .step ∧ stepState.readTrouble 0 (maskRange e 0 ++ ((e.gradRanges 0) ++ [(e.tagOf 0, 8)])) = none
      ∧ stepState.journalPhase (stepState.journalNext 0) = 0 ∧ (stepState.variant e.variant).rule ≠ 3
      ∧ stepState.entryTrouble 0 e = none ∧ e.dense = true
      ∧ stepState.readTrouble 0 (stepState.liveReads 0 e 0) = none
      ∧ stepState.passedOver e 0 = false ∧ stepState.blockTouched e 0 5 = true
      ∧ stepState.loadNat (e.tagOf 0) 4 ≠ (stepState.upd 0).wpn % 2 ^ 32
      ∧ stepState.readTrouble 0 (e.stepReads stepState.compat 0) = none ∧ stepState.checkDue 0 5 = false := by decide +kernel

theorem test_step_begin : stepState.entryBegin 0 (stepState.curEntry 0) = stepState :=
  State.entryBegin_plain _ _ _ (by decide +kernel)

/-- The writes of the step update. -/
def stepWriting : List (Nat × List Byte) :=
  let e := stepState.curEntry 0
  let g := unscale 0 (stepState.blockGrads e 0 5)
  let s1 := stepState.count (Reg.UPD_NF_GRAD 0) g.2
  let n := s1.stepBlock 0 e 0 g.1
  s1.stepWrites 0 e 0 n (s1.copiesOf e stepState.compat 0 n.xs).1

theorem test_step_writes : stepWriting.map (fun w => (w.1, w.2.length)) =
    [(0x20000, 288), (bankAt 2 0x30000, 512), (bankAt 2 0x31000, 8), (0x20005, 1), (bankAt 2 0x32000, 768), (0x20005, 1), (bankAt 2 0x34000, 4), (0x20005, 1)] := by
  have hg : (unscale 0 (stepState.blockGrads (stepState.curEntry 0) 0 5)).1.length = 256 := by
    rw [length_unscale, State.length_blockGrads]
  unfold stepWriting
  dsimp only
  generalize unscale 0 (stepState.blockGrads (stepState.curEntry 0) 0 5) = g at hg
  have hc : (stepState.count (Reg.UPD_NF_GRAD 0) g.2).compat = false := by
    unfold State.compat State.flag
    rw [reg_count _ _ _ (by decide) (by decide) (by decide) (by decide)]
    decide +kernel
  have hj : (stepState.count (Reg.UPD_NF_GRAD 0) g.2).journalNext 0 = 0x20000 := by
    unfold State.journalNext State.journalAt State.journalLen State.fld
    rw [hc, reg_count _ _ _ (by decide) (by decide) (by decide) (by decide)]
    have hu : (stepState.count (Reg.UPD_NF_GRAD 0) g.2).upds = stepState.upds := by
      rw [show _ = _ from announces_count stepState (Reg.UPD_NF_GRAD 0) g.2]
    unfold State.upd
    rw [hu]
    decide +kernel
  have h := State.length_stepBlock (stepState.count (Reg.UPD_NF_GRAD 0) g.2) 0 (stepState.curEntry 0) 0 g.1 hc hg
  have he : (stepState.curEntry 0).fwd.fmt = 8 ∧ (stepState.curEntry 0).bwd = false := by decide +kernel
  rw [State.sizes_stepWrites _ _ _ _ _ _ hc h.1 h.2.1 h.2.2.1 h.2.2.2, hj]
  have hw : ∀ (s : State) xs, (s.copiesOf (stepState.curEntry 0) stepState.compat 0 xs).1 = [] := by
    intro s xs
    simp [State.copiesOf, State.sideOf, he]
  rw [hw]
  decide +kernel

theorem test_step_places : ∀ w ∈ [(0x20000, 288), (bankAt 2 0x30000, 512), (bankAt 2 0x31000, 8), (0x20005, 1), (bankAt 2 0x32000, 768), (0x20005, 1), (bankAt 2 0x34000, 4),
      (bankAt 2 0x33000, 512), (bankAt 2 0x34004, 4)], stepState.updMay 0 w.1 w.2 true = true ∧ PlainAt stepState w.1 w.2 := by decide +kernel

/-- An outer application of round 7 from host memory. -/
def applyState : State :=
  (engine (running (.outer 0 0 7 false true 0)) 0xA0000001 (leBytes 8 0)).setReg Reg.UPD_SNAP1 (bankAt 2 0x40000)

theorem test_outer_block : let e := applyState.curEntry 0
    applyState.curPass 0 = some (.outer 0 0 7 false true 0) ∧ applyState.readTrouble 0 (maskRange e 0 ++ [(e.tagOf 0, 8)]) = none
      ∧ applyState.passedOver e 0 = false ∧ applyState.outerRecorded 0 7 (applyState.loadNat (e.tagOf 0 + 4) 4) = false
      ∧ applyState.journalPhase (applyState.journalNext 0) = 0 ∧ applyState.outerGone (some ⟨false, true, applyState.ringDie 0, 0⟩) 0 = false
      ∧ applyState.readTrouble 0 (applyState.outerReads e 0 7) = none := by decide +kernel

theorem test_outer_lengths : let e := applyState.curEntry 0
    let b := applyState.outerBlock e 0 7 (some ⟨false, true, applyState.ringDie 0, 0⟩)
    (b.1.length = 768 ∧ b.2.1.length = 512) ∧ (applyState.copiesOf e false 0 []).1 = [] :=
  ⟨State.length_outerBlock _ _ _ _ _ (by decide), by decide⟩

theorem test_null_block : (engine (running (.null 7 none)) 0xA0000001 (leBytes 8 0)).curPass 0 = some (.null 7 none)
    ∧ (engine (running (.null 7 none)) 0xA0000001 (leBytes 8 0)).outerGone none 0 = false := by decide +kernel

theorem test_derive_block : let s := engine (running (.derive_ 0 0 0 1)) 0xA0000001 (leBytes 8 0)
    s.curPass 0 = some (.derive_ 0 0 0 1) ∧ s.blockRegs 0 = [] ∧ MapReadable s 0 ∧ s.readTrouble 0 [((s.curEntry 0).masterOf s.compat 0, masterSize s.compat)] = none
      ∧ answers (.reDerivationBlock 0) s (fun t => decide (t.reg (Reg.UPD_BLOCKS 0) = 1)) = true := by decide +kernel

theorem test_step_frozen : let s := engine (running .step) 0x20000001 (leBytes 8 0)
    s.curPass 0 = some .step ∧ s.blockFrozen (s.curEntry 0) 0 = true ∧ s.journalPhase (s.journalNext 0) = 0
      ∧ answers (.stepUpdateBlock 0) s (fun t => decide (t.reg (Reg.UPD_FROZEN 0) = 1)) = true := by decide +kernel

theorem test_step_again : let s := engine (running .step) 0xA0000001 [5, 0, 0, 0, 0, 0, 0, 0]
    s.passedOver (s.curEntry 0) 0 = false ∧ s.loadNat ((s.curEntry 0).tagOf 0) 4 = (s.upd 0).wpn % 2 ^ 32
      ∧ answers (.stepUpdateBlock 0) s (fun t => decide (t.reg (Reg.UPD_BLOCKS 0) = 0 ∧ t.reg (Reg.UPD_UNTOUCHED 0) = 0 ∧ t.mem = s.mem)) = true := by
  decide +kernel

theorem test_step_untouched : let s := engine { running .step with wpn := 6 } 0xA0000001 (leBytes 8 0)
    s.blockTouched (s.curEntry 0) 0 6 = false ∧ s.gradLost 0 (s.curEntry 0) 0 = false
      ∧ answers (.stepUpdateBlock 0) s (fun t => decide (t.reg (Reg.UPD_BLOCKS 0) = 0 ∧ t.reg (Reg.UPD_UNTOUCHED 0) = 1 ∧ t.mem = s.mem)) = true := by
  decide +kernel

/-- A FACTORED entry without a factor region is passed over as a frozen one, and counted (R229). -/
theorem test_factorless : let s := engine (running .step) 0xA0000003 (leBytes 8 0)
    s.blockFrozen (s.curEntry 0) 0 = false ∧ s.entryTrouble 0 (s.curEntry 0) = none ∧ (s.entryBegin 0 (s.curEntry 0)).passedOver (s.curEntry 0) 0 = true
      ∧ answers (.stepUpdateBlock 0) s (fun t => decide (t.reg (Reg.UPD_FROZEN 0) = 1 ∧ t.reg (Reg.UPD_RULE_MISMATCH 0) = 1)) = true := by decide +kernel

theorem test_outer_again : let s := engine { running (.null 7 none) with resumed := true } 0xA0000001 [0, 0, 0, 0, 7, 0, 0, 0]
    s.outerRecorded 0 7 (s.loadNat ((s.curEntry 0).tagOf 0 + 4) 4) = true
      ∧ s.readTrouble 0 (maskRange (s.curEntry 0) 0 ++ [((s.curEntry 0).tagOf 0, 8)]) = none
      ∧ answers (.nullStepBlock 0) s (fun t => decide (t.reg (Reg.UPD_BLOCKS 0) = 0 ∧ t.mem = s.mem)) = true := by decide +kernel

/-- A sweep of the entry's block. -/
def sweepState : State :=
  engine { running := true, sweeping := true, due := [.sweep 0 0], wpn := 5 } 0xA0000001 (leBytes 8 0)

theorem test_sweep_block : sweepState.updWorks 0 = true
    ∧ sweepState.readTrouble 0 [((sweepState.curEntry 0).masterOf sweepState.compat 0, masterSize sweepState.compat)] = none
    ∧ answers (.sweepBlock 0) sweepState (fun t => decide (t.reg (Reg.UPD_DEV_CHECKED 0) = 1)) = true := by decide +kernel

/-- An engine that rolls its journal forward. -/
def recoverState : State :=
  (engine { recovering := true, todo := true } 0xA0000001 (leBytes 8 0)).setUnit (.upd 0) { phase := .probation }

theorem test_roll_forward : recoverState.wardPowered 5 = true ∧ (∀ i < recoverState.journalLen 0, recoverState.journalPhase (recoverState.ringAt 0 (recoverState.journalMode 0) i) ≤ 1)
    ∧ PlainAt recoverState (recoverState.ringAt 0 (recoverState.journalMode 0) 0) (journalSize (recoverState.journalMode 0) * recoverState.journalLen 0) := by decide +kernel

/-- Its journal holds one entry of KIND 1 in PHASE 3. -/
def redoState : State :=
  { recoverState with mem := Mem.write recoverState.mem 0x20000 ((journalBytes 5 1 0 0 0 0 false []).set 5 3 ++ List.replicate 32 0) }

theorem test_roll_entry : let s := redoState
    let d := s.load (s.ringAt 0 (s.journalMode 0) 0) (journalSize (s.journalMode 0))
    (0 < s.journalLen 0 ∧ s.journalPhase (s.ringAt 0 (s.journalMode 0) 0) = 3 ∧ fieldAt d 5 1 = 3)
      ∧ (∀ x < s.journalLen 0, x ≠ 0 → s.journalPhase (s.ringAt 0 (s.journalMode 0) x) = 0)
      ∧ s.redoTrouble 0 (s.ringAt 0 (s.journalMode 0) 0) d = none
      ∧ (∀ w ∈ (s.redoWrites 0 (s.ringAt 0 (s.journalMode 0) 0) d).1, overlaps w.1 w.2.length (s.ringAt 0 (s.journalMode 0) 0 + 0xE) 1 = false)
      ∧ (s.redoWrites 0 (s.ringAt 0 (s.journalMode 0) 0) d).1 = [(bankAt 2 0x34000, [5, 0, 0, 0]), (0x20005, [0])]
      ∧ answers (.rollForward 0) s (fun t => decide (t.load (bankAt 2 0x34000) 4 = [5, 0, 0, 0] ∧ t.reg (Reg.UPD_ROLLFWD 0) = 1)) = true := by
  decide +kernel

/-- The engine's map and the block in progress name no register, and the map's entries read without error. -/
theorem test_map_reads : (MapReadable stepState 0 ∧ stepState.blockRegs 0 = [] ∧ stepState.gradLost 0 (stepState.curEntry 0) 0 = false)
    ∧ (MapReadable applyState 0 ∧ applyState.blockRegs 0 = []) ∧ sweepState.blockRegs 0 = [] ∧ recoverState.mapRegs 0 = [] := by decide +kernel

/-- A resumed step update whose gradient region has begun the next step. -/
theorem test_grad_lost : let s := engine { running .step with resumed := true } 0xA0000001 (leBytes 8 0)
    let t : State := { s with
      mem := cells 0x10000 entry ++ cells (bankAt 0 0) (List.replicate 128 0)
        ++ cells (bankAt 0 32768) ([5, 0, 0, 0, 0, 0, 1, 0] ++ List.replicate 56 0) ++ cells (bankAt 2 0x34000) (leBytes 8 0) }
    t.gradLost 0 (t.curEntry 0) 0 = true ∧ MapReadable t 0 ∧ t.blockRegs 0 = []
      ∧ answers (.stepUpdateBlock 0) t (fun u => u.flag Reg.FLT_JOB 31 && decide (u.mem = t.mem)) = true := by decide +kernel

/-- The entry's state lies in register space, at the engine's own page. -/
def regEntry (p : UpdPass) (u : UpdEng) : State :=
  { engine { u with due := [p] } 0xA0000001 (leBytes 8 0) with
    mem := cells 0x10000 (entry.take 48 ++ leBytes 8 (0x300000000000 + pgWPC) ++ entry.drop 56) }

theorem test_block_regs : ∀ p ∈ [UpdPass.step, .outer 0 0 7 false true 0, .null 7 none, .derive_ 0 0 0 1],
    (regEntry p { todo := true, running := true, wpn := 5 }).curPass 0 = some p
      ∧ (regEntry p { todo := true, running := true, wpn := 5 }).blockRegs 0 ≠ [] := by decide +kernel

theorem test_map_regs : let s := (regEntry .step { recovering := true, todo := true }).setUnit (.upd 0) { phase := .probation }
    (s.upd 0).recovering = true ∧ s.wardPowered 5 = true ∧ s.mapRegs 0 ≠ [] := by decide +kernel

theorem test_engine_unfreeze : let s := ready.setUnit (.upd 47) { frozen := true, code := 7 }
    MayCommand s pf0 (pgUPD 47) ∧ answers (.engineUnfreeze pf0 47) s (fun t => decide ((t.unit (.upd 47)).frozen = false
      ∧ (t.unit (.upd 47)).code = 1 ∧ (t.unit (.upd 47)).prev = 7)) = true := by decide +kernel

theorem test_var_stage : MayCommand ready pf0 pgUPDC ∧ ready.varStaged.length < 256
    ∧ answers (.updVarStage pf0) (ready.setFld Reg.UPD_VAR_SEL 7 0 255) (fun t => decide (t.varStaged.map Prod.fst = [255])) = true := by decide +kernel

theorem test_var_read : let s := { ready.setFld Reg.UPD_VAR_SEL 7 0 255 with variants := [(255, { lr := 0x3F800000 })] }
    answers (.updVarRead pf0) s (fun t => decide (t.reg Reg.UPD_VAR_LR = 0x3F800000)) = true := by decide +kernel

theorem test_slow_tier : inSlowWindow 0x100000000000 = true ∧ ready.wardPowered 5 = true ∧ ready.serving .slowTier = true
    ∧ populated 0x100000000000 4 = true ∧ ready.badBursts = [] := by
  refine ⟨by decide, by decide, by decide, ?_, rfl⟩
  unfold populated runEnd
  cases Config.orderIs1T <;> decide

theorem test_slow_tier_fenced : (ready.setUnit .slowTier { phase := .draining }).serving .slowTier = false
    ∧ answers (.slowTierAccess .side 0x100000000000 (.read 4) .clean) (ready.setUnit .slowTier { phase := .draining })
        (fun t => decide (t.out.getLast? = some (.reply .side 1 []))) = true := by decide +kernel

/-- A burst of the slow tier that has been written reads without error; offset 0x100000000004 lies in it. -/
theorem test_slow_tier_sound : ({ ready with mem := cells 0x100000000000 (List.replicate 64 7) } : State).uncorrectable 0x100000000000 4 = false
    ∧ (0x100000000004 : BitVec 48).toNat / 64 * 64 < 0x100000000000 + 4
    ∧ 0x100000000000 < (0x100000000004 : BitVec 48).toNat / 64 * 64 + 64 := by decide +kernel

/-- A burst that has given an error; a write of it whole, or of its first half. -/
theorem test_slow_tier_bad : ({ ready with badBursts := [0x100000000000] } : State).badBurst 0x100000000000 4 = some 0x100000000000
    ∧ ({ ready with badBursts := [0x100000000000] } : State).serving .slowTier = true
    ∧ 0x100000000000 ≤ (0x100000000004 : BitVec 48).toNat / 64 * 64 ∧ (0x100000000004 : BitVec 48).toNat / 64 * 64 + 64 ≤ 0x100000000000 + 64
    ∧ 0x100000000000 + 32 < (0x100000000004 : BitVec 48).toNat / 64 * 64 + 64 := by decide +kernel

theorem test_slow_tier_beyond : inSlowWindow 0x11FFFFFFFFC0 = true ∧ populated 0x11FFFFFFFFC0 4 = false := by
  refine ⟨by decide, ?_⟩
  unfold populated runEnd
  cases Config.orderIs1T <;> decide

/-! ### Register pages, BAR4, scale and arbiters -/

/-- PF0 may write the header of a page whose ward has power. -/
theorem header_pf0 (s : State) (page : BitVec 28) (p : Nat) (k : PageKind) (hf : s.pathFrozen pf0 = false)
    (hp : pageBase page.toNat = p) (h0 : p % 0x1000 = 0) (hk : ∃ i, pageOf p = some (k, i)) (hw : s.wardPowered (p / 0x1000000) = true) :
    MayHeader s pf0 page p k := ⟨hf, fun o _ => by rw [hp]; rfl, h0, hk, rfl, hw⟩

theorem test_header : MayHeader ready pf0 pgTH pgTH .th := header_pf0 _ _ _ _ (by decide +kernel) (by decide +kernel) (by decide +kernel) ⟨0, by decide +kernel⟩ (by decide +kernel)

theorem test_event_words : answers (.evtEnableWrite pf0 pgTH 0xFFFFFFFF) ready (fun t => decide (t.reg (pgTH + Hdr.EVT_ENABLE) = 0xFFFFFFFF)) = true
    ∧ answers (.evtForce pf0 pgTH 0xFFFFFFFF) ready (fun t => decide (t.reg (pgTH + Hdr.EVT_STATUS) = PageKind.th.events)) = true
    ∧ answers (.evtStatusClear pf0 pgTH 1) (ready.setReg (pgTH + Hdr.EVT_STATUS) 0x300) (fun t => decide (t.reg (pgTH + Hdr.EVT_STATUS) = 0x300)) = true := by
  decide +kernel

/-- A cipher die whose epoch has no numbers left: event 8 of its page stands until the next switch (R323). -/
theorem test_event_stands : let s := ready.setReg (Reg.CPH_FRAME 1) (2 ^ 63 - 1)
    (s.standing (pgCPHD 1)).testBit 8 = true ∧ answers (.evtStatusClear pf0 (BitVec.ofNat 28 (pgCPHD 1)) 0x100)
      (s.setReg (pgCPHD 1 + Hdr.EVT_STATUS) 0x100) (fun t => t.flag (pgCPHD 1 + Hdr.EVT_STATUS) 8) = true := by decide +kernel

theorem test_unfreeze : let s := ready.setUnit (.upd 47) { frozen := true, code := 7 }
    MayHeader s pf0 (BitVec.ofNat 28 (pgUPD 47)) (pgUPD 47) .upd ∧ unitOfPage (pgUPD 47) = some (.upd 47)
      ∧ (s.unit (.upd 47)).frozen = true ∧ (s.unit (.upd 47)).phase = .normal
      ∧ answers (.unfreeze pf0 (BitVec.ofNat 28 (pgUPD 47))) s (fun t => decide ((t.unit (.upd 47)).frozen = false)) = true :=
  ⟨header_pf0 _ _ _ _ (by decide +kernel) (by decide +kernel) (by decide +kernel) ⟨47, by decide +kernel⟩ (by decide +kernel), by decide +kernel, by decide +kernel, by decide +kernel, by decide +kernel⟩

/-- Counters of the first far port's page. -/
def countState : State := (ready.setReg (Reg.FP_TX_FRAMES 0) 5).setReg (Reg.FP_RX_FCS 0) 7

theorem test_snap : MayHeader countState pf0 (BitVec.ofNat 28 (pgFP 0)) (pgFP 0) .fp
    ∧ answers (.snapTakeClear pf0 (BitVec.ofNat 28 (pgFP 0)) 0) countState (fun t => decide (t.reg (Reg.FP_TX_FRAMES 0) = 0
        ∧ t.reg (Reg.FP_RX_FCS 0) = 0 ∧ t.reg (pgFP 0 + Hdr.SNAP_TIME) = 1000000000)) = true
    ∧ answers (.snapTake pf0 (BitVec.ofNat 28 (pgFP 0)) 3) countState (fun t => decide (t.reg (Reg.FP_TX_FRAMES 0) = 5
        ∧ t.fld (pgFP 0 + Hdr.SNAP_CTRL) 25 24 = 3)) = true :=
  ⟨header_pf0 _ _ _ _ (by decide +kernel) (by decide +kernel) (by decide +kernel) ⟨0, by decide +kernel⟩ (by decide +kernel), by decide +kernel, by decide +kernel⟩

theorem test_counter_clear : countState.pathFrozen pf0 = false
    ∧ countState.busAddr pf0 (BitVec.ofNat 28 (Reg.FP_RX_FCS 0)).toNat = some (Reg.FP_RX_FCS 0) ∧ (satWidth (Reg.FP_RX_FCS 0)).isSome = true
    ∧ regBase (Reg.FP_RX_FCS 0) = some (Reg.FP_RX_FCS 0, 4) ∧ regBase (Reg.FP_TX_FRAMES 0) = some (Reg.FP_TX_FRAMES 0, 8)
    ∧ countState.mayWrite pf0 (pageBase (Reg.FP_RX_FCS 0)) = true ∧ countState.wardPowered (Reg.FP_RX_FCS 0 / 0x1000000) = true
    ∧ answers (.counterClear pf0 (BitVec.ofNat 28 (Reg.FP_RX_FCS 0)) 4 0xFFFFFFFF) countState (fun t => decide (t.reg (Reg.FP_RX_FCS 0) = 0)) = true := by
  decide +kernel

theorem test_apply : MayHeader ready pf0 pgXCH pgXCH .xch ∧ pgXCH ≠ pgCALU 1 ∧ ready.wp.job = false
    ∧ (∀ r ∈ ready.wpRegs, r.page = pgXCH → r.reg ≠ Reg.WPC_SERVE_MASK ∧ r.reg ≠ Reg.RT_PATCH ∧ ∀ j, r.who ≠ [.upd j]) :=
  ⟨header_pf0 _ _ _ _ (by decide +kernel) (by decide +kernel) (by decide +kernel) ⟨0, by decide +kernel⟩ (by decide +kernel), by decide +kernel, rfl, by decide +kernel⟩

theorem test_apply_effect : answers (.applyNow pf0 pgXCH) (ready.setReg Reg.XCH_WEIGHT0 0x40000000) (fun t => decide (t.reg Reg.XCH_WEIGHT_LIVE0 = 0x40000000)) = true
    ∧ answers (.discard pf0 pgXCH) (ready.setReg Reg.XCH_WEIGHT0 0x40000000) (fun t => decide (t.reg Reg.XCH_WEIGHT0 = ready.reg Reg.XCH_WEIGHT_LIVE0)) = true
    ∧ jobState.wp.job = true := by decide +kernel

/-- The pending map of engine 47 is ready; slot 3 is pinned by it. -/
def mapState : State :=
  { ready.setReg (Reg.UPD_MAP 47) 0x10000 with upds := [(47, { mapOk := some 0x10000 })], pins := [(95, 3)] }

theorem test_apply_map : mapState.mapReady 47 = true ∧ mapState.reg (Reg.UPD_MAP 47) ≠ mapState.liveMap 47
    ∧ answers (.applyNow pf0 (BitVec.ofNat 28 (pgUPD 47))) mapState (fun t => decide (t.liveMap 47 = 0x10000 ∧ t.pins = [(94, 3)])) = true
    ∧ answers (.discard pf0 (BitVec.ofNat 28 (pgUPD 47))) mapState (fun t => decide ((t.upd 47).mapOk = none ∧ t.pins = [])) = true := by decide +kernel

/-- A map that its engine has not validated yet: a good one, and one that names an entry that is not. -/
theorem test_apply_unvalidated : let s := ready.setReg (Reg.UPD_MAP 47) 0x10000
    s.mapReady 47 = false ∧ s.updWorks 47 = true ∧ s.mapPlaced 47 0x10000 = true ∧ (s.firstBad 47 0x10000).isNone = true
      ∧ s.reg (Reg.UPD_MAP 47) ≠ s.liveMap 47
      ∧ answers (.applyNow pf0 (BitVec.ofNat 28 (pgUPD 47))) s (fun t => decide (t.liveMap 47 = 0x10000)) = true
      ∧ ((ready.setReg (Reg.UPD_MAP 47) 0x10001).firstBad 47 0x10001).isNone = false
      ∧ answers (.applyNow pf0 (BitVec.ofNat 28 (pgUPD 47))) (ready.setReg (Reg.UPD_MAP 47) 0x10001) (fun t =>
          decide (t.liveMap 47 = ready.liveMap 47) && t.flag (Reg.UPD_BAD_ENTRY 47) 31) = true := by decide +kernel

theorem test_apply_rails : MayHeader ready pf0 (BitVec.ofNat 28 (pgCALU 1)) (pgCALU 1) .calu :=
  header_pf0 _ _ _ _ (by decide +kernel) (by decide +kernel) (by decide +kernel) ⟨1, by decide +kernel⟩ (by decide +kernel)

theorem test_register_write : pageOf Reg.TH_LIMIT = some (.th, 0)
    ∧ (findDesc PageKind.th.regs 0x10C).any (fun d => decide (d.1.bytes = 4) && decide (d.2 = 0) && d.1.satField.isNone
        && d.1.fields.all (fun f => f.acc == .rw || f.acc == .ro)) = true
    ∧ ready.mayWrite pf0 (pageBase Reg.TH_LIMIT) = true ∧ ready.wardPowered (Reg.TH_LIMIT / 0x1000000) = true := by decide +kernel

theorem test_register_narrow : ready.pathFrozen pf0 = false ∧ ready.busAddr pf0 (BitVec.ofNat 28 Reg.TH_LIMIT).toNat = some Reg.TH_LIMIT
    ∧ answers (.registerWrite pf0 (BitVec.ofNat 28 Reg.TH_LIMIT) 2 5) ready (fun t => decide (t.reg (Reg.HOST_BAR0_DROPPED 0) = 1)) = true
    ∧ answers (.registerWrite pf0 (BitVec.ofNat 28 (Reg.TH_LIMIT + 2)) 4 5) ready (fun t => decide (t.reg (Reg.HOST_BAR0_DROPPED 0) = 1)) = true := by
  decide +kernel

theorem test_register_ring : ready.pathFrozen (.ring 0) = false ∧ (0 : Fin 2).val = ready.fld (Reg.RG_ASSIGN 0) 12 12
    ∧ answers (.registerWrite (.ring 0) (BitVec.ofNat 28 (Reg.TH_LIMIT + 2)) 4 5) ready (fun t => decide (t.reg (Reg.HOST_BAR0_DROPPED 0) = 1)) = true := by
  decide +kernel

theorem test_devnum : MayCommand ready pf0 pgID ∧ ready.anyRingActive = false ∧ (ringWith 0 []).anyRingActive = true
    ∧ answers (.modDevnumWrite pf0 0xFFFF0007) ready (fun t => decide (t.devnum = 7)) = true
    ∧ answers (.modDevnumWrite pf0 7) (ringWith 0 []) (fun t => decide (t.reg Reg.ID_DEVNUM_REJECT = 1)) = true := by decide +kernel

theorem test_soft_clear : MayCommand ready pf0 pgREP ∧ answers (.repSoftClear pf0) ready (fun t => t.softClear) = true := by decide +kernel

theorem test_bar4 : let s := { ready with mem := Mem.write [] 0xEE6B27FC0 (List.replicate 60 0 ++ [1, 2, 3, 4]) }
    s.funcFrozen ⟨1, 2⟩ = false ∧ s.pathFrozen (.func ⟨1, 2⟩) = false ∧ s.rangeServes (.func ⟨1, 2⟩) (s.bar4Base ⟨1, 2⟩ + 0xEE6B27FFC) 4 = true
      ∧ PlainAt s (s.bar4Base ⟨1, 2⟩ + 0xEE6B27FFC) 4
      ∧ answers (.bar4Access ⟨1, 2⟩ 0xEE6B27FFC (.read 4)) s (fun t => decide (t.out.getLast? = some (.barData ⟨1, 2⟩ 0 [1, 2, 3, 4]))) = true := by
  decide +kernel

/-- BAR4 of PF0 lies over the bank SRAM; chiplet 0 is fenced, whose scratch the access names. -/
theorem test_bar4_refused : let s := (ready.setReg (Reg.HOST_BAR4_BASE 0 0) (bankAt 0 0)).setUnit (.chiplet 0) { phase := .draining }
    s.rangeServes (.func ⟨0, 0⟩) (s.bar4Base ⟨0, 0⟩ + 0x100000000) 4 = false ∧ PlainAt s (s.bar4Base ⟨0, 0⟩ + 0x100000000) 4
      ∧ answers (.bar4Access ⟨0, 0⟩ 0x100000000 (.write [1, 2, 3, 4])) s (fun t => decide (t.mem = []) && decide (t.reg Reg.FLT_REFUSED = 1)) = true := by
  decide +kernel

/-- BAR4 of PF0 lies over the registers: a word of the thermal page, and one that is misaligned. -/
theorem test_bar4_registers : let s := ready.setReg (Reg.HOST_BAR4_BASE 0 0) 0x300000000000
    placeOf (s.bar4Base ⟨0, 0⟩ + Reg.TH_LIMIT) = .regs ∧ populated (s.bar4Base ⟨0, 0⟩ + Reg.TH_LIMIT) 4 = true
      ∧ s.rangeServes (.func ⟨0, 0⟩) (s.bar4Base ⟨0, 0⟩ + Reg.TH_LIMIT) 4 = true ∧ s.funcFrozen ⟨0, 0⟩ = false ∧ s.pathFrozen pf0 = false
      ∧ answers (.bar4Access ⟨0, 0⟩ (BitVec.ofNat 36 Reg.TH_LIMIT) (.read 4)) s (fun t =>
          decide (t.out.getLast? = some (.barData ⟨0, 0⟩ 0 (leBytes 4 (s.reg Reg.TH_LIMIT))))) = true
      ∧ answers (.bar4Access ⟨0, 0⟩ (BitVec.ofNat 36 (Reg.TH_LIMIT + 2)) (.write [1, 2, 3, 4])) s (fun t =>
          decide (t.reg (Reg.HOST_BAR0_DROPPED 0) = 1 ∧ t.reg Reg.TH_LIMIT = s.reg Reg.TH_LIMIT)) = true := by decide +kernel

theorem test_bar4_frozen : (ready.setFld (frozenReg 1) (frozenBit 2) (frozenBit 2) 1).funcFrozen ⟨1, 2⟩ = true := by decide +kernel

theorem test_census : (16383 : Fin 16384) ≠ 0 ∧ (ready.setReg Reg.SC_STEP_NF 0).sourceServes (sourceNum (.codec 31)) = false
    ∧ answers (.censusReport (.codec 31) 16383 { elems := 5 }) ready (fun t =>
        decide (Map.find t.census (143 * 16384 + 16383) = some { elems := 5 })) = true := by decide +kernel

theorem test_slot_stage : MayCommand ready pf0 pgSC ∧ ready.pinned (ready.fld Reg.SC_SLOT_SEL 13 0) = false ∧ ready.staged.length < 256
    ∧ answers (.scSlotStage pf0 true) ((ready.setReg Reg.SC_SLOT_SEL 16383).setReg Reg.SC_SLOT_T 0x40000000) (fun t =>
        decide (t.staged = [⟨16383, 0x40000000, 10, true⟩])) = true := by decide +kernel

/-- 256 slots are staged; one of them is staged again. -/
theorem test_slot_full : let l := (List.range 256).map fun n => (⟨n, 0, 10, false⟩ : Staged)
    let s := fun n => ({ ready with staged := l } : State).setReg Reg.SC_SLOT_SEL n
    (s 300).pinned 300 = false ∧ ((s 300).staged.any fun o => o.slot == 300) = false ∧ 256 ≤ (s 300).staged.length
      ∧ answers (.scSlotStage pf0 true) (s 300) (fun t => decide (t.reg Reg.SC_STAGE_FULL = 1 ∧ t.fld Reg.SC_SLOT_CMD 29 28 = 2 ∧ t.staged = l)) = true
      ∧ ((s 255).staged.any fun o => o.slot == 255) = true
      ∧ answers (.scSlotStage pf0 true) (s 255) (fun t => decide (t.staged.length = 256)
          && decide (t.staged.getLast?.map (fun w => (w.slot, w.clear)) = some (255, true))) = true := by decide +kernel

/-- Slot 3 is pinned by a map; the staged configuration has the policy CURRENT. -/
theorem test_slot_pinned : let s := ((({ ready with pins := [(0, 3)] } : State).setReg Reg.SC_SLOT_SEL 3).setReg Reg.SC_SLOT_CFG 0x4000000A)
    s.pinned 3 = true ∧ pinRefuses (BitVec.ofNat 32 (s.reg Reg.SC_SLOT_CFG)).toNat = true
      ∧ answers (.scSlotStage pf0 false) s (fun t => decide (t.reg Reg.SC_STAGE_PINNED = 1 ∧ t.fld Reg.SC_SLOT_CMD 29 28 = 3) && t.staged.isEmpty) = true := by
  decide +kernel

theorem test_ls_load : answers (.scLsLoad pf0) (ready.setFld Reg.SC_LS_SET 7 0 255) (fun t => decide (t.lsStaged = some 255)) = true := by decide +kernel

theorem test_table_base : inBank0 (bankAt 0 0x200000 / 0x200000 * 0x200000) 0x200000 = true
    ∧ answers (.scTableBaseWrite pf0 (BitVec.ofNat 64 (bankAt 0 0x200000))) ready (fun t => decide (t.reg Reg.SC_TABLE_BASE = bankAt 0 0x200000)) = true
    ∧ answers (.scTableBaseWrite pf0 (BitVec.ofNat 64 (bankAt 0 0x200000))) (ringWith 0 []) (fun t => decide (t.reg Reg.SC_BASE_REJECT = 1)) = true := by
  decide +kernel

theorem test_swap_request : MayCommand ready pf0 pgRT
    ∧ answers (.rtSwapRequest pf0 0x8000000000000000) ready (fun t => t.flag Reg.RT_SWAP_REQ 63) = true := by decide +kernel

theorem test_log_clear : MayCommand ready pf0 (pgSEQ 63)
    ∧ answers (.seqLogClear pf0 63) (ready.setReg (Reg.SEQ_LOG 63 15) 9) (fun t => decide (t.reg (Reg.SEQ_LOG 63 15) = 0)) = true := by decide +kernel

theorem test_retire : MayCommand ready pf0 (pgENG 63)
    ∧ answers (.engRetireRequest pf0 63 35) ready (fun t => decide ((t.chip 63).retireReq = some 35)) = true := by decide +kernel

/-- Two ports raise their requests in one cycle. -/
def twoRaise : List PortRaise := [⟨63, .request⟩, ⟨1, .serveRequest⟩]

theorem test_grant : ready.dieLive 3 = true
    ∧ (twoRaise.foldl (fun (y : Arb) r => y.raise r.port 9 r.chan) (ready.arb 3 231)).owner = none
    ∧ (twoRaise.foldl (fun (y : Arb) r => y.raise r.port 9 r.chan) (ready.arb 3 231)).choose = some 1
    ∧ Map.rising (twoRaise.foldl (fun (y : Arb) r => y.raise r.port 9 r.chan) (ready.arb 3 231)).ports = true
    ∧ answers (.arbiterGrant 3 231 9 twoRaise) ready (fun t => decide ((t.arb 3 231).owner = some (1, 9)
        ∧ ((t.arb 3 231).port 63).losses = 1)) = true := by decide +kernel

/-- That arbiter after the grant, or with port 63 backing off. -/
def granted : State := { ready with arbs := Map.put (fun _ => {}) [] (3 * 232 + 231) { owner := some (1, 9) } }

theorem test_granted : (granted.arb 3 231).owner = some (1, 9) ∧ Map.rising (twoRaise.foldl (fun (y : Arb) r => y.raise r.port 10 r.chan) (granted.arb 3 231)).ports = true
    ∧ (twoRaise.foldl (fun (y : Arb) r => y.raise r.port 10 r.chan) (granted.arb 3 231)).owner = some (1, 9)
    ∧ answers (.arbiterGrant 3 231 10 twoRaise) granted (fun t => decide (((t.arb 3 231).port 63).losses = 1)) = true
    ∧ answers (.burstEnd 3 231 10 false) granted (fun t => decide ((t.arb 3 231).owner = none)) = true := by decide +kernel

theorem test_backoff : let s := { ready with arbs := Map.put (fun _ => {}) [] (3 * 232 + 231) (({} : Arb).setPort 63 { backoffAt := some 20 }) }
    ((s.arb 3 231).port 63).backoffAt = some 20 ∧ (s.arb 3 231).owner = none
      ∧ answers (.backoffExpiry 3 231 63 20) s (fun t => decide (((t.arb 3 231).port 63).raised = true)) = true := by decide +kernel

/-! ### Links, torus and collectives -/

/-- Link 5 in a state of TOR_LINK_STATE, with its link layer. -/
def linkIn (st : Nat) (x : Link) : State := { ready.setLinkState 5 st with links := [(5, x)] }

/-- A flit with its CRC, or with another one. -/
def flit (seq ack : BitVec 12) (typ : BitVec 2) (bad : Word) : Flit :=
  ⟨seq, ack, typ, List.replicate 312 0, flitCrc typ.toNat seq.toNat ack.toNat (List.replicate 312 0) + bad⟩

theorem flit_sound (seq ack : BitVec 12) (typ : BitVec 2) : flitSound (flit seq ack typ 0) = true := by
  unfold flitSound flit
  exact Bool.and_eq_true_iff.mpr ⟨beq_iff_eq.mpr List.length_replicate, beq_iff_eq.mpr (BitVec.add_zero _).symm⟩

theorem flit_unsound (seq ack : BitVec 12) (typ : BitVec 2) : flitSound (flit seq ack typ 1) = false := by
  unfold flitSound flit
  refine Bool.and_eq_false_iff.mpr (.inr (beq_eq_false_iff_ne.mpr ?_))
  dsimp only
  generalize flitCrc _ _ _ _ = x
  bv_omega

/-- The link layer with flits 4095 and 0 kept. -/
def twoKept : Link := { txSeq := 1, rxExp := 4095, replay := [(4095, List.replicate 312 1), (0, List.replicate 312 2)] }

theorem test_flit_send : (linkIn 2 twoKept).linkState 5 = 2 ∧ (linkIn 2 twoKept).linkWorks 5 = true ∧ (List.replicate 312 (0 : Byte)).length = 312
    ∧ answers (.flitSend 5 1 (List.replicate 312 0)) (linkIn 2 twoKept) (fun t => decide ((t.link 5).txSeq = 2 ∧ (t.link 5).replay.length = 3)) = true
    ∧ answers (.flitSend 5 0 (List.replicate 312 0)) (linkIn 2 twoKept) (fun t => decide (t.link 5 = twoKept)) = true := by decide +kernel

/-- The link layer with 1,024 flits kept. -/
def fullLink : Link := { replay := List.replicate 1024 (0, []) }

theorem test_flit_full : (linkIn 2 fullLink).linkState 5 = 2 ∧ 1024 ≤ ((linkIn 2 fullLink).link 5).replay.length := by decide +kernel

theorem test_flit_sound : (flit 4095 7 1 0).payload.length = 312 ∧ (flit 4095 7 1 0).typ = 1
    ∧ (flit 4095 7 1 0).seq.toNat = ((linkIn 2 twoKept).link 5).rxExp ∧ (linkIn 2 twoKept).relaying 5 = false := by decide +kernel

theorem test_flit_unsound : (flit 4095 7 1 1).payload.length = 312 ∧ (flit 4095 7 1 1).typ = 1 ∧ ((linkIn 2 twoKept).link 5).nak = false := by
  decide +kernel

theorem test_flit_ack : (flit 3 4095 0 0).payload.length = 312 ∧ (flit 3 4095 0 0).typ = 0
    ∧ (twoKept.replay.findIdx? fun q => q.1 == (flit 3 4095 0 0).ack.toNat) = some 0 := by decide +kernel

theorem test_flit_nak : (flit 0 7 2 0).typ = 2 ∧ (twoKept.replay.findIdx? fun q => q.1 == 0) = some 1
    ∧ (flit 0 7 2 0).seq.toNat = 0 ∧ (∀ q ∈ twoKept.replay, q.1 ≠ (flit 0 7 2 0).ack.toNat) := by decide +kernel

theorem test_ack_timeout : (twoKept.replay.findIdx? fun q => q.1 == 4095) = some 0 ∧ twoKept.ackSince + 100000 ≤ (linkIn 2 twoKept).now
    ∧ answers (.ackTimeout 5) (linkIn 2 { twoKept with replays := 254, replayAt := 4095 }) (fun t =>
        decide (t.linkState 5 = if 255 < t.replayLimit 5 then 2 else 3)) = true := by decide +kernel

theorem test_control : (flit 3 7 3 0).typ = 3 ∧ (flit 3 7 3 0).payload.length = 312 ∧ [1, 2, 3, 4, 5, 6, 7, 8].length = 8
    ∧ ((linkIn 2 twoKept).link 5).txq = [] ∧ (linkIn 2 twoKept).relaying 5 = false := by decide +kernel

theorem test_fec_corrected : fecGood (.corrected 3) = true ∧ fecGood (.uncorrectable 1) = false := by decide +kernel

/-- A training in which all lanes pass. -/
def trained (locked : Bool) : Training := ⟨0x1FFFF, locked, some (2, 0), none⟩

theorem test_signal : (linkIn 0 {}).linkWorks 5 = true ∧ (linkIn 0 {}).linkState 5 = 0
    ∧ answers (.peerSignalDetect 5) (linkIn 0 {}) (fun t => decide (t.linkState 5 = 1)) = true := by decide +kernel

theorem test_train : (linkIn 1 twoKept).linkState 5 = 1 ∧ (linkIn 1 twoKept).linkWorks 5 = true
    ∧ (linkIn 1 twoKept).trains 5 (trained true) = true ∧ (linkIn 1 twoKept).trains 5 (trained false) = false := by decide +kernel

theorem test_retrain : (linkIn 3 twoKept).linkState 5 = 3 ∧ (linkIn 3 twoKept).linkWorks 5 = true
    ∧ (linkIn 3 twoKept).trains 5 (trained true) = true ∧ (linkIn 3 twoKept).trains 5 (trained false) = false
    ∧ ((linkIn 3 twoKept).link 5).fails + 1 < (linkIn 3 twoKept).retrainLimit 5
    ∧ (linkIn 3 { twoKept with fails := 2 }).retrainLimit 5 ≤ 2 + 1 := by decide +kernel

theorem test_link_commands : MayCommand (linkIn 2 {}) pf0 (pgLINK 5)
    ∧ answers (.retrain pf0 5) (linkIn 2 {}) (fun t => decide (t.linkState 5 = 3)) = true
    ∧ answers (.retrain pf0 5) (linkIn 4 {}) (fun t => decide (t.linkState 5 = 1)) = true
    ∧ answers (.linkDisable pf0 5) (linkIn 2 {}) (fun t => decide (t.linkState 5 = 5)) = true
    ∧ answers (.linkEnable pf0 5) (linkIn 5 {}) (fun t => decide (t.linkState 5 = 0)) = true := by decide +kernel

theorem test_lanes : answers (.laneLockLoss 5 16) (linkIn 2 {}) (fun t => decide (t.linkState 5 = 3)) = true
    ∧ (List.replicate 16 0 ++ [1000000]).length = 17
    ∧ answers (.laneMarginCheck 5 (List.replicate 16 0 ++ [2 ^ 40])) (linkIn 2 {}) (fun t => t.flag (Reg.TOR_LINK_LANES 5) 16
        && !t.flag (Reg.TOR_LINK_LANES 5) 15) = true := by decide +kernel

theorem test_cable : answers (.cablePresence 5 true) (linkIn 0 {}) (fun t => (t.link 5).cablePower) = true
    ∧ ((linkIn 2 { present := true, cablePower := true }).link 5).cablePower = true
    ∧ answers (.cblPwrTrip 5) (linkIn 2 { present := true, cablePower := true }) (fun t => decide (t.linkState 5 = 0)) = true := by decide +kernel

theorem test_relay : MayCommand ready pf0 pgPOD
    ∧ answers (.relayWrite pf0 0x105) ready (fun t => t.relaying 0 && !t.relaying 2 && t.relaying 5 && t.flag Reg.TOR_RELAY 8) = true := by decide +kernel

/-- A packet of the module's own, and one of another module, wait on link 5 as the Z axis enters relay; a run that is being sent goes on. -/
theorem test_relay_drops : let own : TorusPacket := ⟨true, false, 0, 0, .request, 0, 5, .barrier 0, 0⟩
    let far : TorusPacket := { own with src := 9 }
    let x : Link := { txq := [(own, none), (far, none)], outq := [⟨true, 0, 1, true, none, []⟩, ⟨true, 0, 1, false, none, []⟩] }
    let s := linkIn 2 x
    s.relaying 4 = false ∧ answers (.relayWrite pf0 4) s (fun t => t.relaying 5 && t.flag (Reg.TOR_LINK_STATE 5) 4
      && decide ((t.link 5).txq = [(far, none)] ∧ (t.link 5).outq = [⟨true, 0, 1, true, none, []⟩])) = true := by decide +kernel

theorem test_auto_relay : let s := ready.setReg Reg.TOR_RELAY 0x100
    s.flag Reg.TOR_RELAY 8 = true ∧ s.flag Reg.TOR_RELAY 9 = false ∧ s.wardPowered 6 = true ∧ s.heartbeatWatched = true
      ∧ answers .autoRelay s (fun t => t.relaying 4) = true := by decide +kernel

theorem test_probe : answers (.torProbe pf0) (linkIn 2 {}) (fun t => decide (t.out = [.ident 5 ⟨0, false⟩])) = true := by decide +kernel

theorem test_probe_result : let s := (linkIn 2 {}).setFld Reg.TOR_PROBE 30 29 1
    s.fld Reg.TOR_PROBE 30 29 = 1 ∧ (∀ l < 6, 1 < s.extent (l / 2) → s.linkState l = 2 → l ∈ s.probeSeen) := by decide +kernel

/-- A pod of 16 × 8 × 8 whose module 0 is this one; link 5 and link 1 are UP, with credits on link 1. -/
def podState : State :=
  { ((((ready.setReg Reg.TOR_GEOM 0xF77).setReg Reg.TOR_SLICE 0x80000000).setLinkState 5 2).setLinkState 1 2) with
    links := [(1, { credits := (List.range 8).map fun v => (v, 3) })] }

/-- A packet to a device. -/
def packet (src dest : Nat) (dir : BitVec 3) : TorusPacket := ⟨true, false, 0, dir, .request, BitVec.ofNat 16 src, BitVec.ofNat 16 dest, .barrier 1023, 0x80000000⟩

theorem test_relay_discard : let s := podState.setFld (Reg.TOR_LINK_STATE 5) 4 4 1
    s.linkState 5 = 2 ∧ s.linkWorks 5 = true ∧ s.relaying 5 = true ∧ (packet 1 0 0).dest.toNat = s.devnum
      ∧ answers (.torusPacketArrive 5 (packet 1 0 0)) s (fun t => decide (t.reg (Reg.TOR_RELAY_DISCARD 5) = 1)) = true := by decide +kernel

theorem test_misroute : podState.relaying 5 = false ∧ (packet 0x300 0x380 0).dest.toNat ≠ podState.devnum
    ∧ podState.beyond (packet 0x300 0x380 0) 2 = true
    ∧ answers (.torusPacketArrive 5 (packet 0x300 0x380 0)) podState (fun t => decide (t.reg (Reg.TOR_MISROUTE 5) = 1)) = true := by decide +kernel

theorem test_route : podState.beyond (packet 0x80 0xF 1) 2 = false ∧ nextAxis podState.ownIndex 0xF = some 0
    ∧ 1 = 2 * 0 + boolNat ((packet 0x80 0xF 1).dir.getLsbD 0) ∧ podState.relaying 1 = false
    ∧ LinkReady podState 1 (packetCount (packet 0x80 0xF 1))
    ∧ answers (.torusPacketArrive 5 (packet 0x80 0xF 1)) podState (fun t => t.out.any (fun o => match o with
        | .packet k q => decide (k = 1 ∧ q.dest = 0xF)
        | _ => false) && decide (Map.get (fun _ => 0) (t.link 5).owed (packetVc (packet 0x80 0xF 1) 2) = 1)) = true := by decide +kernel

/-- A relaying die sends on by the opposite link, whatever the route. -/
theorem test_route_relay : let s := { (podState.setFld (Reg.TOR_LINK_STATE 1) 4 4 1).setFld (Reg.TOR_LINK_STATE 0) 4 4 1 with
      links := [(0, { credits := (List.range 8).map fun v => (v, 3) })] }
    s.linkState 1 = 2 ∧ s.relaying 1 = true ∧ (packet 3 7 0).src.toNat ≠ s.devnum ∧ (packet 3 7 0).dest.toNat ≠ s.devnum
      ∧ oppositeLink 1 = 0 ∧ LinkReady (s.setLinkState 0 2) 0 (packetCount (packet 3 7 0))
      ∧ answers (.torusPacketArrive 1 (packet 3 7 0)) (s.setLinkState 0 2) (fun t => t.out.any (fun o => match o with
        | .packet k q => decide (k = 0 ∧ q = packet 3 7 0)
        | _ => false)) = true := by decide +kernel

/-- A packet from the Z axis would turn to X, which relays (R264). -/
theorem test_route_turn : let s := (podState.setFld (Reg.TOR_LINK_STATE 1) 4 4 1).setFld (Reg.TOR_LINK_STATE 0) 4 4 1
    s.relaying 5 = false ∧ s.beyond (packet 0x80 0xF 1) 2 = false ∧ s.relaying (2 * 0 + boolNat ((packet 0x80 0xF 1).dir.getLsbD 0)) = true
      ∧ answers (.torusPacketArrive 5 (packet 0x80 0xF 1)) s (fun t => decide (t.reg (Reg.TOR_RELAY_DISCARD 1) = 1)) = true := by decide +kernel

theorem test_slice : MayCommand ready pf0 pgPOD ∧ ready.anyRingActive = false ∧ ready.fld Reg.REP_STATUS 3 0 = 0
    ∧ answers (.torSliceWrite pf0 true 0xFFFFFFFF) ready (fun t => decide (t.reg Reg.TOR_GEOM = 0xF77)) = true
    ∧ answers (.torSliceWrite pf0 false 0xFFFFFFFF) ready (fun t => decide (t.reg Reg.TOR_SLICE = 0x8F770F77)) = true
    ∧ answers (.torSliceWrite pf0 false 0xFFFFFFFF) (ringWith 0 []) (fun t => decide (t.reg Reg.TOR_SLICE_VIOL = 1)) = true
    ∧ answers (.torSliceWrite pf0 false 0xFFFFFFFF) (ready.setFld Reg.REP_STATUS 3 0 15) (fun t => decide (t.reg Reg.TOR_SLICE = ready.reg Reg.TOR_SLICE)) = true := by
  decide +kernel

theorem test_coll_base : inBank0 ((bankAt 0 0 + 1024) / 65536 * 65536) (64 * collCount (bankAt 0 0 + 1024)) = true
    ∧ answers (.torCollBaseWrite pf0 (BitVec.ofNat 64 (bankAt 0 0 + 1024))) ready (fun t =>
        decide (t.reg Reg.TOR_COLL_BASE = bankAt 0 0 + 1024)) = true := by decide +kernel

/-- A collective entry: operation, axes, tiles, kind, SRC and DST in the bank SRAM of base die 1, REMOTE. -/
def collDesc (op axes : Byte) (tiles : Nat) (remote : Nat) : List Byte :=
  [op, axes] ++ List.replicate 6 0 ++ leBytes 4 tiles ++ leBytes 4 0 ++ leBytes 8 (bankAt 1 0x10000) ++ leBytes 8 (bankAt 1 0x80000) ++ leBytes 8 remote
    ++ List.replicate 24 0

/-- That descriptor as entry 1023, in a slice of one module, with the unit's window set open. -/
def collState (b : List Byte) (c : CollEntry) : State :=
  { ((((podState.setReg Reg.TOR_COLL_BASE (bankAt 0 0 + 1024)).setReg Reg.TOR_WSET 1).setReg (Reg.WIN_BASE 0 4) 3).setReg
      (Reg.WIN_LIMIT 0 4) 0xFFFFFFFFF000) with
    mem := Mem.write [] (bankAt 0 (64 * 1023)) b
    colls := [(1023, c)] }

theorem test_barrier : let s := collState (collDesc 5 0 0 0) { started := some 0, sent := true }
    s.relaying 5 = false ∧ (packet 0 0 0).dest.toNat = s.devnum ∧ s.collAlive = true ∧ s.collInUse 1023 = true
      ∧ (s.coll 1023).failed = false ∧ (s.coll 1023).done = false ∧ s.samePeer (packet 0 0 0) = true
      ∧ answers (.torusPacketArrive 5 (packet 0 0 0)) s (fun t => decide ((t.coll 1023).barrier = [0])) = true := by decide +kernel

/-- A message of a member whose slice is another fails the entry (R257). -/
theorem test_barrier_slice : let s := (collState (collDesc 5 0 0 0) { started := some 0, sent := true }).setReg Reg.TOR_SLICE 0x81000000
    s.samePeer (packet 0 0 0) = false ∧ (s.coll 1023).done = false ∧ s.collAlive = true
      ∧ answers (.torusPacketArrive 5 (packet 0 0 0)) s (fun t => (t.coll 1023).failed && t.flag Reg.FLT_JOB 31) = true := by decide +kernel

/-- Module 15 learns of its differing slice by an answer without data. -/
theorem test_slice_answer : let s := { (collState (collDesc 5 0 0 0) { started := some 0, sent := true }).setLinkState 0 2 with
      links := [(0, { credits := (List.range 8).map fun v => (v, 3) })] }
    s.samePeer (packet 15 0 0) = false ∧ nextAxis s.ownIndex 15 = some 0
      ∧ 0 = 2 * 0 + boolNat (s.direction 0 (coordOf s.ownIndex 0) (coordOf 15 0)) ∧ s.relaying 0 = false ∧ LinkReady s 0 1
      ∧ answers (.torusPacketArrive 5 (packet 15 0 0)) s (fun t => match t.out.getLast? with
        | some (.packet k q) => decide (k = 0 ∧ q.msg = .fetchData 1023 [] ∧ q.dest = 15)
        | _ => false) = true := by decide +kernel

/-- The second packet of a chiplet does not overtake its first; another chiplet's may (R44). -/
theorem test_injection_order : let s := { collState (collDesc 1 0 2 0) {} with
      injects := [⟨1023 * 2 ^ 32, none, 3⟩, ⟨1023 * 2 ^ 32 + 1, none, 3⟩, ⟨1023 * 2 ^ 32 + 1, none, 4⟩] }
    (∃ v ∈ s.injects.take 1, v.chiplet = 3) ∧ answers (.injection 1) s (fun t => decide (t = s)) = true
      ∧ (∀ v ∈ s.injects.take 2, v.chiplet ≠ 4)
      ∧ answers (.injection 2) s (fun t => decide (t.injects.length = 2)) = true := by decide +kernel

theorem test_injection : let s := { collState (collDesc 1 0 2 0) {} with injects := [⟨1023 * 2 ^ 32 + 1, none, 3⟩] }
    s.collWorks = true ∧ s.collInUse 1023 = true ∧ (∀ p ∈ (s.coll 1023).present, p.1 ≠ 1)
      ∧ MayColl s (collSrc (s.collBytes 1023) + 4096 * 1) 4096 true
      ∧ answers (.injection 0) s (fun t => decide ((t.coll 1023).present = [(1, true)])) = true := by decide +kernel

theorem test_reduce_scatter : let s := collState (collDesc 1 0 2 0) { present := [(1, true)] }
    (s.coll 1023).idle = true ∧ s.serving .coll = true ∧ s.inSlice s.devnum = true ∧ collOp (s.collBytes 1023) = 1 ∧ 0 < collTiles (s.collBytes 1023)
      ∧ fieldAt (s.collBytes 1023) 0x0C 1 ≤ 1
      ∧ answers (.reduceScatter 1023) s (fun t => decide ((t.coll 1023).started = some 1000000000)) = true := by decide +kernel

theorem test_coll_fetch : let s := collState (collDesc 2 0 2 (bankAt 1 0x20000)) {}
    s.collGate (s.collBytes 1023) = true ∧ collOp (s.collBytes 1023) = 2 ∧ collRemote (s.collBytes 1023) / 2 ^ 48 = s.devnum
      ∧ s.windowOk s.collSet (collRemote (s.collBytes 1023)) (4096 * collTiles (s.collBytes 1023)) false = true
      ∧ answers (.fetch 1023) s (fun t => decide (t.fetches = [⟨1023, 0, bankAt 1 0x20000, 2, 0, 0, 1000000000⟩])) = true := by decide +kernel

/-- A FETCH of another member's data in a slice of two. -/
theorem test_fetch_other : let s := ((collState (collDesc 2 0 2 (2 ^ 48 + bankAt 1 0x20000)) {}).setReg Reg.TOR_SLICE 0x81000000).setReg (Reg.WIN_LIMIT 0 4) 0xFFFFFFFFFFFFF000
    s.inSlice s.devnum = true ∧ collRemote (s.collBytes 1023) / 2 ^ 48 ≠ s.devnum ∧ s.inSlice (collRemote (s.collBytes 1023) / 2 ^ 48) = true
      ∧ s.windowOk s.collSet (collRemote (s.collBytes 1023)) (4096 * collTiles (s.collBytes 1023)) false = true := by decide +kernel

theorem test_broadcast : let s := collState (collDesc 3 0 2 0) {}
    collOp (s.collBytes 1023) = 3 ∧ collRemote (s.collBytes 1023) % 65536 = s.devnum
      ∧ MayColl s (collSrc (s.collBytes 1023)) (4096 * 2) false ∧ MayColl s (collDst (s.collBytes 1023)) (4096 * 2) true := by decide +kernel

theorem test_flag_or : let s := collState (collDesc 4 7 0 0) {}
    collOp (s.collBytes 1023) = 4 ∧ (∀ a ∈ collAxes (s.collBytes 1023), s.lineLen (s.collBytes 1023) a = 1)
      ∧ MayColl s (collSrc (s.collBytes 1023)) 8 false ∧ MayColl s (collDst (s.collBytes 1023)) 8 true
      ∧ answers (.flagOr 1023) { s with mem := Mem.write s.mem (bankAt 1 0x10000) [1, 2, 3, 4, 5, 6, 7, 8] } (fun t =>
          decide (t.load (bankAt 1 0x80000) 8 = [1, 2, 3, 4, 5, 6, 7, 8])) = true := by decide +kernel

theorem test_permute : let s := collState (collDesc 5 0 0 0) {}
    collOp (s.collBytes 1023) = 5 ∧ collTiles (s.collBytes 1023) = 0
      ∧ answers (.permute 1023) s (fun t => (t.coll 1023).sent) = true := by decide +kernel

/-- The entry at work over axis X of a slice of two members, this one first, with its own tile void and what has come of its
neighbour's chains. -/
def lineState (recv : List CollRecv) : State :=
  (collState (collDesc 1 1 1 0) { started := some 0, present := [(0, true), (1, true)], recv := recv }).setReg Reg.TOR_SLICE 0x81000000

theorem test_tile_on : let s := lineState []
    (s.coll 1023).open_ = true ∧ 0 ∈ collAxes (s.collBytes 1023) ∧ s.holdsShard (s.collBytes 1023) 1 0 = true
      ∧ (0, 1, 0) ∉ (s.coll 1023).tasks ∧ (s.ownTile 1023 (s.collBytes 1023) 0 1 0).2 = some none
      ∧ tileSum (collOver (s.collBytes 1023) 0 && s.spansAxis 0) (s.lineLen (s.collBytes 1023) 0) (s.shardCoord (s.collBytes 1023) 1 0)
          (s.linePos (s.collBytes 1023) 0) 0 none ((s.coll 1023).received 0 1 0 false) ((s.coll 1023).received 0 1 0 true)
        = some (none, .on 1 false false)
      ∧ answers (.collectiveTile 1023 0 1 0) s (fun t => decide ((t.coll 1023).tasks = [(0, 1, 0)])) = true := by decide +kernel

/-- The sum of a tile of the kept shard goes to an accumulation region for DKIND 1. -/
theorem test_tile_region : let w := List.replicate 1024 (0x3F800000 : Word)
    let s := { lineState [⟨0, 0, 0, true, some w⟩] with
      mem := Mem.write [] (bankAt 0 (64 * 1023)) (((collDesc 1 1 1 0).take 24 |>.set 12 1 |>.set 13 31) ++ leBytes 8 7 ++ (collDesc 1 1 1 0).drop 32) }
    fieldAt (s.collBytes 1023) 0x0C 1 = 1 ∧ fieldAt (s.collBytes 1023) 0x0D 1 = 31
      ∧ s.windowOk s.collSet (s.globalOf (s.blockAt (31 / 32 % 4) (31 % 32) (collDst (s.collBytes 1023) + 0))) 4096 true = true := by
  decide +kernel

/-- The last task of an entry over two members with one tile. -/
theorem test_tile_last : (lineState []).collTasks ((lineState []).collBytes 1023) ≤ [(0, 1, 0)].length + 1 := by decide +kernel

theorem test_tile_void : let s := lineState [⟨0, 0, 0, true, none⟩]
    (s.ownTile 1023 (s.collBytes 1023) 0 0 0).2 = some none ∧ s.ownShard = 0
      ∧ tileSum (collOver (s.collBytes 1023) 0 && s.spansAxis 0) (s.lineLen (s.collBytes 1023) 0) (s.shardCoord (s.collBytes 1023) 0 0)
          (s.linePos (s.collBytes 1023) 0) 0 none ((s.coll 1023).received 0 0 0 false) ((s.coll 1023).received 0 0 0 true)
        = some (none, .stay)
      ∧ answers (.collectiveTile 1023 0 0 0) s (fun t => decide (t.reg Reg.TOR_VOID_FWD = 1)) = true := by decide +kernel

theorem test_tile_stay : let w := List.replicate 1024 (0x3F800000 : Word)
    let s := lineState [⟨0, 0, 0, true, some w⟩]
    s.holdsShard (s.collBytes 1023) 0 0 = true ∧ (s.ownTile 1023 (s.collBytes 1023) 0 0 0).2 = some none
      ∧ tileSum (collOver (s.collBytes 1023) 0 && s.spansAxis 0) (s.lineLen (s.collBytes 1023) 0) (s.shardCoord (s.collBytes 1023) 0 0)
          (s.linePos (s.collBytes 1023) 0) 0 none ((s.coll 1023).received 0 0 0 false) ((s.coll 1023).received 0 0 0 true)
        = some (chainAdd none (some w), .stay)
      ∧ (collAxes (s.collBytes 1023)).getLast? = some 0 ∧ w.length = 1024
      ∧ MayColl s (collDst (s.collBytes 1023) + 4096 * 0) 4096 true := by decide +kernel

theorem test_fetch_serve : let h : HeldFetch := ⟨1023, 0, bankAt 1 0x20000, 2, 0, 0, 1000000000⟩
    let s := { collState (collDesc 2 0 2 (bankAt 1 0x20000)) { started := some 0 } with fetches := [h] }
    s.fetches[0]? = some h ∧ h.value ≤ (s.sig h.gate).toNat ∧ h.dev = s.devnum ∧ (s.coll 1023).open_ = true
      ∧ h.tiles = collTiles (s.collBytes 1023) ∧ MayColl s h.src (4096 * h.tiles) false ∧ MayColl s (collDst (s.collBytes 1023)) (4096 * h.tiles) true := by
  decide +kernel

/-- A FETCH of the second member is served from here. -/
theorem test_fetch_serve_other : let h : HeldFetch := ⟨1023, 1, bankAt 1 0x20000, 2, 0, 0, 1000000000⟩
    let s := { collState (collDesc 2 0 2 0) {} with fetches := [h] }
    h.dev ≠ s.devnum ∧ MayColl s h.src (4096 * h.tiles) false := by decide +kernel

theorem test_permute_copy : let s := collState (collDesc 5 0 1 (bankAt 1 0x40000)) { started := some 0, sent := true, receipts := [(64, bankAt 1 0x80000, 64)] }
    (s.coll 1023).open_ = true ∧ (∀ d ∈ s.otherMembers, d ∈ (s.coll 1023).barrier)
      ∧ MayColl s (collRemote (s.collBytes 1023) + 64) 64 false ∧ MayColl s (bankAt 1 0x80000) 64 true
      ∧ answers (.permuteCopyPhase 1023) s (fun t => decide (t.coll 1023 = {})) = true := by decide +kernel

theorem test_coll_timeout : let s := { collState (collDesc 5 0 0 0) { started := some 5 } with now := 60000000005, wp := { job := true } }
    s.wardPowered 6 = true ∧ (s.coll 1023).open_ = true ∧ 5 + min 60000 (max 1 (s.reg Reg.TOR_COLL_TIMEOUT)) * 1000000 ≤ s.now
      ∧ s.flag Reg.TOR_COLL_STATUS 31 = false
      ∧ answers (.collectiveTimeout 1023) s (fun t => decide ((t.coll 1023).failed = true ∧ t.fld Reg.TOR_COLL_STATUS 9 0 = 1023 ∧ t.wp.job = false)) = true := by
  decide +kernel

/-! ### The far exchange, codec and cipher engines -/

/-- Job 7 with partner 255 UP on far port 1, which sends in cleartext; 16 MiB to re-send from. -/
def xs : State :=
  { ((((((ready.setReg Reg.XCH_IDENT (7 * 2 ^ 48)).setReg (ptrCfg 255) 0xD0000000).setFld (Reg.FP_CTRL 1) 31 31 1).setReg Reg.CPH_CLEAR 1).setReg
      (banked Reg.XCH_REGION_SIZE 2) 0x1000000).setReg (banked Reg.XCH_REGION_SIZE 4) 0x1000) with
    partners := [(255, { rate := 10000000 })] }

/-- A frame of that partner in cleartext: one packet of one group of stream 9, wire round 3. -/
def frameFrom (typ : BitVec 4) (body : List Byte) : Frame :=
  let f : Frame := ⟨typ, 0, true, false, false, 7, xs.senderOf 255, 0, 3, 3, 0, 1, 0, 1, 0, BitVec.ofNat 16 body.length, 9, 0, body, [], false⟩
  { f with tag := clearTag f }

/-- Such a frame passes the receive checks. -/
theorem frame_taken (s : State) (typ : BitVec 4) (body : List Byte) (h1 : 1 ≤ body.length) (h2 : body.length ≤ 8192)
    (hw : s.portWorks 1 = true) (hv : ∀ p < 255, s.ptrValid p = false) (h255 : s.ptrValid 255 = true)
    (hj : s.fld Reg.XCH_IDENT 63 48 = 7) (hs : s.senderOf 255 = xs.senderOf 255) (hn : s.normal = false) (hr : s.replay = []) :
    FrameTaken s 1 (frameFrom typ body) typ.toNat 255 := by
  have hl : (BitVec.ofNat 16 body.length).toNat = body.length := by simp; omega
  refine ⟨?_, rfl, rfl, hw, ?_, fun _ => hn, fun h => by simp [frameFrom] at h, ?_, ?_⟩
  · simp only [frameShaped, frameFrom, hl, clearTag, List.length_append, length_leBytes, List.length_replicate]
    simp [h1, h2]
  · unfold State.partnerOf
    rw [if_pos (by rw [hj]; rfl)]
    have e : ∀ p ∈ List.range 256, (s.ptrValid p && s.senderOf p == (frameFrom typ body).sender) = decide (p = 255) := by
      intro p h
      by_cases c : p = 255
      · subst c
        simp [h255, hs, frameFrom]
      · have : p < 255 := by have := List.mem_range.mp h; omega
        simp [hv p this, c]
    rw [List.find?_eq_some_iff_getElem]
    refine ⟨by rw [e 255 (by simp)]; rfl, 255, by simp, by simp, fun j hj => ?_⟩
    have hm : j ∈ List.range 256 := List.mem_range.mpr (by omega)
    have := e j hm
    simp only [List.getElem_range]
    rw [this]
    simp
    omega
  · exact beq_self_eq_true _
  · unfold State.replayed
    rw [hr]
    rfl

theorem xs_taken (typ : BitVec 4) (body : List Byte) (h1 : 1 ≤ body.length) (h2 : body.length ≤ 8192) :
    FrameTaken xs 1 (frameFrom typ body) typ.toNat 255 :=
  frame_taken xs typ body h1 h2 (by decide +kernel) (by decide +kernel) (by decide +kernel) (by decide +kernel) rfl
    (by decide +kernel) rfl

/-- A frame with a bad check sequence is counted, and no more. -/
theorem test_bad_fcs : xs.portWorks 1 = true ∧ answers (.probe 1 { frameFrom 5 [0] with badFcs := true }) xs (fun t =>
    decide (t.reg (Reg.FP_RX_FCS 1) = 1 ∧ (t.partner 255).heard = (xs.partner 255).heard)) = true := by decide +kernel

theorem test_control_packets : FrameTaken xs 1 (frameFrom 6 [0]) 6 255 ∧ FrameTaken xs 1 (frameFrom 5 [0]) 5 255
    ∧ FrameTaken xs 1 (frameFrom 4 (List.replicate 16 0)) 4 255 ∧ FrameTaken xs 1 (frameFrom 3 (List.replicate 32 0)) 3 255
    ∧ FrameTaken xs 1 (frameFrom 7 [0]) 7 255 ∧ xs.anchorCopyFits = true ∧ xs.canSeal 1 = true :=
  ⟨xs_taken _ _ (by decide) (by decide), xs_taken _ _ (by decide) (by decide), xs_taken _ _ (by decide) (by decide),
    xs_taken _ _ (by decide) (by decide), xs_taken _ _ (by decide) (by decide), by decide +kernel, by decide +kernel⟩

/-- A stream of one group of one packet, with one of its groups. -/
def stream9 (g : RxGroup) : RxStream := { who := some 255, num := 9, kind := .round, first := 3, last := 3, groups := 1, size := 8192, grp := [(0, g)] }

theorem test_data_packet : FrameTaken { xs with rx := [stream9 ⟨1, 0, [], [], none, false⟩] } 1 (frameFrom 1 [5]) 1 255
    ∧ packetSane (frameFrom 1 [5]) = true ∧ (frameFrom 1 [5]).snap = false
    ∧ [stream9 ⟨1, 0, [], [], none, false⟩].find? (fun x => x.takes 255 (frameFrom 1 [5])) = some (stream9 ⟨1, 0, [], [], none, false⟩)
    ∧ (Map.find (stream9 ⟨1, 0, [], [], none, false⟩).grp 0).getD { k := 1, m := 0 } = ⟨1, 0, [], [], none, false⟩ :=
  ⟨frame_taken _ _ _ (by decide) (by decide) (by decide +kernel) (by decide +kernel) (by decide +kernel)
      (by decide +kernel) (by simp only [State.senderOf, State.reg]) (by decide +kernel) rfl,
    by decide +kernel, rfl, by decide +kernel, by decide +kernel⟩

theorem test_data_again : (stream9 ⟨1, 0, [], [], some [5], false⟩).takes 255 (frameFrom 1 [5]) = true
    ∧ (⟨1, 0, [], [], some [5], false⟩ : RxGroup).data.isSome = true ∧ xs.rxqFull = false := by decide +kernel

theorem test_rxq_full : ({ xs with handing := some ⟨0, 0, 3, 5⟩ } : State).rxqFull = true := by decide +kernel

/-- Stream 9 to send to partner 255, encrypted or not. -/
def out9 (frames : List Frame) (sent : List Nat) : TxStream :=
  { num := 9, kind := .round, first := 3, last := 3, bytes := [1, 2, 3], targets := [255], frames := frames, coded := frames.length, sent := sent }

theorem test_pacer : let s := { xs with tx := [out9 [frameFrom 1 [5]] []], partners := [(255, { rate := 10000000, cur := some (9, 0) })] }
    s.ptrUp 255 = true ∧ s.portRuns (s.ptrPort 255) = true ∧ (s.partner 255).nextSend ≤ s.now ∧ (s.partner 255).resend = []
      ∧ (s.cipher (s.ptrPort 255)).lineFree ≤ s.now * 1000 ∧ s.portTurn 255 = true ∧ s.isCoded 9 = true
      ∧ (s.partner 255).cur = some (9, 0) ∧ (s.txFrames 9).length = 1 ∧ s.sendsClear = true ∧ 0 < (s.partner 255).rate := by
  decide +kernel

theorem test_pacer_again : let s := { xs with tx := [out9 [frameFrom 1 [5]] []], partners := [(255, { rate := 10000000, resend := [(9, 0)] })] }
    s.portTurn 255 = true ∧ (s.partner 255).resend = (9, 0) :: [] ∧ s.isCoded 9 = true := by decide +kernel

theorem test_pacer_start : let s := { xs with tx := [out9 [frameFrom 1 [5]] []], partners := [(255, { rate := 10000000, queue := [9] })] }
    s.portTurn 255 = true ∧ (s.partner 255).cur = none ∧ s.startable 255 = some 9 := by decide +kernel

theorem test_pacer_frame : ({ xs with tx := [out9 [frameFrom 1 [5]] []] } : State).txFrames 9 = [frameFrom 1 [5]]
    ∧ ({ xs with tx := [out9 [frameFrom 1 [5]] []] } : State).mayTransmit 1 (frameFrom 1 [5]) = true := by
  refine ⟨rfl, ?_⟩
  decide +kernel

theorem test_pacer_rate : let s := { xs with partners := [(255, { rate := 10000000, rtts := [(999000000, 50)], qmin := some 7 })] }
    (s.partner 255).base s.now = some 50 ∧ (s.partner 255).qmin = some 7 ∧ (s.partner 255).interval + 50 * 1000 ≤ s.now
      ∧ answers (.pacerRateUpdate 255) s (fun t => decide ((t.partner 255).rate = s.nextRate 255 7)) = true := by decide +kernel

theorem test_partner_down : let s := { xs with now := 2000000000 }
    (s.partner 255).heard + s.downTime ≤ s.now ∧ s.wardPowered 7 = true
      ∧ answers (.partnerDown 255) s (fun t => decide (t.ptrState 255 = 2 ∧ t.reg Reg.XCH_PARTNER_DOWN = 1)) = true := by decide +kernel

theorem test_partner_valid : MayCommand ready pf0 pgXCH ∧ ready.ptrValid 255 = false
    ∧ answers (.partnerValid pf0 255) ready (fun t => t.ptrValid 255 && decide (t.ptrState 255 = 2)) = true := by decide +kernel

theorem test_probe_timer : 255 ∈ xs.validPartners ∧ xs.ptrPort 255 = 1 ∧ xs.portWorks 1 = true ∧ (xs.partner 255).probed = none := by decide +kernel

theorem test_resend_release : let s := { xs with tx := [out9 [] [255]], now := 4000000000 }
    s.txOf 9 = some (out9 [] [255]) ∧ (∀ q ∈ (out9 [] [255]).targets, q ∈ (out9 [] [255]).sent) ∧ 0 + s.holdTime ≤ s.now
      ∧ answers (.resendRelease 9) s (fun t => decide (t.tx = [])) = true := by decide +kernel

theorem test_encode : let s := { xs.setReg Reg.XCH_CTRL_LIVE 0x80000000 with tx := [out9 [] []] }
    let ps := streamPackets (out9 [] []) s.groupK s.groupM
    s.txOf 9 = some (out9 [] []) ∧ (out9 [] []).frames = [] ∧ s.targetsOn (out9 [] []) 1 = [255] ∧ s.serving (.farPort 1) = true
      ∧ s.clockRuns 7 = true ∧ s.canSeal 1 = true
      ∧ framesSize ps + s.resendUsed ≤ s.regionSize 2 ∧ ps.length = 1 ∧ s.sendsClear = true ∧ s.frameCount 1 + 1 < 2 ^ 63 := by decide +kernel

/-- With a re-send region of no bytes the stream finds no room. -/
theorem test_encode_full : let s := { (xs.setReg Reg.XCH_CTRL_LIVE 0x80000000).setReg (banked Reg.XCH_REGION_SIZE 2) 0 with tx := [out9 [] []] }
    s.regionSize 2 < s.resendUsed + framesSize (streamPackets (out9 [] []) s.groupK s.groupM)
      ∧ answers (.streamEncode 1 9) s (fun t => t.tx.isEmpty && decide (t.reg Reg.XCH_RESEND_FULL = 1)) = true := by decide +kernel

theorem test_nack : let x := { stream9 ⟨2, 0, [(0, [5])], [0], none, false⟩ with nacks := 3 }
    let s := { xs with rx := [x] }
    s.rx.find? (fun x => x.who == some 255 && x.num == 9) = some x ∧ x.openGroups = [0] ∧ x.nackAt + s.nackTime ≤ s.now
      ∧ x.nacks < s.nackLimit ∧ s.nackLimit ≤ 4 ∧ s.reaches 255 = true
      ∧ (s.setFld (Reg.FP_CTRL 1) 31 31 0).reaches 255 = false := by decide +kernel

theorem test_nack_lost : let s := { xs with rx := [{ stream9 ⟨2, 0, [(0, [5])], [0], none, false⟩ with nacks := 4 }] }
    answers (.nackTimeout 255 9) s (fun t => decide (t.reg Reg.XCH_GROUPS_LOST = 1 ∧ (t.rx.map RxStream.openGroups = [[]]))) = true := by decide +kernel

theorem test_feedback_timer : let x := { stream9 ⟨2, 0, [(0, [5])], [0], none, false⟩ with unfed := 1 }
    0 < x.unfed ∧ x.fedAt + 1000000 ≤ xs.now ∧ [x].find? (fun x => x.who == some 255 && x.num == 9) = some x := by decide +kernel

theorem test_snap_timer : let s := { xs with snapFetch := some ⟨0, 0, 255, some 750000000, none⟩ }
    s.ptrUp 255 = true ∧ 750000000 + s.probeTime ≤ s.now ∧ s.portWorks (s.ptrPort 255) = true ∧ s.canSeal (s.ptrPort 255) = true := by decide +kernel

theorem test_port_link : xs.wardPowered 7 = true ∧ 1 ∉ xs.pads.lowPower
    ∧ answers (.farPortLinkChange 1 false) xs (fun t => t.flag (Reg.FP_CTRL 1) 31 == false) = true
    ∧ answers (.osfpCableInsert 1 true) xs (fun t => decide (1 ∈ t.pads.lowPower)) = true := by decide +kernel

/-- A fix round in formation over a table of one section of 256 parameters, which is codec engine 31's segment. -/
def deltaState (w : DeltaWork) : State :=
  { ((xs.setReg Reg.XCH_SECT 0x10001).setReg (Reg.CODEC_SEG 31) 0x10000) with
    deltaOpen := some (2, 5), delta := w
    mem := Mem.write [] 0x10000 (leBytes 8 0 ++ leBytes 8 256 ++ leBytes 8 (bankAt 2 0x20000)
      ++ leBytes 8 (bankAt 2 0x30000) ++ leBytes 8 (bankAt 2 0x40000) ++ List.replicate 24 0) }

theorem test_first_pass : let s := deltaState {}
    s.shardReady = true ∧ s.codecWorks 31 = true ∧ 31 ∉ s.delta.pass1 ∧ s.segment 31 = [0]
      ∧ s.sectTrouble ((s.segment 31).flatMap fun i => s.sectReads (s.sect i)) = none := by decide +kernel

theorem test_second_pass : let s := deltaState { pass1 := [31] }
    s.deltaOpen = some (2, 5) ∧ s.shardReady = true ∧ s.codecWorks 31 = true ∧ 31 ∈ s.delta.pass1 ∧ 31 ∉ s.delta.pass2 ∧ s.codecsDue = [31]
      ∧ s.sectTrouble ((s.segment 31).flatMap fun i => s.sectReads (s.sect i)) = none
      ∧ (∀ i ∈ s.segment 31, ∀ x ∈ s.latchSnaps.sectWrites 2 (s.latchSnaps.sect i), x.2 ≠ 0 → populated x.1 x.2 = true) := by decide +kernel

/-- Another engine's segment still waits for its second pass. -/
theorem test_second_pass_waits : ∃ j ∈ ((deltaState { pass1 := [30, 31] }).setReg (Reg.CODEC_SEG 30) 0x10000).codecsDue,
    j ≠ 31 ∧ j ∉ ((deltaState { pass1 := [30, 31] }).setReg (Reg.CODEC_SEG 30) 0x10000).delta.pass2 := by decide +kernel

/-- The same section with all its state zero. -/
def zeroDelta : State :=
  { deltaState { pass1 := [31], snaps := some [] } with
    mem := (deltaState {}).mem ++ cells (bankAt 2 0x20000) (List.replicate 768 0) ++ cells (bankAt 2 0x30000) (List.replicate 512 0)
      ++ cells (bankAt 2 0x40000) (List.replicate 512 0) }

/-- What that pass writes, reads and leaves alone. -/
theorem pass_sizes : (zeroDelta.passWrites 31 2 5 0 0).map (fun w => (w.1, w.2.length)) = [(bankAt 2 0x40000, 512), (0, 256), (0, 2)] := by
  decide +kernel

theorem pass_places : zeroDelta.segmentFirsts (zeroDelta.segment 31) = [(0, 0)] ∧ zeroDelta.segment 31 = [0]
    ∧ zeroDelta.sectReads (zeroDelta.sect 0) = [(bankAt 2 0x20000, 768), (bankAt 2 0x30000, 512), (bankAt 2 0x40000, 512)]
    ∧ zeroDelta.latchSnaps = zeroDelta ∧ zeroDelta.codecsDue = [31] ∧ zeroDelta.gapWrites 2 = []
    ∧ (∀ q ∈ [(bankAt 2 0x40000, 512), (0, 256), (0, 2)], PlainAt zeroDelta q.1 q.2
        ∧ overlaps q.1 q.2 (zeroDelta.reg Reg.XCH_SECT / 4096 * 4096) (64 * zeroDelta.sectCount) = false)
    ∧ ∀ q ∈ [(0, 256), (0, 2)], ∀ y ∈ [(bankAt 2 0x20000, 768), (bankAt 2 0x30000, 512), (bankAt 2 0x40000, 512)],
        overlaps q.1 q.2 y.1 y.2 = false := by decide +kernel

/-- The second pass of that engine writes apart from what it reads, and there are no gaps. -/
theorem test_pass_apart : zeroDelta.PassApart 31 2 5 ∧ zeroDelta.SectionsStay (zeroDelta.gapWrites 2) := by
  obtain ⟨hf, hg, hr, -, -, hw, hp, ho⟩ := pass_places
  have at_ : ∀ (n : Nat) (x : Nat × List Byte), (zeroDelta.passWrites 31 2 5 0 0)[n]? = some x →
      [(bankAt 2 0x40000, 512), (0, 256), (0, 2)][n]? = some (x.1, x.2.length) := by
    intro n x h
    rw [← pass_sizes, List.getElem?_map, h]
    rfl
  refine ⟨fun p hm => ?_, fun w h => by rw [hw] at h; cases h⟩
  rw [hf] at hm
  obtain rfl := List.mem_singleton.mp hm
  refine ⟨fun w h _ => ?_, fun i hi n x m y hx hy => ?_⟩
  · obtain ⟨n, h⟩ := List.mem_iff_getElem?.mp h
    exact hp _ (List.mem_of_getElem? (at_ n w h))
  · rw [hg] at hi
    obtain rfl := List.mem_singleton.mp hi
    rw [hr] at hy
    have hz := at_ n x hx
    have hm := List.mem_of_getElem? hy
    clear hp hf hg hr hw at_
    clear hx
    revert hz
    generalize x.2.length = k
    generalize x.1 = a
    intro hx
    rcases n with _ | n
    · rw [List.getElem?_cons_zero] at hx
      obtain ⟨rfl, rfl⟩ := Prod.mk.inj (Option.some.inj hx)
      rcases m with _ | _ | _ | m
      · exact .inl (by rw [← Option.some.inj hy]; decide +kernel)
      · exact .inl (by rw [← Option.some.inj hy]; decide +kernel)
      · exact .inr ⟨rfl, rfl, rfl⟩
      · rw [List.getElem?_eq_none (by simp)] at hy
        cases hy
    · rw [List.getElem?_cons_succ] at hx
      exact .inl (ho _ (List.mem_of_getElem? hx) y hm)

theorem test_span : let s := { xs with spanDue := [(3, [255])] }
    s.spanDue.find? (fun e => e.1 == (3 : Word).toNat) = some (3, [255])
      ∧ answers (.spanStreamForm 3) s (fun t => decide (t.tx.map TxStream.targets = [[255]]) && t.spanDue.isEmpty) = true := by decide +kernel

theorem test_snapshot_form : answers .snapshotStreamForm { xs with snapDue := some (3, [255]) } (fun t =>
    decide (t.tx.map TxStream.targets = [[255]] ∧ t.reg Reg.XCH_SNAP_SERVED = 1)) = true := by decide +kernel

theorem test_handoff : (ringWith 3 [1]).flightOf 0 0 3 1 = some { idx := 0, bytes := desc [1] }
    ∧ answers (.handoff 0 0) (ringWith 3 [1]) (fun t => decide (t.handoffs = [(0, 0)])) = true := by decide +kernel

/-- The round has closed: the HANDOFF in progress zeroes the accumulator, here of one parameter, and completes with the round. -/
theorem test_handoff_ends : let s := { ((ringWith 3 [1]).setFld Reg.UPD_SHARD 47 0 1).setReg (banked Reg.XCH_REGION_SIZE 0) 0x1000 with
      handing := some ⟨0, 0, 3, 0⟩ }
    4 * s.fld Reg.UPD_SHARD 47 0 ≤ s.regionSize 0 ∧ PlainAt s (s.regionAddr 0) 4 ∧ (s.ring 0).discard = false
      ∧ (s.flightAt 0 0).map (fun f => f.idx) = some 0
      ∧ answers (.handoff 0 0) s (fun t => decide ((t.ring 0).flights.map (fun f => f.status) = [some (0, 3)])
        && decide (t.covered = 4 ∧ t.handing = none ∧ t.load (s.regionAddr 0) 4 = [0, 0, 0, 0])) = true := by decide +kernel

theorem test_snap_fetch : let d := desc ([2] ++ List.replicate 15 0 ++ [255])
    (ringWith 3 d).flightOf 0 0 3 2 = some { idx := 0, bytes := d } ∧ (ringWith 3 d).wp.job = false
      ∧ answers (.snapFetch 0 0) (ringWith 3 d) (fun t => decide (t.snapFetch = some ⟨0, 0, 255, none, none⟩)) = true := by decide +kernel

theorem test_snapshot_load : let x : RxStream := { who := some 255, num := 9, kind := .snapshot, first := 3, last := 3, groups := 0, size := 0 }
    let s := { ringIs 3 { st := .active, flights := [{ idx := 0, bytes := desc [2], accepted := true }] } with
      rx := [x], snapFetch := some ⟨0, 0, 255, none, some 9⟩ }
    x.whole = some [] ∧ s.snapshotAnchors [] = some [] ∧ s.rx.find? (fun x => x.who == some 255 && x.kind == .snapshot && some x.num == some 9) = some x
      ∧ answers .snapshotLoad s (fun t => decide ((t.ring 0).flights.map (fun f => f.status) = [some (0, 3)])) = true := by decide +kernel

/-- The writes of one fetched anchor: the master's two parts, the anchor and the residual of parameter 255. -/
theorem test_anchor_writes : let s := zeroDelta
    s.anchorWrites (255, 0x3F80) = [(bankAt 2 0x20000 + 510, [0x80, 0x3F]), (bankAt 2 0x20000 + 767, [0]), (bankAt 2 0x30000 + 510, [0x80, 0x3F]),
        (bankAt 2 0x40000 + 510, [0, 0])]
      ∧ (∀ w ∈ s.anchorWrites (255, 0x3F80), PlainAt s w.1 w.2.length
          ∧ overlaps w.1 w.2.length (s.reg Reg.XCH_SECT / 4096 * 4096) (64 * s.sectCount) = false)
      ∧ s.anchorWrites (256, 0x3F80) = [] := by decide +kernel

theorem test_chunk_over : let x := { stream9 ⟨1, 0, [], [], some [], false⟩ with off := 8192 }
    x.nextChunk = .over ∧ x.who ≠ none
      ∧ answers (.chunkAdd 31 0) { xs with rx := [x] } (fun t => decide (t.rx.map RxStream.done = [true])) = true := by decide +kernel

/-- A stream of two groups of one 16-byte packet: a header of a table chunk of n coded bytes, and a lost group. -/
def lostBody : RxStream :=
  { who := some 255, num := 9, kind := .round, first := 3, last := 3, groups := 2, size := 16
    grp := [(0, ⟨1, 0, [], [], some ([1, 0, 0, 0] ++ leBytes 4 0 ++ leBytes 4 16 ++ leBytes 4 0), false⟩), (1, ⟨1, 0, [], [], none, true⟩)] }

theorem test_chunk_touched : lostBody.nextChunk = .touched 32
    ∧ answers (.chunkAdd 31 0) { xs with rx := [lostBody] } (fun t => decide (t.reg Reg.XCH_CHUNKS_LOST = 1 ∧ t.rx.map RxStream.off = [32])) = true := by
  decide +kernel

theorem test_chunk_whole : let x := { stream9 ⟨1, 0, [], [], some ([2, 0, 0xFF, 0xFF] ++ leBytes 4 0 ++ leBytes 4 0 ++ leBytes 4 0), false⟩ with size := 16 }
    x.nextChunk = .chunk ⟨2, false, 0xFFFF, 0, [], 0⟩ 16 ∧ xs.takesSection 31 0xFFFF = true := by decide +kernel

/-- The stream's last bytes are lost before a header, or end within one. -/
theorem test_chunk_no_header : let x := { stream9 ⟨1, 0, [], [], none, true⟩ with size := 16 }
    x.nextChunk = .noHeader
      ∧ answers (.chunkAdd 31 0) { xs with rx := [x] } (fun t => decide (t.reg Reg.XCH_CHUNKS_LOST = 1 ∧ t.rx.map RxStream.done = [true])) = true := by
  decide +kernel

theorem test_chunk_cut : let x := { stream9 ⟨1, 0, [], [], some [1, 2, 3], false⟩ with size := 3 }
    x.nextChunk = .cut ∧ answers (.chunkAdd 31 0) { xs with rx := [x] } (fun t => decide (t.reg Reg.XCH_CHUNKS_LOST = 1
        ∧ t.reg (Reg.CODEC_SIZE_FAULT 31) = 1 ∧ t.rx.map RxStream.done = [true])) = true := by decide +kernel

/-- A record of one parameter of block 0. -/
def oneRecord : List Byte := [0, 0, 0, 0, 1, 0, 0, 0, 0, 0, 0, 0]

/-- A raw DATA chunk of one record of a section that has its table, with the accumulator it names. -/
theorem test_chunk_records : let t : ChunkTable := ⟨0, 256, 0x3F800000, [], 0⟩
    let x := { stream9 ⟨1, 0, [], [], none, false⟩ with tables := [(0xFFFF, t)] }
    let s := { xs.setReg (banked Reg.XCH_REGION_SIZE 0) 0x1000 with rx := [x] }
    (s.chunkRecords x ⟨2, true, 0xFFFF, 12, oneRecord, (crc32c oneRecord).toNat⟩).isSome = true ∧ s.chunkRecords x ⟨2, true, 3, 0, [], 0⟩ = none := by decide +kernel

/-- Ring 0 with window set 1 open and a CODEC descriptor of no bytes. -/
def codecDesc (op : Byte) : List Byte := desc ([op] ++ List.replicate 15 0 ++ leBytes 8 64 ++ leBytes 8 4096 ++ leBytes 4 0 ++ leBytes 4 64)

theorem test_compress : let s := openRing 2 (codecDesc 1)
    s.flightOf 0 0 2 1 = some { idx := 0, bytes := codecDesc 1 } ∧ s.stepForbidden 0 (codecDesc 1) = false ∧ s.codecWorks 31 = true
      ∧ s.wouldRefuse (.ring 0) (cdcSrc (codecDesc 1)) (max 1 (cdcLen (codecDesc 1))) = false ∧ cdcLen (codecDesc 1) = 0
      ∧ s.waitsRemote (.flight 0 0) = false ∧ (s.compressOut (codecDesc 1) []).size = false ∧ (s.compressOut (codecDesc 1) []).crc = false
      ∧ (s.compressOut (codecDesc 1) []).past = false
      ∧ (∀ w ∈ placed (cdcDst (codecDesc 1)) (s.compressOut (codecDesc 1) []).pieces, DescHere s 0 (w.1, w.2.length) true) := by decide +kernel

theorem test_expand : let s := openRing 2 (codecDesc 2)
    s.flightOf 0 0 2 2 = some { idx := 0, bytes := codecDesc 2 } ∧ s.stepForbidden 0 (codecDesc 2) = false
      ∧ (expandOut (codecDesc 2) []).size = false ∧ (expandOut (codecDesc 2) []).past = false ∧ placed 4096 (expandOut (codecDesc 2) []).pieces = [] := by decide +kernel

/-- A CIPHER descriptor: 16 bytes at 64 under slot 2,047 of far-port die 1 in CTR, to 128, parameters at 192. -/
def cipherDesc (op : Byte) : List Byte :=
  desc ([op] ++ List.replicate 15 0 ++ leBytes 8 64 ++ leBytes 8 128 ++ leBytes 4 16 ++ [0xFF, 7, 3, 0] ++ leBytes 8 192)

/-- Ring 0 with that descriptor, the slot serving PF0 of host die 0, and core 9 of the engine as given. -/
def cipherState (op : Byte) (w : Option CoreWork) (jobs : List CipherJob) : State :=
  { (openRing 4 (cipherDesc op)).setReg (Reg.RG_ASSIGN 0) (2 ^ 31) with
    keys := [(2047, ⟨1, 0, List.replicate 32 0, false⟩)]
    ciphers := [(1, { cores := [(9, w)], rxWait := 1, jobs := jobs })] }

theorem test_cipher : ∀ op ∈ [(1 : Byte), 2], let s := cipherState op none []
    1 = cphSlot (cipherDesc op) / 1024 ∧ s.flightOf 0 0 4 op.toNat = some { idx := 0, bytes := cipherDesc op } ∧ s.cphViolation 0 (cipherDesc op) = none
      ∧ s.serving (.farPort 1) = true ∧ s.wardPowered 7 = true ∧ s.cphRefused 0 (cipherDesc op) = false
      ∧ answers (if op = 1 then .encrypt 0 0 else .decrypt 0 0) s (fun t =>
          decide ((t.cipher 1).jobs = [⟨0, 0, 2047, 1, 1, false⟩])) = true := by decide +kernel

theorem test_core : ((cipherState 1 none []).cipher 1).core 9 = none
    ∧ answers (.cipherCoreDispatch 1 9) (cipherState 1 none []) (fun t => decide ((t.cipher 1).core 9 = some .receive)) = true
    ∧ ((cipherState 1 (some .receive) []).cipher 1).core 9 = some .receive
    ∧ [(⟨0, 0, 2047, 1, 1, false⟩ : CipherJob)].find? (fun j => decide (0 < j.waiting)) = some ⟨0, 0, 2047, 1, 1, false⟩
    ∧ (({} : CipherEng).rxWait = 0 ∧ ({} : CipherEng).txWait = []) := by decide +kernel

/-- A control packet takes a core where nothing else waits, and goes out when the core is done. -/
theorem test_core_transmit : let f := { frameFrom 5 [0] with sender := 0, tag := [] }
    let s := { xs with ciphers := [(1, { txWait := [.control 255 f] })] }
    let w := { xs with ciphers := [(1, { cores := [(9, some (.transmit (.control 255 f)))] })] }
    (s.cipher 1).rxWait = 0 ∧ (s.cipher 1).txWait = .control 255 f :: [] ∧ (∀ j ∈ (s.cipher 1).jobs, j.waiting = 0)
      ∧ answers (.cipherCoreDispatch 1 9) s (fun t => decide ((t.cipher 1).core 9 = some (.transmit (.control 255 f)))) = true
      ∧ w.portWorks 1 = true ∧ w.mayTransmit 1 f = true ∧ w.ptrValid 255 = true ∧ w.ptrUp 255 = true ∧ f.typ = 5
      ∧ (w.cipher 1).core 9 = some (.transmit (.control 255 f)) ∧ (w.frameCoded 1 (.control 255 f)).out.getLast? = some (.frame 1 f) := by
  decide +kernel

/-- Sealed under an epoch that HOLD_S has ended, or whose entry never was, or to a partner that is down, it stays (R296, R330). -/
theorem test_core_held : let f := { frameFrom 6 [0] with clear := false, epoch := 3, sender := 0, tag := [] }
    let w := fun r => ({ xs.setFld Reg.CPH_XSTATE 1 0 3 with prevSince := some 0, now := 60000000000, ciphers := [(1, { cores := [(9, some (.transmit (.control 255 f)))] })] } : State).setRole 1 3 r
    (w 3).mayTransmit 1 f = false ∧ (w 3).expired 1 f = true
      ∧ ((w 3).frameCoded 1 (.control 255 f)).reg (Reg.CPH_EXPIRED_TX 1) = 1 ∧ ((w 3).frameCoded 1 (.control 255 f)).out = []
      ∧ ({ w 0 with epochGone := [7] } : State).mayTransmit 1 f = false ∧ ({ w 0 with epochGone := [7] } : State).expired 1 f = false
      ∧ ((w 3).setFld (ptrCfg 255) 29 28 2).ptrUp 255 = false := by decide +kernel

/-- A frame of a stream may be sent once a core is done with it. -/
theorem test_core_stream : let s := { xs with tx := [{ out9 [{ frameFrom 1 [5] with sender := 0, tag := [] }] [] with coded := 0 }], ciphers := [(1, { cores := [(9, some (.transmit (.stream 9)))] })] }
    (s.cipher 1).core 9 = some (.transmit (.stream 9)) ∧ s.isCoded 9 = false ∧ (s.frameCoded 1 (.stream 9)).isCoded 9 = true := by decide +kernel

theorem test_cipher_done : let s := { cipherState 1 (some (.descriptor 0 0)) [⟨0, 0, 2047, 0, 1, true⟩] with mem := Mem.write [] 64 (List.replicate 192 7) }
    (s.cipher 1).core 9 = some (.descriptor 0 0) ∧ s.ghost 0 0 = none ∧ ((s.ring 0).flights.find? fun f => decide (f.idx = 0) && f.status.isNone) = some { idx := 0, bytes := cipherDesc 1 }
      ∧ (∀ r ∈ cphReads (cipherDesc 1), DescHere s 0 r false) ∧ (∀ r ∈ cphWrites (cipherDesc 1), DescHere s 0 r true)
      ∧ s.waitsRemote (.flight 0 0) = false ∧ cphMode (cipherDesc 1) = 3
      ∧ overlaps (cphSrc (cipherDesc 1)) 16 (cphDst (cipherDesc 1)) 16 = false ∧ overlaps (cphDst (cipherDesc 1)) 16 (cphIv (cipherDesc 1)) 32 = false := by
  decide +kernel

theorem test_cipher_tag (s : State) (key src par aad : List Byte) : (s.cipherOut (cipherDesc 1) key src par aad).tagOk = true := by
  have h : cphMode (cipherDesc 1) = 3 := by decide +kernel
  simp only [State.cipherOut, h]

/-- A DECRYPT descriptor in GCM. -/
def gcmDesc : List Byte := desc ([2] ++ List.replicate 35 0 ++ [0xFF, 7, 4, 0])

/-- Whatever its key and text, some parameter block has another tag than theirs. -/
theorem test_cipher_tag_fails (s : State) (key src aad : List Byte) : ∃ par : List Byte, par.length = 32
    ∧ (s.cipherOut gcmDesc key src par aad).tagOk = false := by
  have h : cphMode gcmDesc = 4 := by decide +kernel
  have e : opOf gcmDesc = 2 := by decide +kernel
  by_cases c : gcmTag key (List.replicate 12 0) aad src = List.replicate 16 0
  · exact ⟨List.replicate 16 0 ++ List.replicate 16 1, by simp, by
      simp [State.cipherOut, h, e] at c ⊢
      simp [c]⟩
  · exact ⟨List.replicate 32 0, by simp, by
      simp [State.cipherOut, h, e] at c ⊢
      exact c⟩

theorem test_key_commands : let s := ready.setReg Reg.CPH_KEY_SEL 0x107FF
    MayCommand s pf0 pgCPH ∧ s.fld Reg.CPH_KEY_SEL 10 0 = 2047 ∧ s.fld Reg.CPH_KEY_SEL 17 16 = 1 ∧ s.slotRoles 2047 = [] ∧ s.slotInFlight 2047 = false
      ∧ answers (.keyErase pf0) { s with keys := [(2047, ⟨1, 0, [1], false⟩)] } (fun t => decide (t.keys = [])) = true := by decide +kernel

/-- Slot 1,023 of each far-port die is a WIRE slot that has not served. -/
def wireState : State :=
  { ((ready.setReg (Reg.CPH_EPOCH_SLOT 0 3) 1023).setReg (Reg.CPH_EPOCH_SLOT 1 3) 1023) with
    keys := [(1023, ⟨2, 0, [1], false⟩), (2047, ⟨2, 0, [1], false⟩)] }

/-- A key slot that a refused descriptor still names is busy (R192, R318). -/
theorem test_key_busy : let s := { cipherState 1 none [] with regs := Map.put (fun _ => 0) (cipherState 1 none []).regs Reg.CPH_KEY_SEL 0x107FF }
    (s.keySlot 2047).use = 1 ∧ s.slotInFlight 2047 = true
      ∧ answers (.keyErase pf0) s (fun t => decide (t.keys = s.keys ∧ t.fld Reg.CPH_KEY_CMD 29 27 = 4)) = true := by decide +kernel

theorem test_install : MayCommand wireState pf0 (pgCPHD 1) ∧ wireState.currentEpoch = none ∧ wireState.role 1 3 = 0
    ∧ (wireState.keySlot 2047).served = false ∧ (wireState.keySlot 2047).use = 2
    ∧ answers (.epochInstall pf0 1 3) wireState (fun t => decide (t.role 1 3 = 1 ∧ t.epochSlot 1 3 = 2047)) = true
    ∧ answers (.epochInstall pf0 1 2) wireState (fun t => decide (t.role 1 2 = 0 ∧ t.reg (Reg.CPH_INSTALL_REFUSED 1) = 1)) = true := by decide +kernel

/-- Epoch 3 is NEXT on both dies, epoch 2 is CURRENT. -/
def nextState : State :=
  ((((wireState.setRole 0 3 1).setRole 1 3 1).setRole 0 2 2).setRole 1 2 2).setFld Reg.CPH_EPOCH 2 0 6

theorem test_switch : nextState.nextEpoch = some 3 ∧ nextState.currentEpoch = some 2 ∧ (∀ d < 2, ∀ i < 4, nextState.role d i ≠ 3) ∧ wireState.nextEpoch = none
    ∧ answers (.epochSwitch pf0) nextState (fun t => decide (t.currentEpoch = some 3 ∧ t.role 1 2 = 3 ∧ t.prevSince = some 1000000000)) = true
    ∧ answers (.epochSwitch pf0) wireState (fun t => decide (t.reg Reg.CPH_SWITCH_REFUSED = 1)) = true := by decide +kernel

/-- Epoch 2 became PREVIOUS at 0; it is 60 s later. -/
def prevState : State := { (wireState.setRole 0 3 3).setRole 1 3 3 with prevSince := some 0, now := 60000000000 }

theorem test_grace : prevState.prevSince = some 0 ∧ 0 + prevState.graceTime ≤ prevState.now ∧ prevState.wardPowered 7 = true ∧ prevState.holdPassed = true
    ∧ answers .graceEnd prevState (fun t => decide (t.role 1 3 = 0 ∧ t.prevSince = none)) = true
    ∧ answers .previousHoldEnd prevState (fun _ => true) = true := by decide +kernel

theorem test_xstate : ready.flag Reg.CPH_XSTATE 31 = false ∧ (ready.setFld Reg.CPH_XSTATE 31 31 1).flag Reg.CPH_XSTATE 31 = true
    ∧ answers (.xstateWrite pf0 3) ready (fun t => t.flag Reg.CPH_XSTATE 31 && decide (t.fld Reg.CPH_XSTATE 1 0 = 3)) = true
    ∧ answers (.xstateWrite pf0 0) (ready.setFld Reg.CPH_XSTATE 31 31 1) (fun t => decide (t.reg Reg.CPH_XSTATE_REJECT = 1)) = true := by decide +kernel

/-! ### Power, fences and the side path -/

/-- The module in WATCH, and in DORMANT. -/
def watch : State := { State.reset with now := 1000000000 }
def dormant : State := watch.setFld Reg.PWR_STATE 1 0 0

theorem test_power_requests : MayCommand watch pf0 pgPWR = (watch.pathFrozen pf0 = false ∧ asPF0 pf0 = true ∧ watch.wardPowered 0 = true)
    ∧ MayCommand watch .side pgPWR ∧ watch.power = 1 ∧ watch.pwr.change = .none ∧ MayCommand ready pf0 pgPWR ∧ 2 ≤ ready.power ∧ ready.watchBarred = false
    ∧ jobState.watchBarred = true ∧ 2 ≤ jobState.power := ⟨rfl, by decide +kernel, by decide +kernel, rfl, by decide +kernel, by decide +kernel, by decide +kernel, by decide +kernel, by decide +kernel⟩

theorem test_power_answers : answers (.powerRequestDormant .side) ready (fun t => decide (t.fld Reg.PWR_CTRL 30 29 = 3)) = true
    ∧ answers (.powerRequestWatch .side) jobState (fun t => decide (t.fld Reg.PWR_CTRL 30 29 = 3)) = true
    ∧ answers (.powerRequestReady .side) watch (fun t => decide (t.pwr.change = .leaving)) = true := by decide +kernel

/-- The module on its way to WATCH, every unit of the wards it leaves in RESET. -/
def entering : State :=
  { ready with pwr := { ready.pwr with change := .entering }, units := (List.range 156).map fun k => (k, { phase := .reset }) }

theorem test_watch_entry : entering.pwr.waiting = none ∧ entering.pwr.change = .entering ∧ entering.watchDrained = true ∧ entering.pwr.wake = false := by decide +kernel

theorem test_ready_sequence : ({ watch with pwr := { watch.pwr with change := .leaving } } : State).pwr.waiting = none := by decide +kernel

theorem test_trip : let s := { ready with temps := [(127, (0, 2))] }
    2 ≤ s.hotSamples 127 ∧ answers (.thermalTrip 127) s (fun t => decide (t.power = 0) && t.pwr.tripLatch) = true := by decide +kernel

theorem test_main_input : answers .mainInputApply { dormant with pwr := { dormant.pwr with mainOk := false, tripLatch := true } } (fun t => t.pwr.mainOk && t.pwr.tripLatch) = true
    ∧ answers .wakeInLow { dormant with pwr := { dormant.pwr with wake := true, tripLatch := true } } (fun t => !t.pwr.tripLatch) = true
    ∧ answers .mainInputLoss ready (fun t => decide (t.power = 0) && !t.pwr.mainOk) = true
    ∧ answers .standbyLoss ready (fun t => decide (t.power = 0) && !t.pwr.standbyOk) = true := by decide +kernel

theorem test_wake : dormant.pwr.standbyOk = true ∧ dormant.pwr.change = .none ∧ dormant.power = 0
    ∧ answers .wakeInHigh dormant (fun t => decide (t.pwr.change = .booting)) = true
    ∧ (watch.setFld Reg.PWR_CTRL 8 8 1).flag Reg.PWR_CTRL 8 = true ∧ watch.power = 1 ∧ (watch.setFld Reg.PWR_CTRL 8 8 0).flag Reg.PWR_CTRL 8 = false
    ∧ answers .wakeInHigh (watch.setFld Reg.PWR_CTRL 8 8 1) (fun t => decide (t.pwr.change = .leaving)) = true
    ∧ answers .wakeInHigh (watch.setFld Reg.PWR_CTRL 8 8 0) (fun t => t.flag (pgPWR + Hdr.EVT_STATUS) 9) = true := by decide +kernel

/-- WAKE_IN held high acts when DORMANT or WATCH is entered, and when the binnacle has booted (R344, R345, R419). -/
theorem test_wake_held : let s := { watch with pwr := { watch.pwr with wake := true } }
    answers (.powerRequestDormant .side) s (fun t => decide (t.power = 0 ∧ t.pwr.change = .booting)) = true
      ∧ answers (.binnacleBootComplete ⟨3, true, true, true⟩) ({ (s.setFld Reg.PWR_CTRL 8 8 1) with pwr := { s.pwr with change := .booting } })
          (fun t => decide (t.pwr.change = .leaving) && t.flag (pgPWR + Hdr.EVT_STATUS) 9) = true := by decide +kernel

theorem test_boot : let s := { dormant with pwr := { dormant.pwr with change := .booting, tripped := true } }
    s.pwr.change = .booting ∧ s.pwr.wake = false
      ∧ answers (.binnacleBootComplete ⟨3, true, true, true⟩) s (fun t => decide (t.power = 1) && t.flag Reg.TH_STATE 1 && decide (t.pads.smbAddr = 3)) = true := by
  decide +kernel

theorem test_undervoltage : ready.power ≠ 0 ∧ 44000 ≤ (44000 : BitVec 16).toNat ∧ (45999 : BitVec 16).toNat < 46000
    ∧ answers (.mainUndervoltage 44000) ready (fun t => decide (t.reg Reg.PWR_MAIN_UV = 1)) = true
    ∧ dormant.power = 0 ∧ answers (.mainUndervoltage 44000) dormant (fun t => !t.pwr.mainOk && decide (t.regs = dormant.regs)) = true := by decide +kernel

/-- WAKE_IN is held high as a power-on reset enters WATCH (R419), or is low. -/
theorem test_power_on_wake : ({ dormant with pwr := { dormant.pwr with wake := true } } : State).pwr.wake = true ∧ dormant.pwr.wake = false := by
  decide +kernel

theorem test_clocks : readyIdle.clockReady 8 = true
    ∧ answers (.clockStart 8) readyIdle (fun t => (t.clock 8).starting && decide ((t.clock 8).depth = 5)) = true
    ∧ answers (.clockStart 8) (readyIdle.setReg Reg.CLK_SPREAD 15) (fun t => decide ((t.clock 8).depth = 10)) = true
    ∧ answers (.pllLock 8) { readyIdle with clocks := [(8, { starting := true })] } (fun t => t.clockRuns 8 && decide (t.reg Reg.CLK_STARTS = 1)) = true
    ∧ answers (.pllLockFail 8) { readyIdle with clocks := [(8, { starting := true })] } (fun t => decide ((t.clock 8).fails = 1)) = true
    ∧ (({ readyIdle with clocks := [(8, { starting := true, fails := 1 })] } : State).clock 8).fails ≠ 0 := by decide +kernel

theorem test_clock_stop : let s := ready.setReg (Reg.CLK_WARD_CTRL 8) (2 ^ 29 + 10)
    s.clockRuns 8 = true ∧ s.fld (Reg.CLK_WARD_CTRL 8) 31 30 ≠ 1 ∧ s.jobHolds 8 = false ∧ s.wardBusy 8 = false
      ∧ (s.clock 8).idleSince + s.idleTime 8 ≤ s.now
      ∧ answers (.clockIdleStop 8) s (fun t => !t.clockRuns 8) = true := by decide +kernel

theorem test_power_sample : answers (.powerSample 48000 600) ready (fun t => decide (t.reg Reg.PWR_INPUT = 48000 * 65536 + 600)) = true := by decide +kernel

theorem test_fast_loop : let s := { ready with pwr := { ready.pwr with samples := [(1000000000, 300000001)], held := 2 } }
    meanOf ((s.pwr.samples.filter fun e => decide (s.now < e.1 + 100000)).map fun e => e.2) = 300000001
      ∧ answers .fastLoop s (fun t => decide (t.pwr.held = 3)) = true := by decide +kernel

/-- A further quarter is held only 100 µs after the last (R350). -/
theorem test_fast_loop_soon : let s := { ready with pwr := { ready.pwr with samples := [(1000000000, 300000001)], held := 2, heldAt := 999900001 } }
    ¬ s.pwr.heldAt + 100000 ≤ s.now ∧ answers .fastLoop s (fun t => decide (t.pwr.held = 2)) = true := by decide +kernel

theorem test_slow_loop_floor : let s := { ready with pwr := { ready.pwr with samples := [(1000000000, 290000000)], limit := 1100 } }
    s.powerTarget * 100000 < s.meanPower ∧ answers .slowLoop s (fun t => decide (t.pwr.limit = 1100 ∧ t.reg Reg.PWR_SLOW_STEPS = 0)) = true := by
  decide +kernel

theorem test_loops_restart : let s := { ready with fw := { ready.fw with restart := some 0 }, pwr := { ready.pwr with samples := [(1000000000, 290000000)] } }
    s.fw.restart ≠ none ∧ answers .slowLoop s (fun t => decide (t = s)) = true ∧ answers .thermalStep s (fun t => decide (t = s)) = true := by decide +kernel

theorem test_slow_loop : let s := { ready with pwr := { ready.pwr with samples := [(1000000000, 290000000)] } }
    s.fw.restart = none ∧ s.pwr.samples ≠ [] ∧ s.powerTarget * 100000 < s.meanPower
      ∧ answers .slowLoop s (fun t => decide (t.pwr.limit = 2175)) = true := by decide +kernel

theorem test_slow_loop_up : let s := { ready with pwr := { ready.pwr with samples := [(1000000000, 0)], limit := 1100 } }
    s.meanPower ≤ s.powerTarget * 100000 ∧ s.pwr.close = false ∧ s.pwr.limit < s.maxMhz
      ∧ min s.maxMhz (min 1125 s.pwr.thermal) < s.fld Reg.CLK_FAST 15 0
      ∧ answers .slowLoop s (fun t => decide (t.pwr.limit = 1125)) = true := by decide +kernel

theorem test_thermal : ready.power ≠ 0 ∧ (ready.setReg (Reg.CALU_TRIM 0 127) 0).calWaits 0 127 = false
    ∧ (1920 : Int) ≤ signed 16 (1920 : BitVec 16).toNat + 0 := by
  refine ⟨by decide +kernel, ?_, by decide +kernel⟩
  unfold State.calWaits State.fld
  rw [State.reg_setReg_self]
  decide +kernel

theorem test_thermal_step : let s := { ready with temps := [(127, (1680, 0))] }
    s.fw.restart = none ∧ ((16 * s.thermalLimit.1 : Nat) : Int) ≤ s.tempOf 127
      ∧ (∀ i < 128, ready.tempOf i ≤ (16 * (ready.thermalLimit.1 - ready.thermalLimit.2) : Nat)) := by decide +kernel

theorem test_fence : MayCommand ready pf0 (unitPage (.upd 47)) ∧ ready.unfenced (.upd 47) = true
    ∧ answers (.fence pf0 (.upd 47) true) ready (fun t => decide ((t.unit (.upd 47)).phase = .draining) && (t.unit (.upd 47)).dumpDue) = true
    ∧ answers (.unitReset pf0 (.upd 47)) ready (fun t => decide ((t.unit (.upd 47)).kind = .unitReset)) = true
    ∧ answers (.unitReset pf0 (.upd 47)) (ready.setUnit (.upd 47) { phase := .quarantined }) (fun t => decide ((t.unit (.upd 47)).phase = .quarantined)) = true := by
  decide +kernel

/-- Engine 47 with what is kept of its unit. -/
def unitIs (x : UnitSt) : State := ready.setUnit (.upd 47) x

theorem test_drain_end : (unitIs { phase := .draining }).outstanding (.upd 47) = 0 ∧ ready.wardDue = []
    ∧ (unitIs { phase := .draining, dumpDue := true }).dump = none
    ∧ ((unitIs { phase := .draining, dumpDue := true }).setFld Reg.FLT_DUMP_CTRL 31 31 1).flag Reg.FLT_DUMP_CTRL 31 = true
    ∧ FenceKind.host.fault = false ∧ FenceKind.watchdog.fault = true
    ∧ ((unitIs { phase := .draining }).escalate).2 ≤ [1, 2, 3, 4, 5, 6, 7, 8, 9, 10, 11, 12, 13, 14].length + 1
    ∧ answers (.drainEnd (.upd 47)) (unitIs { phase := .draining }) (fun t => decide ((t.unit (.upd 47)).phase = .reset)) = true := by decide +kernel

theorem test_drain_fault : let s := (unitIs { phase := .draining, kind := .watchdog, history := [999999999] }).setReg Reg.FLT_ESCALATE 0x10002
    s.escalate.2 ≤ (s.recentResets (.upd 47)).length + 1
      ∧ answers (.drainEnd (.upd 47)) s (fun t => decide ((t.unit (.upd 47)).phase = .quarantined)) = true
      ∧ ((s.setReg Reg.FLT_ESCALATE 0x10003).recentResets (.upd 47)).length + 1 < (s.setReg Reg.FLT_ESCALATE 0x10003).escalate.2 := by decide +kernel

theorem test_drain_timeout : let s := unitIs { phase := .draining, fenceAt := 0 }
    (s.unit (.upd 47)).fenceAt + s.drainLimit (unitWard (.upd 47)) ≤ s.now
      ∧ answers (.drainTimeout (.upd 47)) s (fun t => decide ((t.unit (.upd 47)).phase = .reset)) = true := by decide +kernel

/-- The last unit of a warm reset's scope ends its drain. -/
theorem test_warm_end : let s := { ready with
      units := (List.range 156).map (fun k => (k, if k = (64 + 47) then { phase := .draining, kind := .unitReset } else { phase := .reset })), warmDue := some [] }
    (s.unit (.upd 47)).phase = .draining ∧ s.outstanding (.upd 47) = 0 ∧ .upd 47 ∈ warmUnits
      ∧ (∀ v ∈ warmUnits, v ≠ .upd 47 → (s.unit v).phase = .reset ∨ (s.unit v).phase = .quarantined) := by decide +kernel

theorem test_warm_begin : ready.warmDue = none ∧ 2 ≤ ready.power := by decide +kernel

/-- A ring that drains since 0 at a function level reset ends with DRAINED_ERROR at the time limit of its host die. -/
theorem test_host_drain : let s := { ringWith 3 [1] with
      rings := [(0, { st := .draining, drainAt := 0, flights := [{ idx := 0, bytes := desc [1] }] })] }
    (s.unit (.hostDie 0)).phase ≠ .draining ∧ s.ringDie 0 = (0 : Fin 2).val ∧ (s.ring 0).drainAt + min 50000000 (s.drainLimit 8) ≤ s.now
      ∧ answers (.drainTimeout (.hostDie 0)) s (fun t => (t.ring 0).flights.all fun f => decide (f.status = some (2, 0))) = true := by decide +kernel

/-- Units without a probation are back at once, or wait for a waypoint where they were fenced with another. -/
theorem test_reset_plain : noProbation (.hostDie 1) = true ∧ noProbation (.upd 47) = false
    ∧ answers (.resetComplete (.hostDie 1)) (ready.setUnit (.hostDie 1) { phase := .reset }) (fun t => decide ((t.unit (.hostDie 1)).phase = .normal)) = true := by
  decide +kernel

theorem test_reset_complete : let s := unitIs { phase := .reset }
    s.pwr.change ≠ .entering ∧ s.wardDue.contains (unitWard (.upd 47)) = false ∧ (s.unit (.upd 47)).waitsFor.all s.leftReset = true
      ∧ answers (.resetComplete (.upd 47)) s (fun t => decide ((t.unit (.upd 47)).phase = .probation)) = true := by decide +kernel

theorem test_probation : let s := unitIs { phase := .probation }
    (s.upd 47).recovering = false ∧ (∀ v ∈ s.companions (.upd 47), v = .upd 47 ∨ (s.unit v).phase.settled = true)
      ∧ answers (.probationComplete (.upd 47) true) s (fun t => decide ((t.unit (.upd 47)).phase = .normal)) = true
      ∧ answers (.probationComplete (.upd 47) false) s (fun t => decide ((t.unit (.upd 47)).kind = .selfTest)) = true := by decide +kernel

theorem test_watchdog_sample : ready.power ≠ 0 ∧ ready.fw.restart = none := by decide +kernel

theorem test_watchdog : let s := { unitIs { wdSince := some 0 } with upds := [(47, { running := true })], now := 60000000000 }
    s.watched (.upd 47) = true ∧ s.unitCode (.upd 47) = 2 ∧ (s.unit (.upd 47)).wdValue = s.progressOf (.upd 47) ∧ 0 + s.wdogWindow (.upd 47) ≤ s.now
      ∧ answers (.watchdogExpiry (.upd 47)) s (fun t => decide ((t.unit (.upd 47)).kind = .watchdog)) = true := by decide +kernel

theorem test_halt : MayCommand jobState pf0 pgFLT ∧ jobState.flag Reg.FLT_JOB 31 = false
    ∧ answers (.halt pf0) jobState (fun t => decide (t.fld Reg.FLT_JOB 27 24 = 11) && !t.wp.job) = true := by decide +kernel

theorem test_unquarantine : let s := (unitIs { phase := .quarantined }).setReg Reg.FLT_UNIT_SEL (unitIdent (.upd 47))
    unitIdent (.upd 47) = s.fld Reg.FLT_UNIT_SEL 15 0 ∧ (s.unit (.upd 47)).phase = .quarantined := by decide +kernel

theorem test_resets : (8 : Fin 9).val ≠ 0 ∧ 2 ≤ ready.power ∧ ready.rings = [] ∧ ready.pwr.good = false
    ∧ answers (.fundamentalReset 1) ready (fun t => decide (t.perst = [1]) && decide (t.units = ready.units)) = true
    ∧ answers (.functionLevelReset ⟨1, 2⟩) (ready.setFld (frozenReg 1) (frozenBit 2) (frozenBit 2) 1) (fun t => !t.funcFrozen ⟨1, 2⟩) = true := by decide +kernel

/-- PERST_N low fences a host die while power is good; its link trains once it is released and the 100 µs have passed. -/
theorem test_perst : let s := fun g at_ => ({ ready with perst := [1], pwr := { ready.pwr with good := g, goodAt := at_, untrained := [1] } } : State)
    let n := { ready with pwr := { ready.pwr with good := true } }
    (n.unit (.hostDie 1)).phase = .normal
      ∧ answers (.fundamentalReset 1) n (fun t => decide ((t.unit (.hostDie 1)).phase = .draining ∧ (t.unit (.hostDie 1)).kind = .wider)) = true
      ∧ answers (.fundamentalReset 1) (n.setUnit (.hostDie 1) { phase := .reset }) (fun t => decide (t.perst = [1] ∧ (t.unit (.hostDie 1)).phase = .reset)) = true
      ∧ (s true 999950000).wardPowered 8 = true ∧ 2 ≤ (s true 0).power
      ∧ answers (.perstRelease 1) (s true 999950000) (fun t => decide (t.perst = [] ∧ 1 ∈ t.pwr.untrained)) = true
      ∧ 1 ∈ (s true 999900000).pwr.untrained ∧ (s true 999900000).pwr.goodAt + 100000 ≤ (s true 999900000).now := by decide +kernel

/-- A host die ends its drain with a frozen function. -/
theorem test_host_die_end : let s := (ready.setFld (frozenReg 1) (frozenBit 62) (frozenBit 62) 1).setUnit (.hostDie 1) { phase := .draining, kind := .wider }
    s.outstanding (.hostDie 1) = 0 ∧ s.wardDue = [] ∧ s.warmDue = none ∧ s.funcFrozen ⟨1, 62⟩ = true
      ∧ (s.unit (.hostDie 1)).dumpDue = false ∧ (s.unit (.hostDie 1)).kind.fault = false := by decide +kernel

/-- Engine 47 was cut while a pass of it was under way; its journal is empty. -/
theorem test_reset_held : let s := { unitIs { phase := .reset } with upds := [(47, { held := [.step] })] }
    (s.upd 47).held.isEmpty = false ∧ answers (.resetComplete (.upd 47)) s (fun t => (t.upd 47).recovering) = true := by decide +kernel

/-- The image that the boot descriptor names takes no write. -/
theorem test_firmware_active : ready.power ≠ 0 ∧ ready.fw.restart = none
    ∧ answers (.firmwareUpdateWrite ready.fw.boot0.active 0 [7] true) ready (fun t => decide (t = ready)) = true := by decide +kernel

theorem test_firmware : true ≠ ready.fw.boot0.active ∧ 25165823 + [(7 : Byte)].length ≤ 24 * 2 ^ 20 ∧ MayCommand ready pf0 pgFW
    ∧ answers (.firmwareUpdateWrite true 25165823 [7] false) ready (fun t => decide (t.fw.imageB = [(25165823, 7)] ∧ t.fw.boot0.bOk = false ∧ t.fw.boot1 = t.fw.boot0)) = true := by
  decide +kernel

theorem test_activate : let s := fun ok => ({ ready with fw := { ready.fw with boot0 := { bOk := ok } } } : State)
    (s true).fw.boot0.ok (!(s true).fw.boot0.active) = true ∧ (s false).fw.boot0.ok (!(s false).fw.boot0.active) = false
    ∧ ready.fencesRun = false ∧ (unitIs { phase := .draining }).fencesRun = true
    ∧ answers (.firmwareActivate pf0) (s true) (fun t => decide (t.fw.restart = some 1000000000 ∧ t.fld Reg.FW_CTRL 30 28 = 1)) = true
    ∧ answers (.firmwareActivate pf0) (s false) (fun t => decide (t.fld Reg.FW_CTRL 30 28 = 4)) = true := by decide +kernel

/-- The new image runs within 1 s, or the boot ROM falls back. -/
theorem test_restart : let s := fun t0 => ({ ready with fw := { ready.fw with restart := some t0 } } : State)
    (s 1).now < 1 + 1000000000 ∧ 0 + 1000000000 ≤ (s 0).now
      ∧ answers .firmwareRunning (s 1) (fun t => t.fw.boot0.active && t.fw.running && decide (t.fw.restart = none) && bitOf (t.view Reg.FW_STATE) 0) = true
      ∧ answers .firmwareRunning (s 0) (fun t => decide (t = s 0)) = true := by decide +kernel

theorem test_vdm : ready.sideReady = true ∧ ready.vdmBad 0x4001 0 4 = some 3 ∧ watch.vdmBad pgXCH 0 4 = some 2 ∧ ready.vdmBad pgTH 0x10C 4 = none
    ∧ ready.vdmBad pgTH 0 4 = none
    ∧ answers (.vdmRead (BitVec.ofNat 32 pgTH) 0x10C 4) ready (fun t => decide (t.out.length = 1)) = true
    ∧ answers (.vdmWrite (BitVec.ofNat 32 pgXCH) 0 4 0) watch (fun t => decide (t.out = [.side [2]])) = true
    ∧ answers (.vdmSnapshot (BitVec.ofNat 32 pgTH) 0 0) ready (fun t => decide (t.fld (pgTH + Hdr.SNAP_CTRL) 15 0 = 1)) = true := by decide +kernel

/-- In DORMANT nothing answers; while the binnacle restarts it answers NOT_READY. -/
theorem test_side_not_ready : let s := { ready with fw := { ready.fw with restart := some 0 } }
    answers (.vdmRead 0 0 4) dormant (fun t => decide (t = dormant)) = true ∧ answers (.mctpControl 2) dormant (fun t => decide (t = dormant)) = true
      ∧ answers (.vdmRead 0 0 4) s (fun t => decide (t.out = [.side [1]])) = true
      ∧ answers (.mctpControl 2) s (fun t => decide (t.out = [.side [2, 1]])) = true
      ∧ answers (.firmwareUpdateWrite true 0 [7] true) s (fun t => decide (t.out = [.side [1]] ∧ t.fw = s.fw)) = true
      ∧ answers (.registerWrite .side (BitVec.ofNat 28 Reg.TH_LIMIT) 4 5) s (fun t => decide (t.out = [.side [1]] ∧ t.regs = s.regs)) = true
      ∧ answers (.firmwareActivate .side) s (fun t => decide (t.out = [.side [1]])) = true := by decide +kernel

/-- A word that a dump being taken could not read is answered TIMEOUT (R397). -/
theorem test_vdm_timeout : let s := { ready with dump := some { unit := .link 5, cause := 5, time := 7, waypoint := 3, marks := [pgTH + 0x10C] } }
    s.vdmBad pgTH 0x10C 4 = some 4 ∧ s.unanswered pgTH 0x1000 = true ∧ ready.unanswered pgTH 0x1000 = false
      ∧ answers (.vdmRead (BitVec.ofNat 32 pgTH) 0x10C 4) s (fun t => decide (t.out = [.side [4]])) = true := by decide +kernel

theorem test_sensor_power : answers (.pldmSensorRead 130) (ready.setReg Reg.PWR_INPUT (48000 * 65536 + 600)) (fun t => decide (t.out = [.side [0, 0x80, 0xBB, 0, 0]])) = true
    ∧ answers (.pldmSensorRead 131) (ready.setReg Reg.PWR_INPUT (48000 * 65536 + 600)) (fun t => decide (t.out = [.side [0, 0x58, 2, 0, 0]])) = true
    ∧ answers (.pldmSensorRead 139) ready (fun t => decide (t.out.length = 1)) = true := by decide +kernel

theorem test_sensors : (131 : BitVec 16).toNat < 132 ∧ 139 < (140 : BitVec 16).toNat
    ∧ answers (.pldmSensorRead 128) { ready with temps := [(127, (0xFFFF, 0))] } (fun t => decide (t.out = [.side [0, 0xFF, 0xFF, 0, 0]])) = true
    ∧ answers (.pldmSensorRead 200) ready (fun t => decide (t.out = [.side [0, 3, 0, 0, 0]])) = true
    ∧ answers (.mctpControl 2) ready (fun t => decide (t.out = [.side [2, 0]])) = true
    ∧ answers .pldmEventDelivery { ready with pldm := [(1, 2, 3)] } (fun t => decide (t.pldm = [] ∧ t.out.length = 1)) = true := by decide +kernel

/-- A dump of link 5 in a phase of its taking. -/
def dumpState (bytes : List Byte) (x : UnitSt) : State :=
  { ready.setUnit (.link 5) x with dump := some { unit := .link 5, cause := 5, time := 7, waypoint := 3, bytes := bytes } }

theorem test_dump_word : (dumpState [] {}).dumpHas { unit := .link 5, cause := 5, time := 7, waypoint := 3 } (pgLINK 5 + 0xFFC) = true
    ∧ answers (.dumpWordTimeout (BitVec.ofNat 48 (pgLINK 5 + 0xFFC))) (dumpState [] {}) (fun t => decide (t.reg Reg.FLT_DUMP_UNREADABLE = 1)) = true := by decide +kernel

theorem test_dump_complete : ((dumpState [] { phase := .dumping }).unit (.link 5)).phase = .dumping ∧ FenceKind.fault .host = false
    ∧ (dumpState [] { phase := .dumping }).wardDue = [] := by decide +kernel

theorem test_dump_read : let s := (dumpState [1, 2, 3, 4, 5, 6, 7, 8] {}).setReg Reg.FLT_DUMP_ADDR 4
    MayCommand s pf0 pgFLT
      ∧ answers (.dumpDataRead pf0) s (fun t => decide (t.out = [.value pf0 0x08070605] ∧ t.reg Reg.FLT_DUMP_ADDR = 8)) = true
      ∧ answers (.dumpRelease pf0) s (fun t => decide (t.dump = none)) = true := by decide +kernel

theorem test_tap : answers .tapReset ready (fun t => decide (t.tapInForce = .bypass)) = true
    ∧ answers (.tapInstruction .extest) ready (fun t => decide (t.tapInForce = .extest)) = true
    ∧ answers (.tapInstruction .extest) (ringWith 0 []) (fun t => decide (t.tapInForce = .bypass)) = true := by decide +kernel

/-! ### Commands that no bus, link or port carries -/

/-- A frame of a type with a payload, LEN and tag. -/
def oddFrame (typ : BitVec 4) (len payload tag : Nat) : Frame :=
  ⟨typ, 0, true, false, false, 0, 0, 0, 0, 0, 0, 0, 0, 0, 0, BitVec.ofNat 16 len, 0, 0, List.replicate payload 0, List.replicate tag 0, false⟩

theorem test_ill_memory : (Instr.bar4Access ⟨0, 0⟩ 0 (.read 0)).wellFormed = false
    ∧ (Instr.bar4Access ⟨0, 0⟩ 0 (.write [])).wellFormed = false ∧ (Instr.bar4Access ⟨0, 0⟩ 0 (.read 1)).wellFormed = true
    ∧ (Instr.slowTierAccess .side 0 (.read 0) .clean).wellFormed = false := by decide +kernel

/-- A flit of a type with a payload of n bytes. -/
def oddFlit (typ : BitVec 2) (n : Nat) : Flit := ⟨0, 0, typ, List.replicate n 0, 0⟩

theorem test_ill_flits : (Instr.flitSend 0 1 (List.replicate 311 0)).wellFormed = false
    ∧ (Instr.dataFlit 0 (oddFlit 1 311) .clean).wellFormed = false ∧ (Instr.dataFlit 0 (oddFlit 2 312) .clean).wellFormed = false
    ∧ (Instr.nakFlit 0 ⟨oddFlit 1 312, .clean⟩).wellFormed = false ∧ (Instr.nakFlit 0 ⟨oddFlit 2 313, .clean⟩).wellFormed = false
    ∧ (Instr.idleFlit 0 ⟨oddFlit 3 312, .clean⟩).wellFormed = false ∧ (Instr.idleFlit 0 ⟨oddFlit 0 0, .clean⟩).wellFormed = false
    ∧ (Instr.controlFlit 0 (oddFlit 3 311) 0 0).wellFormed = false ∧ (Instr.controlFlit 0 (oddFlit 0 312) 0 0).wellFormed = false
    ∧ (Instr.controlFlit 0 (oddFlit 3 312) 0 0).wellFormed = true
    ∧ (Instr.laneMarginCheck 0 (List.replicate 16 0)).wellFormed = false := by decide +kernel

theorem test_ill_frames : (Instr.dataPacket 0 (oddFrame 1 4 5 16)).wellFormed = false ∧ (Instr.parityPacket 0 (oddFrame 2 0 0 16)).wellFormed = false
    ∧ (Instr.nack 0 (oddFrame 3 4 4 15)).wellFormed = false ∧ (Instr.feedback 0 (oddFrame 5 4 4 16)).wellFormed = false
    ∧ (Instr.probe 0 (oddFrame 6 4 4 16)).wellFormed = false ∧ (Instr.probeReply 0 (oddFrame 5 4 4 16)).wellFormed = false
    ∧ (Instr.snapReq 0 (oddFrame 1 4 4 16)).wellFormed = false ∧ (Instr.snapReq 0 (oddFrame 7 4 4 16)).wellFormed = true := by decide +kernel

theorem test_ill_long (f : Frame) (typ : Nat) (h : f.len = 8193) : frameWF f typ = false := by
  simp [frameWF, h]

theorem test_ill_doorbell : (Instr.doorbell ⟨0, 0⟩ 0 [0, 0, 0]).wellFormed = false ∧ (Instr.doorbell ⟨0, 0⟩ 0 []).wellFormed = false
    ∧ (Instr.doorbell ⟨0, 0⟩ 0 [0, 0]).wellFormed = true := by decide +kernel

theorem test_ill_width : (Instr.registerWrite .side 0 3 0).wellFormed = false ∧ (Instr.registerWrite .side 0 8 0).wellFormed = true
    ∧ (Instr.counterClear .side 0 16 0).wellFormed = false := by decide +kernel

end Sys2Proof.Tests
end

section
/-! SUPPORT. Registers that the end of a gather leaves alone: the marks of the pages and the count of tainted waypoints. -/

namespace Sys2Proof.Machine

/-- A register that neither events nor the marks of a waypoint touch. -/
abbrev Unmarked (a : Nat) : Prop :=
  a ∉ irqRegs ∧ a % 0x1000 ≠ Hdr.EVT_STATUS ∧ a % 0x1000 ≠ Hdr.WP_STATE

theorem wpPages_aligned : ∀ page ∈ wpPages, page % 0x1000 = 0 := by decide +kernel

/-- Marking a page writes WP_STATE of the page and raises its event. -/
theorem reg_markPage (n : Nat) (m : Marks) (s : State) {page a : Nat} (hp : page % 0x1000 = 0) (ha : Unmarked a) :
    (s.markPage n m page).reg a = s.reg a := by
  obtain ⟨hirq, hevt, hwp⟩ := ha
  have hevt' : a ≠ page + Hdr.EVT_STATUS := by
    simp only [Hdr.EVT_STATUS] at *
    omega
  have hwp' : a ≠ page + Hdr.WP_STATE := by
    simp only [Hdr.WP_STATE] at *
    omega
  have hset : ∀ (u : State) (hi lo v : Nat), (u.setFld (page + Hdr.WP_STATE) hi lo v).reg a = u.reg a :=
    fun u _ _ _ => State.reg_setReg_ne u _ hwp'
  have hraise : ∀ u : State, (u.raise page 4).reg a = u.reg a := fun u => reg_raiseBits u page _ hirq hevt'
  unfold State.markPage
  dsimp only
  split <;> split <;> simp only [hset, hraise]

/-- Marking all the pages of a waypoint. -/
theorem reg_markPages (n : Nat) (m : Marks) (s : State) {a : Nat} (ha : Unmarked a) :
    (wpPages.foldl (State.markPage n m) s).reg a = s.reg a :=
  List.foldlRecOn (motive := fun u => u.reg a = s.reg a) wpPages _ rfl fun u hu page hp =>
    (reg_markPage n m u (wpPages_aligned page hp) ha).trans hu

theorem tallyIf_false (s : State) (a : Nat) : s.tallyIf false a = s := rfl

/-- The gather of a step whose outcome is COMMIT ends with the registers of the change set, but for WPC_POSITION, RT_TAINT and the
marks. -/
theorem reg_gatherNow_commit (s : State) {a : Nat} (ha : Unmarked a) (hpos : a ≠ Reg.WPC_POSITION) (hrt : a ≠ Reg.RT_TAINT) :
    (s.gatherNow ⟨false, false⟩ false).reg a = ((s.latchReady false).changeSet ⟨false, false⟩ false).1.reg a := by
  have hend : ∀ u : State, ((u.setFld Reg.WPC_POSITION 0 0 1).countTaint false).reg a = u.reg a := fun u =>
    (State.reg_setReg_ne _ _ hrt).trans (State.reg_setReg_ne u _ hpos)
  unfold State.gatherNow
  simp only [Bool.false_and, Bool.false_eq_true, if_false, tallyIf_false]
  rw [hend]
  generalize (s.latchReady false).changeSet ⟨false, false⟩ false = x
  rw [← reg_markPages (s.nextWaypoint false) x.2.1 x.1 ha]
  generalize wpPages.foldl (State.markPage (s.nextWaypoint false) x.2.1) x.1 = u
  rfl

end Sys2Proof.Machine
end
section
/-! SUPPORT. O10 does not hold in every state: a stand-in of an array that the engine does not have. -/

namespace Sys2Proof.Machine

/-- A job whose participants have all arrived, in the state of reset; the rails' trims are set to 0, since those of reset come from the
fuses, which do not compute. Chiplet 0 holds a stand-in for array 131,076, which ENG_ARRAY_MAP does not have: the word that would map
it is SEQ_ENTRY_LIVE of chiplet 0. -/
def strayStandin : State := { State.reset with
  regs := (List.range 15).map fun i => (Reg.CALU_TRIM 1 i, 0)
  chiplets := [(0, { standins := [(131076, 36)] })]
  wp := { job := true, arrived := allParticipants.map fun p => ⟨p, false, false, []⟩ } }

theorem strayStandin_arrived : ∀ p ∈ allParticipants, strayStandin.hasArrived p = true ∨ strayStandin.present p = false := by
  decide +kernel

theorem strayStandin_verdict : strayStandin.verdict = ⟨false, false⟩ := by decide +kernel

theorem strayStandin_entry_zero : strayStandin.reg (Reg.SEQ_ENTRY 0) = 0 ∧ strayStandin.reg (Reg.SEQ_ENTRY_LIVE 0) = 0 := by
  decide +kernel

/-- Part (e) makes the stand-in permanent: the spare's number, 36, enters the word that array 131,076 names. -/
theorem strayStandin_changeSet :
    ((strayStandin.latchReady false).changeSet ⟨false, false⟩ false).1.reg (Reg.SEQ_ENTRY_LIVE 0) = 36 := by decide +kernel

theorem exec_waypointGather (s : State) : exec .waypointGather s = execWaypointGather s := rfl

theorem strayStandin_gather : exec .waypointGather strayStandin = .next (strayStandin.gatherNow ⟨false, false⟩ false) := by
  have hall : (allParticipants.all fun p => strayStandin.hasArrived p || !strayStandin.present p) = true :=
    List.all_eq_true.mpr fun p hp => by
      rcases strayStandin_arrived p hp with h | h <;> simp [h]
  rw [exec_waypointGather, execWaypointGather, hall, strayStandin_verdict]
  rfl

/-- Refutes O10: the statement is about every state, also one whose stand-ins name an array past the 36 of the engine. Part (e) then
writes the map of array 131,076 of chiplet 0 over SEQ_ENTRY_LIVE of chiplet 0, which ChangesTaken has stay as no value is pending for
it. ChipletsTakePart bounds the array numbers of stand-ins; ChangesTaken does not. -/
theorem not_gatherLatchesTheOutcome : ¬ Obligations.GatherLatchesTheOutcome := by
  unfold Obligations.GatherLatchesTheOutcome
  intro h
  obtain ⟨t, ht, -, -, hlatched⟩ := h strayStandin rfl rfl rfl strayStandin_arrived
  have hcommit : ¬ TaintEndsJob strayStandin := fun hend => by
    rw [TaintEndsJob, strayStandin_verdict] at hend
    exact Bool.noConfusion hend.1
  obtain ⟨g, -, -, -, -, -, -, -, -, -, -, -, -, hchanges, -⟩ := hlatched hcommit
  have hlive : Nat.land (t.reg (Reg.SEQ_ENTRY_LIVE 0)) 0x1FFF = 0 := by
    have hmem : (⟨Reg.SEQ_ENTRY 0, Reg.SEQ_ENTRY_LIVE 0, 0x1FFF, pgSEQ 0, [.chiplet 0]⟩ : WpReg) ∈ strayStandin.wpRegs := by
      decide +kernel
    obtain ⟨hpend, hstay⟩ := strayStandin_entry_zero
    refine (hchanges.1 _ hmem).trans ?_
    split
    · rw [hpend]
      rfl
    · rw [hstay]
      rfl
  have hgather : t = strayStandin.gatherNow ⟨false, false⟩ false :=
    Host.Outcome.next.inj (ht.symm.trans strayStandin_gather)
  rw [hgather, reg_gatherNow_commit _ (by decide) (by decide) (by decide), strayStandin_changeSet] at hlive
  exact absurd hlive (by decide)

end Sys2Proof.Machine
end
section

/-! SUPPORT AND O8. The coordinates of a logical index (R51).

The fields of a logical index, read and written with no bound on the index: a write within its axis returns on that axis and leaves
the two others. -/
namespace Sys2Proof.Machine

@[simp] theorem coordOf_x (idx : Nat) : coordOf idx 0 = idx % 16 := rfl

@[simp] theorem coordOf_y (idx : Nat) : coordOf idx 1 = idx / 16 % 8 := rfl

@[simp] theorem coordOf_z (idx : Nat) : coordOf idx 2 = idx / 128 % 8 := rfl

@[simp] theorem withCoord_x (idx v : Nat) : withCoord idx 0 v = idx / 16 * 16 + v := rfl

@[simp] theorem withCoord_y (idx v : Nat) : withCoord idx 1 v = idx / 128 * 128 + v * 16 + idx % 16 := rfl

@[simp] theorem withCoord_z (idx v : Nat) : withCoord idx 2 v = idx / 1024 * 1024 + v * 128 + idx % 128 := rfl

theorem coordOf_withCoord_x {b v : Nat} (idx : Nat) (hb : b < 3) (hv : v < 16) :
    coordOf (withCoord idx 0 v) b = if b = 0 then v else coordOf idx b := by
  interval_cases b <;> simp <;> omega

theorem coordOf_withCoord_y {b v : Nat} (idx : Nat) (hb : b < 3) (hv : v < 8) :
    coordOf (withCoord idx 1 v) b = if b = 1 then v else coordOf idx b := by
  interval_cases b <;> simp <;> omega

theorem coordOf_withCoord_z {b v : Nat} (idx : Nat) (hb : b < 3) (hv : v < 8) :
    coordOf (withCoord idx 2 v) b = if b = 2 then v else coordOf idx b := by
  interval_cases b <;> simp <;> omega

/-- A coordinate read after one is replaced, for every index. -/
theorem coordOf_withCoord {a b v : Nat} (idx : Nat) (ha : a < 3) (hb : b < 3) (hv : v < if a = 0 then 16 else 8) :
    coordOf (withCoord idx a v) b = if b = a then v else coordOf idx b := by
  interval_cases a
  · exact coordOf_withCoord_x idx hb hv
  · exact coordOf_withCoord_y idx hb hv
  · exact coordOf_withCoord_z idx hb hv

/-- Settles O8: the three coordinates are the digits of the index in the mixed base 16, 8, 8, and a renaming is a write of one digit. -/
theorem logicalIndexHasItsCoordinates : Obligations.LogicalIndexHasItsCoordinates := by
  unfold Obligations.LogicalIndexHasItsCoordinates
  intro x y z v a b hx hy hz ha hb hv
  have x_digit : coordOf (z * 128 + y * 16 + x) 0 = x := by rw [coordOf_x]; omega
  have y_digit : coordOf (z * 128 + y * 16 + x) 1 = y := by rw [coordOf_y]; omega
  have z_digit : coordOf (z * 128 + y * 16 + x) 2 = z := by rw [coordOf_z]; omega
  exact ⟨x_digit, y_digit, z_digit, coordOf_withCoord _ ha hb hv⟩

end Sys2Proof.Machine
end
